-- ==== Sys2Proof/Word.lean ====
section
/-! DEFINITION. The words of the device: bytes, 32-bit registers and lanes (R7), 64-bit registers (R7). -/

namespace Sys2Proof

/-- A byte of memory. -/
abbrev Byte := BitVec 8

/-- A 32-bit register, a scalar register or a vector lane (R7, R135). -/
abbrev Word := BitVec 32

/-- A 64-bit register (R7). -/
abbrev Dword := BitVec 64

end Sys2Proof
end

