-- ==== Sys2Proof/Syntax.lean ====
section
/-! DEFINITION. The commands and events of the block, one constructor per row of spec/opcode_table.json, and their operands. -/

namespace Sys2Proof

/-- Status codes (Table HST-15). `ok` is the code 0x00. -/
inductive Status where
  | ok | eArg | eRange | eAlign | eState | eBusy | eNoroom | eLate | ePerm | eTopology | eDeadline | eMedia | eFault
  | eCancelled | eUnsupported | eTimeout
deriving DecidableEq, Repr

/-- Where and how a core instruction issues: its core (logical id, R6), the bundle slot it stands in (Table ISA-1), and whether it is
the first and the last instruction of its bundle. The instructions of a bundle come in the order of their slots (log entry 126). -/
structure Issue where
  core : BitVec 12
  slot : BitVec 2
  first : Bool
  last : Bool
deriving DecidableEq, Repr

/-- The R-form fields of a V-class word (R191): [25:22] vd, [21:18] va, [17:14] vb, [13:10] vc, [9:8] T, [7:0] F. -/
structure RForm where
  vd : BitVec 4
  va : BitVec 4
  vb : BitVec 4
  vc : BitVec 4
  t : BitVec 2
  f : BitVec 8
deriving DecidableEq, Repr

/-- The fields of the EPI instruction word (Table ISA-17). -/
structure EpiWord where
  g : BitVec 3
  sd : BitVec 5
  close : Bool
  order : Bool
  op : BitVec 2
  zfmt : BitVec 2
  act : BitVec 4
  bias : Bool
  side : Bool
  store : BitVec 2
  qstip : Bool
  reserved : BitVec 3
deriving DecidableEq, Repr

/-- What the array's error correction finds in a line or sector as it is read (R270, R291): nothing, a correctable error
in one symbol, or an uncorrectable error. -/
inductive LineOutcome where
  | clean
  | corrected (symbol : Nat)
  | uncorrectable
deriving DecidableEq, Repr

/-- Symbols that have failed in a stored vault line since it was last written, with the bits that flipped in each (data symbols 0 to 31,
check symbols 32 to 34), and the flipped bits of its poison flag (R270). -/
structure LineErr where
  syms : List (BitVec 6 × Byte) := []
  flag : BitVec 3 := 0#3
deriving DecidableEq, Repr

/-- Symbols that have failed in a stored GDDR sector since it was last written (data symbols 0 to 63, check symbols 64 to 67), and the
flipped bits of its group's metadata word (R291). -/
structure SectorErr where
  syms : List (BitVec 7 × Byte) := []
  word : Word := 0#32
deriving DecidableEq, Repr

/-- What a plate's transfer is for: staging (R367), write-back (R369), the reads or the writes of a move (R374), zeroing of the slot it
takes (R360). -/
inductive PlateUse where
  | stage | writeBack | moveRead | moveWrite | zero
deriving DecidableEq, Repr

/-- A codeword as a lane delivers it (R424): the lane, its header, what its decoding came to, and its ten flits; none of them where each comes
as a FLIT_RECEIVE of its own. -/
structure Codeword where
  lane : BitVec 3
  header : BitVec 20
  out : LineOutcome
  flits : List (BitVec 512)
deriving DecidableEq, Repr

/-- A sector of a region. -/
structure SectorAt where
  region : BitVec 5
  sector : BitVec 26
deriving DecidableEq, Repr

/-- A line read of the scrubber: its cycle, and what has failed in the stored line. -/
structure ScrubRead where
  cyc : Nat
  err : LineErr
deriving DecidableEq, Repr

/-- The batch of a turn to be prepared (R367): the turn, and each request slot with the highest position that it may write. -/
structure TurnBatch where
  turn : Dword
  seqs : List (BitVec 13 × Nat)
deriving DecidableEq, Repr

/-- What a packet of the dynamic network belongs to (R257): a BARRIER or CONTROL exchange, a DMA descriptor, the copy of a plate, the load of
a team, the load of a model or delta that the golden engine executes. -/
inductive PacketOwner where
  | control
  | desc (core : BitVec 12) (q : BitVec 3) (idx : Nat)
  | plate (seq : BitVec 13) (key : Nat) (use : PlateUse)
  | teamLoad (team : BitVec 6)
  | modelLoad
deriving DecidableEq, Repr

/-- What found an uncorrectable core SRAM error (R156): a read that an instruction in `slot` of bundle `pc` started, an
instruction fetch of bundle `pc`, or an access that no instruction of the core started. -/
inductive EccSite where
  | instr (pc : Nat) (slot : BitVec 2)
  | fetch (pc : Nat)
  | outside
deriving DecidableEq, Repr

/-- The fields of a transaction's header beside its opcode (Table NGV-5), and its data bytes. -/
structure Hdr where
  cls : Nat
  fence : Bool
  tag : Nat
  src : Nat
  dst : Nat
  lines : Nat
  att : Nat
  asub : Nat
  status : Nat
  addr : Nat
  turn : Nat
  hops : Nat
  data : List Byte
deriving DecidableEq, Repr

/-- Where the image's weight-stream layout says that a load-area line comes from (R516, Table FLT-3): golden bytes of the base model, or of a
delta, from offset `g` on, or image bytes at a local address. -/
inductive LineSrc where
  | base (g : Nat)
  | delta (delta g : Nat)
  | image (a : Nat)
deriving DecidableEq, Repr

/-- A line of a core and its source, with what the golden peer returns if its units have to be read there (R519); none where that read
fails. -/
structure LineFrom where
  core : Nat
  line : Nat
  src : LineSrc
  peer : Option (List Byte) := none
deriving DecidableEq, Repr

/-- What Dealer firmware takes from an image and a plate plan at team load, whose layouts the spec leaves to the toolkit: resident
area per team rank, bank A per rank, the load area as (rank, vault offset, bytes), the sources it was read from with what the golden peer
returned, plate format (Table PLT-1), the
plate plan's header and holders as (layer-head, range, rank, map index), the chain shape, reduction contexts as (context, value of
its register block). -/
structure LoadBytes where
  resident : List (Nat × List Byte)
  bankA : List (Nat × List Byte)
  weights : List (Nat × Nat × List Byte)
  plateFmt : Nat
  mapBase : Nat
  u : Nat
  ranges : Nat
  holders : List (Nat × Nat × Nat × Nat)
  log2n : Nat
  kvw : Nat
  lhs : Nat
  contexts : List (Nat × Nat)
deriving DecidableEq, Repr

/-- One sequence of the batch that the lead of a slice sends a member (R404): its slot on the lead, the kind of its entry (Table DET-5), its
first position, its input tokens with the draft probability of each draft, and its stamp. -/
structure LeadSeq where
  slot : Nat
  ekind : Nat
  pos : Nat
  inputs : List (Nat × Option Nat)
  arr : Nat
deriving DecidableEq, Repr

/-- A request that a turn of the lead names for the first time: what a member fills its slot and its OPEN record with (R386, R487), the pools
that hold its plates, and its prompt tokens. -/
structure LeadReq where
  slot : Nat
  refine : Bool
  d : Nat
  tenant : Nat
  model : Nat
  delta : Nat
  seed : Nat
  temp : Nat
  topK : Nat
  topP : Nat
  maxTokens : Nat
  arrival : Nat
  rpool : Nat
  tpool : Nat
  prompt : List Nat
deriving DecidableEq, Repr

/-- What the lead of a slice sends a member with a turn (R404): T, the role, the team seed, the batch, and the requests that are new to it. -/
structure LeadTurn where
  turn : Nat
  role : BitVec 2
  seed : BitVec 128
  seqs : List LeadSeq
  opens : List LeadReq
deriving DecidableEq, Repr

/-- What a turn starts with: the bytes that Dealer firmware places in the cores' data memories (core, address, bytes), on a member of a slice
the turn of its lead, and where the load-area lines that were found bad since the last turn are restored from (R510, R516). -/
structure TurnInput where
  placed : List (Nat × Nat × List Byte)
  lead : Option LeadTurn
  sources : List LineFrom
deriving DecidableEq, Repr

/-- What a member's result carries beside it: the REPAIR mark (R515), the lead's slots of the sequences that its faults fail, each with
whether it ends with E_MEDIA (R513, Table FLT-2), and the lead's slots of those that lost a plate on the member, each with the first position
of the lowest lost plate (R416). -/
structure SliceMark where
  repair : Bool
  affected : List (BitVec 13 × Bool)
  lost : List (BitVec 13 × Nat)
deriving DecidableEq, Repr

/-- What the lead of a slice decides of a turn (R404): to commit it, to discard it, or to discard it without counting the attempt (R446). -/
inductive SliceVerdict where
  | commit | discard | uncounted
deriving DecidableEq, Repr

/-- A host access of a register: a read, or a write with its value and whether the TLP is poisoned (R537, R540, Table HST-1). -/
inductive RegAccess where
  | read
  | write (value : Dword) (poisoned : Bool)
deriving DecidableEq, Repr

/-- How a read of host memory ends (R544). -/
inductive ReadEnd where
  | ok | unsupported | abort | poisoned | timeout
deriving DecidableEq, Repr

/-- A configuration request (R535, R538, R548): a read or write of a word, and the writes the device acts on. -/
inductive ConfigReq where
  | read (off : BitVec 12)
  | write (off : BitVec 12) (value : Word)
  | busMaster (on : Bool)
  | vfEnable (on : Bool) (num : BitVec 6)
  | bar4Size (log2 : BitVec 6)
deriving DecidableEq, Repr

/-- A received Uhloc frame beside its payload (Table MGT-1): the chain it arrived on (false A, true B), RETRY, LEADB, OCH, SEQ, ORIG
and CNT. -/
structure FrameHdr where
  chain : Bool
  retry : Bool
  leadB : Bool
  och : Bool
  seq : BitVec 16
  orig : BitVec 7
  cnt : BitVec 8
deriving DecidableEq, Repr

/-- What the crypto checks of R571 come to for an image: its public key hashes to the OTP slot it names; its signature holds. -/
structure ImgCheck where
  keyMatch : Bool
  sigOk : Bool
deriving DecidableEq, Repr

/-- A PLDM request (R579, R599): one of type 0, a sensor reading by number, an image to stage, a request to leave rest, or another
type. -/
inductive PldmReq where
  | base
  | sensor (id : Nat)
  | update (image : List Byte) (ck : ImgCheck)
  | leaveRest
  | other
deriving DecidableEq, Repr

/-- An SPDM message (R580): one of the plain requests, a measurement, opening and closing a session, IDE_KM that keys the IDE stream,
or a message that is not supported. -/
inductive SpdmMsg where
  | plain
  | measurement (index : BitVec 8)
  | keyExchange (id : BitVec 16)
  | endSession (id : BitVec 16)
  | ideKeyed (session : BitVec 16)
  | other
deriving DecidableEq, Repr

/-- The Umpire's samples of a tick (R574, R600): hottest logic and DRAM sensor in 0.25 °C above −10 °C, power in mW, rails, logic
readings and DRAM readings per cluster. -/
structure TickSample where
  tj : BitVec 12
  td : BitVec 12
  power : Word
  rails : List Dword
  clusters : List Dword
  dram : List Dword
deriving DecidableEq, Repr

/-- The commands and events of the block: one constructor per row of spec/opcode_table.json. -/
inductive Instr where
  /-- NOP (R131): An all-zero slot issues and does nothing. -/
  | nop (iss : Issue)
  /-- MODE (R168): Sets activation width, wide trit count and exception budget, as a barrier of 6 cycles. -/
  | mode (iss : Issue) (w : BitVec 3) (k : BitVec 3) (xb : BitVec 2)
  /-- TLD (R169): Starts a weight tile fetch from the core's vault through the Burin lane. -/
  | tld (iss : Issue) (sA : BitVec 5) (src : BitVec 2) (tpos : BitVec 3)
  /-- TLDM (R171): Starts a trit-pair tile load from data memory through the tile path. -/
  | tldm (iss : Issue) (sA : BitVec 5) (layout : Bool)
  /-- TSW (R174): Exchanges the front and back tile buffers. -/
  | tsw (iss : Issue)
  /-- PLN (R175): Presents M activation blocks against the front tile into a group's rows. -/
  | pln (iss : Issue) (g : BitVec 3) (aN : BitVec 3) (sX : BitVec 5) (m1 : BitVec 6) (rowOff : BitVec 6) (triple : Bool) (sw : Bool) (cb : Bool)
  /-- XLD (R177): Starts loading an overflow list into the exception table. -/
  | xld (iss : Issue) (sA : BitVec 5)
  /-- CLD (R178): Starts loading a channel list into the channel table. -/
  | cld (iss : Issue) (sA : BitVec 5)
  /-- GOPN (R179): Opens an accumulation group with its rows, mask, guard, spill interval and roll. -/
  | gopn (iss : Issue) (g : BitVec 3) (sA : BitVec 5)
  /-- GSPL (R98): Adds a group's rows into its spill record and resets them, suspending the group when FREE is set. -/
  | gspl (iss : Issue) (g : BitVec 3) (free : Bool)
  /-- GRES_RESET (R100): Resumes a suspended group with its rows at zero, keeping the record. -/
  | gresReset (iss : Issue) (g : BitVec 3)
  /-- GRES_RELOAD (R100): Resumes a suspended group by loading its spill record, scaled, into its rows. -/
  | gresReload (iss : Issue) (g : BitVec 3)
  /-- GCLS (R182): Closes a group, discarding its sums and releasing its rows. -/
  | gcls (iss : Issue) (g : BitVec 3)
  /-- SLD (R199): Loads a 16-byte seed into a sequence-seed entry. -/
  | sld (iss : Issue) (e : BitVec 6) (sA : BitVec 5)
  /-- DRAW (R200): Draws 32 roll values from the dice bank into a vector register. -/
  | draw (iss : Issue) (e : BitVec 6) (seq : Bool) (idx : Bool) (vb : BitVec 4) (sA : BitVec 5) (vd : BitVec 4)
  /-- TILE_READY (R68): A fetched or loaded tile becomes ready and enters the back buffer, or raises TILE_ORDER or FMT_CODE. -/
  | tileReady (core : BitVec 12)
  /-- XLD_COMPLETE (R177): An XLD finishes its read, installs the table or raises FMT_CODE. -/
  | xldComplete (core : BitVec 12)
  /-- CLD_COMPLETE (R178): A CLD finishes its read, installs the table or raises FMT_CODE. -/
  | cldComplete (core : BitVec 12)
  /-- PLN_ROW_WRITE (R93): Stage S6 combines a vector's partial and exceptions into its accumulator row. -/
  | plnRowWrite (core : BitVec 12)
  /-- EPI (R183): Starts reading a group out through the epilogue stages. -/
  | epi (iss : Issue) (w : EpiWord)
  /-- EPI_ROW_WRITE (R185): An EPI writes one row's output and appends its outliers to the overflow list. -/
  | epiRowWrite (core : BitVec 12)
  /-- LDV (R193): Loads a vector register from data memory through an address register. -/
  | ldv (iss : Issue) (vd : BitVec 4) (aN : BitVec 3) (h : Bool)
  /-- STV (R193): Stores a vector register to data memory through an address register. -/
  | stv (iss : Issue) (vs : BitVec 4) (aN : BitVec 3) (h : Bool)
  /-- VBCS (R192): Broadcasts a scalar register to every lane. -/
  | vbcs (iss : Issue) (vd : BitVec 4) (sA : BitVec 5)
  /-- VEXT (R192): Extracts one lane into a scalar register. -/
  | vext (iss : Issue) (sd : BitVec 5) (va : BitVec 4) (lane : BitVec 5)
  /-- VADD (R191): Adds two vectors lane by lane. -/
  | vadd (iss : Issue) (r : RForm)
  /-- VSUB (R191): Subtracts two vectors lane by lane. -/
  | vsub (iss : Issue) (r : RForm)
  /-- VMUL (R191): Multiplies two vectors lane by lane. -/
  | vmul (iss : Issue) (r : RForm)
  /-- VFMA (R192): Fused multiply-add of three vectors lane by lane. -/
  | vfma (iss : Issue) (r : RForm)
  /-- VMAX (R191): Lane maximum of two vectors. -/
  | vmax (iss : Issue) (r : RForm)
  /-- VMIN (R191): Lane minimum of two vectors. -/
  | vmin (iss : Issue) (r : RForm)
  /-- VADDS (R192): Saturating INT32 add. -/
  | vadds (iss : Issue) (r : RForm)
  /-- VSUBS (R192): Saturating INT32 subtract. -/
  | vsubs (iss : Issue) (r : RForm)
  /-- VAND (R192): Bitwise AND of two vectors. -/
  | vand (iss : Issue) (r : RForm)
  /-- VOR (R192): Bitwise OR of two vectors. -/
  | vor (iss : Issue) (r : RForm)
  /-- VXOR (R192): Bitwise XOR of two vectors. -/
  | vxor (iss : Issue) (r : RForm)
  /-- VSHL (R192): Shifts INT32 lanes left. -/
  | vshl (iss : Issue) (r : RForm)
  /-- VSHR (R192): Shifts INT32 lanes right arithmetically. -/
  | vshr (iss : Issue) (r : RForm)
  /-- VCMP (R192): Compares lanes and writes all-ones or zero. -/
  | vcmp (iss : Issue) (r : RForm)
  /-- VSEL (R192): Selects lanes of one of two vectors by a mask vector. -/
  | vsel (iss : Issue) (r : RForm)
  /-- VCVT (R192): Converts lanes between FP32, BF16 and INT32. -/
  | vcvt (iss : Issue) (r : RForm)
  /-- VFN (R195): Evaluates a table-unit function on every lane. -/
  | vfn (iss : Issue) (r : RForm)
  /-- VRED (R194): Reduces the lanes of a vector in fixed order. -/
  | vred (iss : Issue) (r : RForm)
  /-- VENC (R197): Starts encoding 32 values as one etch block. -/
  | venc (iss : Issue) (r : RForm)
  /-- VENC_WRITE (R197): A VENC writes its block and appends its list entries. -/
  | vencWrite (core : BitVec 12)
  /-- VDEC (R198): Decodes one etch block to FP32 lanes, applying the overflow list if asked. -/
  | vdec (iss : Issue) (vd : BitVec 4) (sA : BitVec 5) (w : BitVec 3) (cp : Bool) (ol : Bool)
  /-- VUNQ (R196): Unpacks quint bytes into INT32 trits. -/
  | vunq (iss : Issue) (r : RForm)
  /-- VUTP (R196): Unpacks trit-pair words into INT32 trits. -/
  | vutp (iss : Issue) (r : RForm)
  /-- VPKT (R196): Packs lane signs into trit-pair words. -/
  | vpkt (iss : Issue) (r : RForm)
  /-- ADD (R205): Scalar add. -/
  | add (iss : Issue) (sd sa sb : BitVec 5)
  /-- SUB (R205): Scalar subtract. -/
  | sub (iss : Issue) (sd sa sb : BitVec 5)
  /-- AND (R205): Scalar bitwise AND. -/
  | and (iss : Issue) (sd sa sb : BitVec 5)
  /-- OR (R205): Scalar bitwise OR. -/
  | or (iss : Issue) (sd sa sb : BitVec 5)
  /-- XOR (R205): Scalar bitwise XOR. -/
  | xor (iss : Issue) (sd sa sb : BitVec 5)
  /-- SHL (R205): Scalar shift left. -/
  | shl (iss : Issue) (sd sa sb : BitVec 5)
  /-- SHR (R205): Scalar logical shift right. -/
  | shr (iss : Issue) (sd sa sb : BitVec 5)
  /-- SRA (R205): Scalar arithmetic shift right. -/
  | sra (iss : Issue) (sd sa sb : BitVec 5)
  /-- SLT (R205): Signed set-less-than. -/
  | slt (iss : Issue) (sd sa sb : BitVec 5)
  /-- SLTU (R205): Unsigned set-less-than. -/
  | sltu (iss : Issue) (sd sa sb : BitVec 5)
  /-- MUL (R205): Scalar multiply, low 32 bits. -/
  | mul (iss : Issue) (sd sa sb : BitVec 5)
  /-- ADDI (R206): Adds a sign-extended immediate. -/
  | addi (iss : Issue) (sd sa : BitVec 5) (imm : BitVec 16)
  /-- ORI (R206): ORs a zero-extended immediate. -/
  | ori (iss : Issue) (sd sa : BitVec 5) (imm : BitVec 16)
  /-- LUI (R206): Loads an immediate into the upper half. -/
  | lui (iss : Issue) (sd : BitVec 5) (imm : BitVec 16)
  /-- LDW (R207): Loads a data-memory word into a scalar register. -/
  | ldw (iss : Issue) (sd sa : BitVec 5) (off : BitVec 16)
  /-- STW (R207): Stores a scalar register to data memory. -/
  | stw (iss : Issue) (ss sa : BitVec 5) (off : BitVec 16)
  /-- ASET (R208): Writes an address register from a scalar pair. -/
  | aset (iss : Issue) (aN : BitVec 3) (sA : BitVec 5)
  /-- RDS (R209): Reads a core value named by code into a scalar register. -/
  | rds (iss : Issue) (sd : BitVec 5) (code : BitVec 8)
  /-- B (R211): Unconditional branch. -/
  | b (iss : Issue) (target : BitVec 10)
  /-- BC (R211): Conditional branch. -/
  | bc (iss : Issue) (cond : BitVec 3) (sa sb : BitVec 5) (target : BitVec 10)
  /-- BR (R211): Branch to a register target. -/
  | br (iss : Issue) (sa : BitVec 5)
  /-- LOOP (R212): Opens a zero-overhead loop level. -/
  | loop (iss : Issue) (sA : BitVec 5) (lend : BitVec 10)
  /-- SECT_NEXT (R142): Ends the section; the next starts at the next frame boundary. -/
  | sectNext (iss : Issue) (sF : BitVec 5) (id : BitVec 16)
  /-- SECT_AT (R142): Ends the section; the next starts at turn frame F, or late with LATE set. -/
  | sectAt (iss : Issue) (sF : BitVec 5) (id : BitVec 16)
  /-- SECT_BAR (R142): Ends the section at a team-wide barrier. -/
  | sectBar (iss : Issue) (sF : BitVec 5) (id : BitVec 16)
  /-- SECTION_START (R142): A new section starts at its frame boundary after a SECT or barrier resolution. -/
  | sectionStart (core : BitVec 12)
  /-- END (R216): Ends the core's part of the turn. -/
  | endTurn (iss : Issue)
  /-- VLD (R217): Queues a vault-to-data-memory line transfer. -/
  | vld (iss : Issue) (sA : BitVec 5)
  /-- VST (R217): Queues a data-memory-to-vault line transfer. -/
  | vst (iss : Issue) (sA : BitVec 5)
  /-- VAULT_LINE_SERVED (R140): The core vault port serves one queued line. -/
  | vaultLineServed (core : BitVec 12) (err : LineErr)
  /-- GET (R223): DQP posts a descriptor reading a global address into data memory. -/
  | get (iss : Issue) (q : BitVec 3) (sA : BitVec 5)
  /-- PUT (R226): DQP posts a descriptor writing data memory to a global address. -/
  | put (iss : Issue) (q : BitVec 3) (sA : BitVec 5)
  /-- BDEC (R324): DQP posts a descriptor decoding compressed blocks into data memory. -/
  | bdec (iss : Issue) (q : BitVec 3) (sA : BitVec 5)
  /-- DMA_DESCRIPTOR_COMPLETE (R224): A DMA descriptor completes, advancing DONE and recording any failure. -/
  | dmaDescriptorComplete (core : BitVec 12) (q : BitVec 3) (idx cyc : Nat) (found : List (BitVec 14 × BitVec 19 × LineErr))
  /-- WAIT_ALIGN (R145): Waits on a queue count and resumes at a frame boundary in a new section. -/
  | waitAlign (iss : Issue) (q : BitVec 3) (sA : BitVec 5) (id : BitVec 16)
  /-- WAIT_LOOSE (R145): Waits on a queue count and resumes at once in a loose section. -/
  | waitLoose (iss : Issue) (q : BitVec 3) (sA : BitVec 5) (id : BitVec 16)
  /-- WAIT_RESUME (R145): A WAIT condition holds and issue resumes. -/
  | waitResume (core : BitVec 12) (cyc : Nat)
  /-- WAIT_TIMEOUT (R147): A WAIT's timeout expires before its condition holds. -/
  | waitTimeout (core : BitVec 12)
  /-- LOOSE_INTERLOCK_RELEASE (R149): A bundle stalled at a loose-section interlock issues once its interlocks clear. -/
  | looseInterlockRelease (core : BitVec 12) (cyc : Nat)
  /-- MSND (R229): Sends beats to one core of the team over the static mesh. -/
  | msnd (iss : Issue) (sA : BitVec 5)
  /-- MBC (R231): Broadcasts beats along a team row or column. -/
  | mbc (iss : Issue) (sA : BitVec 5) (axis : Bool)
  /-- MRED (R232): Joins an ordered reduction along a team row or column. -/
  | mred (iss : Issue) (sA : BitVec 5) (axis fmt : Bool)
  /-- MESH_BEAT_ARRIVAL (R229): A mesh beat or reduction partial reaches a core and is written or folded. -/
  | meshBeatArrival (core : BitVec 12)
  /-- OVLD (R219): Loads an overlay into the bank that is not executing. -/
  | ovld (iss : Issue) (sA : BitVec 5)
  /-- OVB (R220): Transfers control to the other bank after 40 cycles. -/
  | ovb (iss : Issue) (target : BitVec 10)
  /-- PWK (R236): Moves a token run between a staged plate and data memory through the vault port. -/
  | pwk (iss : Issue) (q : BitVec 3) (write : Bool) (sA : BitVec 5)
  /-- PWK_S (R237): Posts a plate-paging GET or PUT against a plate's home copy. -/
  | pwkS (iss : Issue) (q : BitVec 3) (write : Bool) (sA : BitVec 5)
  /-- SRAM_ECC_ERROR (R154): An uncorrectable core SRAM error is detected and faults the core. -/
  | sramEccError (core : BitVec 12) (found : EccSite)
  /-- TEAM_FAULT_STOP (R154): Every core of the team stops after a core signals a fault. -/
  | teamFaultStop (team : BitVec 6)
  /-- TURN_START (R141): A turn begins on every core of a team at an FREF boundary, resetting turn state. -/
  | turnStart (team : BitVec 6) (input : TurnInput)
  /-- FRAME_BOUNDARY (R249): A 2,048-cycle FREF boundary passes. -/
  | frameBoundary 
  /-- CLUSTER_WAKE (R248): Wakes a cluster outside any team; it becomes WAKING at the next FREF boundary. -/
  | clusterWake (fn : BitVec 6) (idx : Word) (d : BitVec 512)
  /-- CLUSTER_STOP (R248): Stops a cluster outside any team at the next FREF boundary. -/
  | clusterStop (fn : BitVec 6) (idx : Word) (d : BitVec 512)
  /-- CLUSTER_ENTER_RUN (R248): A WAKING cluster enters RUN, or OFF if a stop crossed it, after one frame. -/
  | clusterEnterRun (cluster : BitVec 6)
  /-- STAND_IN (R522): A reserve core is tested, placed and refilled to stand in for a failed site. -/
  | standIn (core : BitVec 12) (passed : Bool)
  /-- STAND_IN_COMPLETE (R522): A stand-in finishes and the paused team resumes. -/
  | standInComplete (core : BitVec 12) (failed : Bool) (srcs : List (LineSrc × Option (List Byte)))
  /-- BACKGROUND_LINE_SERVE (R262): A vault background port serves one queued line. -/
  | backgroundLineServe (vault : BitVec 14) (cyc : Nat) (err : LineErr)
  /-- VAULT_SCRUB (R273): A vault scrubber reads its next line and writes back or poisons it. -/
  | vaultScrub (col : BitVec 6) (row : BitVec 7) (read : ScrubRead)
  /-- VAULT_ROW_REPAIR (R277): A weak row is copied into a spare row at the next turn gap. -/
  | vaultRowRepair (col : BitVec 6) (row : BitVec 7)
  /-- HARD_REPAIR_PROGRAM (R278): The Umpire programs a hard-repair entry after a soft repair. -/
  | hardRepairProgram 
  /-- HARD_REPAIR_DONE (R278): A hard-repair programming of 400 us completes. -/
  | hardRepairDone 
  /-- SOFT_ROW (R280): VLT_REPAIR_CMD soft row repair of the selected site. -/
  | softRow (fn : BitVec 6) (bank : BitVec 2) (index : BitVec 13)
  /-- SOFT_COLUMN (R280): VLT_REPAIR_CMD soft column repair of the selected site. -/
  | softColumn (fn : BitVec 6) (bank : BitVec 2) (index : BitVec 13)
  /-- PROGRAM_HARD_ROW (R280): VLT_REPAIR_CMD programs a hard row entry. -/
  | programHardRow (fn : BitVec 6) (bank : BitVec 2) (index : BitVec 13) (key : BitVec 8)
  /-- PROGRAM_HARD_COLUMN (R280): VLT_REPAIR_CMD programs a hard column entry. -/
  | programHardColumn (fn : BitVec 6) (bank : BitVec 2) (index : BitVec 13) (key : BitVec 8)
  /-- BIST_START (R281): VLT_BIST_CTRL START begins a vault self-test on the selected site. -/
  | bistStart (fn : BitVec 6) (pattern : BitVec 4)
  /-- BIST_DONE (R281): A vault self-test ends and reports its failures. -/
  | bistDone (col : BitVec 6) (row : BitVec 7) (fails : Nat) (lines : List (Nat × Nat))
  /-- GDDR_TRAINING (R297): Initial training of every region at boot; failing regions are retired. -/
  | gddrTraining (found : List (Option Nat × Bool))
  /-- GDDR_SHORT_RETRAIN (R298): A region is retrained on period, temperature change or CRC retries. -/
  | gddrShortRetrain (region : BitVec 5) (temp : BitVec 8) (short full : Bool)
  /-- GDDR_ACCESS (R293): A GDDR controller completes one sector access with ECC, CRC retry and poison. -/
  | gddrAccess (region : BitVec 5) (sector : BitVec 26) (err : SectorErr) (retries : Nat)
  /-- GDDR_ACCESS_TIMEOUT (R294): A GDDR access gets no response in 10 us and completes uncorrectable. -/
  | gddrAccessTimeout (place : SectorAt)
  /-- GDDR_SCRUB (R296): A controller scrubs its next ECC group. -/
  | gddrScrub (region : BitVec 5) (errs : List SectorErr)
  /-- GDR_RETIRE_CMD (R305): Host command retiring a GDDR region. -/
  | gdrRetireCmd (fn : BitVec 6) (value : Word)
  /-- BUR_TABLE_SEL (R328): Write selecting encoder tables, effective at each encoder's next block boundary. -/
  | burTableSel (fn : BitVec 6) (value : Word)
  /-- BUR_WIN_CFG (R329): Write configuring or enabling a coded window. -/
  | burWinCfg (fn : BitVec 6) (win : BitVec 4) (value : Word)
  /-- ENCODER_BLOCK (R325): The encoder codes one block of an encoding PUT into its slot and index entry. -/
  | encoderBlock (core : BitVec 12) (q : BitVec 3) (idx : Nat)
  /-- POOL_SET (R358): Plate manager command to define, resize or disable a pool. -/
  | poolSet (pool : BitVec 6) (en : Bool) (tier : BitVec 2) (lines : BitVec 20) (team : BitVec 6) (base : Dword) (count : Word)
  /-- RESERVE (R359): Adds to a pool's reservation for a sequence. -/
  | reserve (pool : BitVec 6) (seq : BitVec 13) (n : Word)
  /-- RELEASE (R359): Returns reserved slots that are not allocated. -/
  | release (pool : BitVec 6) (seq : BitVec 13) (n : Word)
  /-- CHAIN_NEW (R362): Creates a plate chain from a descriptor. -/
  | chainNew (seq : BitVec 13) (tenant : BitVec 6) (log2n : BitVec 4) (kvw depth : BitVec 3) (jb : BitVec 5) (lhb : BitVec 4) (hpool : BitVec 6) (lhs : Nat)
  /-- CHAIN_FREE (R379): Frees every plate and node of a chain after the turns naming them end. -/
  | chainFree (seq : BitVec 13)
  /-- PREPARE (R367): Allocates and stages the plates of a prepared turn. -/
  | prepare (team spool : BitVec 6) (batch : TurnBatch)
  /-- COMMIT (R369): Truncates to the new committed length, clears TENT, queues write-backs and promotes. -/
  | commit (team : BitVec 6) (turn : Dword) (attempt : BitVec 2) (seqs promote : List (BitVec 13 × Nat))
  /-- DISCARD (R371): Leaves committed lengths and plates as they were after a discarded turn. -/
  | discard (team : BitVec 6) (turn : Dword) (attempt : BitVec 2)
  /-- MOVE (R374): Moves one plate to another pool by copy-then-swap. -/
  | move (seq : BitVec 13) (key : Nat) (pool : BitVec 6)
  /-- MARK_LOST (R378): Marks a plate lost for recompute. -/
  | markLost (seq : BitVec 13) (key : Nat)
  /-- LEND (R377): Reserves a range for a peer's PEER pool. -/
  | lend (base len : Dword)
  /-- BIND (R373): Binds a sequence to a team. -/
  | bind (seq : BitVec 13) (team : BitVec 6)
  /-- POLICY (R379): Sets a pool's watermarks and demotion target. -/
  | policy (pool low high demoteTo : BitVec 6) (demoteEn : Bool)
  /-- STAGING_COPY_DONE (R368): A staging copy completes and sets STAGED. -/
  | stagingCopyDone (seq : BitVec 13) (key : Nat)
  /-- WRITE_BACK_DONE (R369): A write-back to the home copy completes and clears WB_PEND. -/
  | writeBackDone (seq : BitVec 13) (key : Nat)
  /-- MOVE_COMPLETE (R374): A move's copy ends and the new home is written into the shadow. -/
  | moveComplete (seq : BitVec 13) (key : Nat) (writeFail : Bool)
  /-- EVICTION (R372): Staged copies are evicted while a vault pool is below its LOW mark. -/
  | eviction (pool : BitVec 6) (rank : BitVec 12)
  /-- DEMOTION (R375): VAULT plates are moved to the demotion pool while below the LOW mark. -/
  | demotion (pool : BitVec 6)
  /-- RECLAIM (R370): Deferred slots and nodes are freed after the turn naming them ends. -/
  | reclaim (team : BitVec 6)
  /-- MODEL_LOAD (R384): Writes a base model into the golden-copy area. -/
  | modelLoad (fn : BitVec 6) (idx : Word) (d : BitVec 512)
  /-- MODEL_UNLOAD (R384): Removes a model with no team loaded. -/
  | modelUnload (fn : BitVec 6) (idx : Word) (d : BitVec 512)
  /-- DELTA_LOAD (R384): Writes a tenant's delta streams beside the base model. -/
  | deltaLoad (fn : BitVec 6) (idx : Word) (d : BitVec 512)
  /-- TEAM_LOAD (R385): Places and loads a team on clusters. -/
  | teamLoad (fn : BitVec 6) (idx : Word) (d : BitVec 512)
  /-- TEAM_UNLOAD (R384): Unloads a team at its next boundary once no sequence is bound. -/
  | teamUnload (fn : BitVec 6) (idx : Word) (d : BitVec 512)
  /-- CANCEL (R413): Cancels the issuing function's requests with a given tag. -/
  | cancel (fn : BitVec 6) (idx : Word) (d : BitVec 512)
  /-- ROLE_SET (R408): Sets a team's role by command. -/
  | roleSet (fn : BitVec 6) (idx : Word) (d : BitVec 512)
  /-- FW_SWITCH (R421): Switches Dealer firmware pair by pair. -/
  | fwSwitch (fn : BitVec 6) (idx : Word) (d : BitVec 512)
  /-- GENERATE (R389): A GENERATE request descriptor is checked and queued into a slot. -/
  | generate (fn : BitVec 6) (idx : Word) (d : BitVec 1024)
  /-- REFINE (R399): A REFINE request descriptor is checked and queued into a slot. -/
  | refine (fn : BitVec 6) (idx : Word) (d : BitVec 1024)
  /-- QUEUED_DEADLINE (R397): A queued request's deadline passes and it ends with E_LATE. -/
  | queuedDeadline (slot : BitVec 13) (rrc : Dword)
  /-- TURN_END (R403): Every core has issued END and every descriptor completed; the boundary steps run. -/
  | turnEnd (team : BitVec 6) (rrc : BitVec 64) (outs : List (Nat × List Nat × List (Nat × Nat))) (sources : List LineFrom) (promote : List (Nat × Nat))
  /-- SLICE_RESULT (R404): A slice member's check result message reaches the lead. -/
  | sliceResult (team : BitVec 6) (rank : BitVec 7) (passed : Bool) (mark : SliceMark)
  /-- SLICE_VOTE_TIMEOUT (R404): A member's result is missing 500 us after the lead's check. -/
  | sliceVoteTimeout (team : BitVec 6)
  /-- SLICE_DECISION (R404): A member receives the lead's COMMIT or DISCARD decision. -/
  | sliceDecision (team : BitVec 6) (verdict : SliceVerdict)
  /-- SLICE_READY (R515): A repaired member's READY reaches the lead. -/
  | sliceReady (team : BitVec 6) (rank : BitVec 7)
  /-- SLICE_READY_TIMEOUT (R515): A member's READY does not arrive within READY_LIMIT. -/
  | sliceReadyTimeout (team : BitVec 6) (rank : BitVec 7)
  /-- CONTEXT_RESET_WAIT (R446): After 2 x TX_TIMEOUT the team's reduction contexts are set EMPTY. -/
  | contextResetWait (team : BitVec 6)
  /-- TURN_WATCHDOG (R509): A turn's watchdog expires and the attempt fails. -/
  | turnWatchdog (team : BitVec 6)
  /-- DEALER_HEARTBEAT (R418): A Dealer core writes its heartbeat and checks its partner's. -/
  | dealerHeartbeat (core : BitVec 4)
  /-- DEALER_TAKEOVER (R418): A partner takes over a Dealer core whose heartbeat stopped. -/
  | dealerTakeover (core : BitVec 4)
  /-- CODEWORD_RECEIVE (R424, R426): A port receives an FEC codeword on a lane and corrects or drops it. -/
  | codewordReceive (port : BitVec 5) (word : Codeword)
  /-- FLIT_RECEIVE (R427): A flit passes or fails CRC and is delivered in order. `tail` holds ACKINC and, from bit 4 on, CRC (Table NGV-3). -/
  | flitReceive (port : BitVec 5) (payload : BitVec 480) (kind cls : BitVec 2) (tail : BitVec 28)
  /-- RETRY (R428): A RETRY record makes the sender replay from the named flit. -/
  | retry (port : BitVec 5) (expected : BitVec 16)
  /-- REPLAY_TIMEOUT (R429): The oldest unacknowledged flit waits RETRY_TMR and is replayed. -/
  | replayTimeout (port : BitVec 5)
  /-- PORT_RETRAIN (R429): A port retrains after repeated replays or lost alignment. -/
  | portRetrain (port : BitVec 5) (ended : Option Bool)
  /-- CREDIT (R431): A CREDIT record returns receive-buffer credits. -/
  | credit (port : BitVec 5) (c0 c1 c2 c3 : BitVec 16)
  /-- IDENT (R449): An IDENT record records the partner's identity. -/
  | ident (port : BitVec 5) (serial : BitVec 64) (id : BitVec 12) (valid : Bool) (peerPort : BitVec 5)
  /-- LANES (R457): A LANES record agrees usable lanes during training. -/
  | lanes (port : BitVec 5) (lanes : BitVec 8)
  /-- ECHO (R430): An ECHO record is returned or its round trip recorded. -/
  | echo (port : BitVec 5) (stamp : BitVec 64) (rtt : Option (BitVec 32))
  /-- PORT_TRAINING (R456): A port completes training to UP or goes DOWN. -/
  | portTraining (port : BitVec 5) (passed : Bool) (usable : BitVec 8)
  /-- PORT_DOWN_RETRY (R456): A DOWN port retries training every 64 ticks. -/
  | portDownRetry (port : BitVec 5)
  /-- READ (R434): A READ request executes at its target. -/
  | read (port : BitVec 5) (h : Hdr)
  /-- WRITE (R434): A WRITE request executes at its target. -/
  | write (port : BitVec 5) (h : Hdr)
  /-- ATOMIC_ADD (R440): An ATOMIC_ADD request adds into 32-bit words at its target. -/
  | atomicAdd (port : BitVec 5) (h : Hdr)
  /-- COPY (R441): A COPY request makes its target copy lines to a global address. -/
  | copy (port : BitVec 5) (h : Hdr)
  /-- REDUCE (R444): A REDUCE contribution is folded or parked in a reduction context. -/
  | reduce (port : BitVec 5) (h : Hdr)
  /-- SIGNAL (R442): A SIGNAL adds to a signal counter and posts to the Dealer mailbox. -/
  | signal (port : BitVec 5) (h : Hdr)
  /-- RDRSP (R434): A read response returns to the requester. -/
  | rdrsp (port : BitVec 5) (h : Hdr)
  /-- ACK (R434): A completion response returns to the requester. -/
  | ack (port : BitVec 5) (h : Hdr)
  /-- TRANSACTION_TIMEOUT (R437): A request gets no response within TX_TIMEOUT and fails. -/
  | transactionTimeout (rd : Bool) (tag : BitVec 12)
  /-- TAG_HOLD_EXPIRY (R437): A timed-out tag returns to use after a further TX_TIMEOUT. -/
  | tagHoldExpiry (rd : Bool) (tag : BitVec 12)
  /-- TRANSIT_FORWARD (R453): A transaction for another device is forwarded or dropped. -/
  | transitForward (port : BitVec 5) (op : BitVec 4) (h : Hdr)
  /-- NGV_DEST (R452): Write of a destination table entry. -/
  | ngvDest (fn : BitVec 6) (d : BitVec 12) (value : Dword)
  /-- NGV_ID (R448): Write of the device id and ID_VALID. -/
  | ngvId (fn : BitVec 6) (value : Word)
  /-- PORT_CTRL (R457): Write enabling a port or changing its lanes, starting training. -/
  | portCtrl (fn : BitVec 6) (port : BitVec 5) (value : Word)
  /-- PORT_CRED (R459): Write of a port's class allotments. -/
  | portCred (fn : BitVec 6) (port : BitVec 5) (value : Word)
  /-- PORT_PRBS (R618): Write starting or stopping PRBS on a port. -/
  | portPrbs (fn : BitVec 6) (port : BitVec 5) (value : Word)
  /-- ACTIVATE (R463): SLC_CTRL ACTIVATE makes the device a slice member after checks. -/
  | activate (fn : BitVec 6)
  /-- DISSOLVE (R469): SLC_CTRL DISSOLVE leaves the slice. -/
  | dissolve (fn : BitVec 6)
  /-- CUT (R474): SLC_CTRL CUT declares a rank lost. -/
  | cut (fn : BitVec 6) (rank : BitVec 7)
  /-- RESTORE (R479): SLC_CTRL RESTORE returns a DETOUR slice to ACTIVE. -/
  | restore (fn : BitVec 6)
  /-- CUT_MESSAGE (R474): A CUT control message from the lead declares a rank lost. -/
  | cutMessage (rank : BitVec 7)
  /-- DET_RING_TAIL (R492): Host releases proof ring records. -/
  | detRingTail (fn : BitVec 6) (value : Dword)
  /-- DET_TLOG_TAIL (R492): Host releases timing log entries. -/
  | detTlogTail (fn : BitVec 6) (value : Dword)
  /-- TURN_BOUNDARY_RESUME (R491): A boundary held at step 2 under HOLD continues once ring room exists. -/
  | turnBoundaryResume (team : BitVec 6) (rrc : BitVec 64)
  /-- DET_CFG (R505): Write enabling the rings, zeroing HEAD and TAIL. -/
  | detCfg (fn : BitVec 6) (value : Word)
  /-- START (R499): DET_JOB_CTRL START begins a replay job. -/
  | start (fn : BitVec 6) (value : Word)
  /-- ABORT (R499): DET_JOB_CTRL ABORT ends a job at its next boundary. -/
  | abort (fn : BitVec 6)
  /-- CAPTURE (R503): A job reaches its capture point and writes the core's capture image. -/
  | capture (core : BitVec 12)
  /-- REQ_TAIL (R543): Doorbell advancing the request ring's producer count. -/
  | reqTail (fn : BitVec 6) (size : Nat) (value : Word)
  /-- CMD_TAIL (R543): Doorbell advancing the command ring's producer count. -/
  | cmdTail (fn : BitVec 6) (size : Nat) (value : Word)
  /-- TOK_HEAD (R543): Doorbell advancing the token ring's consumer count. -/
  | tokHead (fn : BitVec 6) (size : Nat) (value : Word)
  /-- CPL_HEAD (R543): Doorbell advancing the completion ring's consumer count. -/
  | cplHead (fn : BitVec 6) (size : Nat) (value : Word)
  /-- RING_ENABLE (R543): RING_CFG EN write enables a ring and zeroes its counts. -/
  | ringEnable (fn page : BitVec 6) (ring : BitVec 2) (value : Word)
  /-- RESTART (R544): RING_CFG RESTART refetches the entry at HEAD of a HALTED ring. -/
  | restart (fn page : BitVec 6) (ring : BitVec 2) (value : Word)
  /-- DESCRIPTOR_FETCH (R544): A queue core's descriptor read completes and the descriptor is taken. -/
  | descriptorFetch (fn : BitVec 6) (cmd : Bool) (fin : ReadEnd) (d : BitVec 1024)
  /-- DESCRIPTOR_READ_TIMEOUT (R544): A descriptor read gets no completion within CPL_TO and the ring halts. -/
  | descriptorReadTimeout (fn : BitVec 6) (cmd : Bool)
  /-- PROMPT_READ (R546): A request's prompt read completes into the token history or fails. -/
  | promptRead (slot : BitVec 13) (tokens : List Word) (fin : ReadEnd)
  /-- RECORD_POST (R545): Deferred records are posted once their cause clears. -/
  | recordPost (fn : BitVec 6)
  /-- IRQ_DELAY_EXPIRY (R547): An MSI-X delay expires and the vector is signalled. -/
  | irqDelayExpiry (fn : BitVec 6) (vector : BitVec 1)
  /-- VF_FLR (R548): A VF's function level reset. -/
  | vfFlr (fn : BitVec 6)
  /-- PF_FLR (R548): The PF's function level reset. -/
  | pfFlr 
  /-- PERST (R610): PERST# assertion resets the PCIe endpoint and every function. -/
  | perst 
  /-- BAR4_READ (R541): A host read through BAR4 of the local address space. -/
  | bar4Read (fn : BitVec 6) (off : BitVec 36) (len : Nat)
  /-- BAR4_WRITE (R541): A host write through BAR4 of the local address space. -/
  | bar4Write (fn : BitVec 6) (off : BitVec 36) (data : List Byte) (poisoned : Bool)
  /-- CONFIG_REQUEST (R538): A PCIe configuration request is served. -/
  | configRequest (fn : BitVec 6) (req : ConfigReq)
  /-- IDE_INTEGRITY_FAIL (R539): A received TLP fails its IDE check and the stream goes Insecure. -/
  | ideIntegrityFail 
  /-- REGISTER_WRITE (R9): A BAR0 write to a register without a row of its own, checked and applied or rejected. -/
  | registerWrite (fn : BitVec 6) (bar : BitVec 2) (off : BitVec 26) (size : Nat) (acc : RegAccess)
  /-- TICK (R555): A management tick boundary passes. -/
  | tick (x : TickSample)
  /-- TIME (R564): A TIME frame names the next RACKSYNC edge's tick number. -/
  | time (h : FrameHdr) (n serial : Dword)
  /-- SNAP (R567): A SNAP frame arms a pending snapshot at rack time T. -/
  | snap (h : FrameHdr) (num : Word) (t : Dword)
  /-- SNAP_LATCH (R567): At T every 64-bit RO register is latched into its shadow. -/
  | snapLatch 
  /-- ENUM (R562): An ENUM frame assigns chain positions. -/
  | enum (h : FrameHdr)
  /-- ROSTER (R562): A ROSTER frame records a device in the roster. -/
  | roster (h : FrameHdr) (pos : BitVec 7) (dev : BitVec 12) (valid : Bool) (serial : Dword)
  /-- FAULT (R569): A FAULT frame records a device's fault kind and is handed to Dealer firmware. -/
  | fault (h : FrameHdr) (dev : BitVec 12) (valid : Bool) (pos : BitVec 7) (kind : BitVec 8)
  /-- STAGE_OPEN (R572): Opens a rack staging of an image. -/
  | stageOpen (h : FrameHdr) (header : List Byte)
  /-- STAGE_DATA (R572): Carries 20 image bytes of a rack staging. -/
  | stageData (h : FrameHdr) (off : Word) (data : List Byte)
  /-- STAGE_CLOSE (R572): Closes a rack staging; members check and report. -/
  | stageClose (h : FrameHdr) (len : Word) (ck : ImgCheck)
  /-- RESULT (R572): A member's staging result reaches the lead. -/
  | result (h : FrameHdr) (status pass : BitVec 8)
  /-- FRAME_RESEND_TIMEOUT (R559): An acknowledged frame is not delivered within 1 tick and is resent. -/
  | frameResendTimeout (seq : BitVec 16)
  /-- CHAIN_INPUT_LOST (R560): A chain input loses lock for 8 us and the device wraps. -/
  | chainInputLost (chain : Bool)
  /-- CHAIN_INPUT_RESTORED (R560): A chain input holds lock for a tick and the device unwraps. -/
  | chainInputRestored (chain : Bool)
  /-- LEAD_TAKEOVER (R561): The backup lead acts after 8 ticks without TIME from the lead. -/
  | leadTakeover 
  /-- RACKSYNC_EDGE (R563): A RACKSYNC edge is sampled and checked against the rack count. -/
  | racksyncEdge (off : Int)
  /-- UHL_RT_SET (R565): Write naming the tick number of the next edge on the acting lead. -/
  | uhlRtSet (fn : BitVec 6) (value : Dword)
  /-- UHL_SNAP_T (R566): Write requesting a rack-wide counter snapshot. -/
  | uhlSnapT (fn : BitVec 6) (value : Dword)
  /-- STAGE_LOCAL (R572): UMP_STAGE_CMD stages an image from GDDR into the inactive slot. -/
  | stageLocal (fn : BitVec 6) (value : Word) (ck : ImgCheck)
  /-- STAGE_RACK (R572): UMP_STAGE_CMD stages an image locally and sends it over the chains. -/
  | stageRack (fn : BitVec 6) (value : Word) (ck : ImgCheck)
  /-- UMP_SWITCH (R527): Switches the Umpire to the other image slot at the next tick. -/
  | umpSwitch (fn : BitVec 6) (value : Word)
  /-- UMPIRE_SWITCH_TIMEOUT (R528): A new Umpire image fails to report RUNNING within 200 ticks and is reverted. -/
  | umpireSwitchTimeout 
  /-- UMPIRE_WATCHDOG (R529): The Umpire watchdog expires after 16 ticks and the Umpire restarts. -/
  | umpireWatchdog 
  /-- UMP_SVC_OUT (R569): Host write broadcasting OUT_OF_SERVICE for this device. -/
  | umpSvcOut (fn : BitVec 6) (value : Word)
  /-- COMMIT_SVN (R573): Raises a component's OTP security counter. -/
  | commitSvn (fn : BitVec 6) (value : Word)
  /-- REVOKE (R573): Sets a key slot's revoke bit. -/
  | revoke (fn : BitVec 6) (value : Word)
  /-- CLAIM (R576): Claims a shared resource. -/
  | claim (owner : BitVec 3) (fn : BitVec 6) (res : BitVec 5) (feature : BitVec 8)
  /-- RELEASE_CLAIM (R576): Releases a claimed shared resource. -/
  | releaseClaim (owner : BitVec 3) (fn : BitVec 6) (res : BitVec 5)
  /-- TIMER_EXPIRY (R577): A general timer reaches zero and sets its status bit. -/
  | timerExpiry (timer : BitVec 3)
  /-- MCTP_CONTROL (R578): An MCTP control message is served. -/
  | mctpControl (eid : Option (BitVec 8))
  /-- PLDM_REQUEST (R579): A PLDM request is served. -/
  | pldmRequest (req : PldmReq)
  /-- SPDM_MESSAGE (R580): An SPDM message is served. -/
  | spdmMessage (msg : SpdmMsg)
  /-- CRYSTAL_START (R583): A crystal input is judged after its start wait. -/
  | crystalStart (xb : Bool) (count : Nat)
  /-- CLOCK_INPUT_STOP (R583): An OK clock input stops for 64 OSC_SLOW cycles. -/
  | clockInputStop (xb : Bool)
  /-- PLL_LOCK (R585): A PLL locks after being enabled. `bad`: regions whose short retrain then fails, and whether the full one passes. -/
  | pllLock (pll : BitVec 3) (ok : Bool) (bad : List (Nat × Bool))
  /-- LOSS_OF_LOCK (R592): A PLL loses lock and the device acts per Table CLK-8. -/
  | lossOfLock (pll : BitVec 3)
  /-- CLK_DOM_SEL (R590): Write switching a clock domain's source. -/
  | clkDomSel (fn : BitVec 6) (dom : BitVec 2) (value : Word)
  /-- DOMAIN_RESTART (R590): A switched domain restarts after 8 cycles of the new source. -/
  | domainRestart (dom : BitVec 2)
  /-- CLK_XCTRL (R583): Write enabling a crystal input, starting its start sequence. -/
  | clkXctrl (fn : BitVec 6) (value : Word)
  /-- CLK_CLKOUT (R594): Write setting the CLKOUT source and divisor. -/
  | clkClkout (fn : BitVec 6) (value : Word)
  /-- CLK_PLLN_CFG (R587): Write configuring or enabling a PLL. -/
  | clkPllnCfg (fn : BitVec 6) (pll : BitVec 3) (value : Word)
  /-- REST (R597): PWR_CMD REST starts entry into the rest state. -/
  | rest (fn : BitVec 6) (value : Word)
  /-- REST_ENTERED (R597): Rest entry completes after the plate manager drains. -/
  | restEntered 
  /-- WAKE (R599): PWR_CMD WAKE starts a wake from rest. -/
  | wake (fn : BitVec 6) (value : Word)
  /-- WAKE_COMPLETE (R599): A wake completes and READY is set. `bad`: regions whose short retrain fails, and whether the full one passes. -/
  | wakeComplete (bad : List (Nat × Bool))
  /-- THERMAL_TRIP (R602): A sensor reaches its trip limit and the device leaves service. -/
  | thermalTrip (dram : Bool) (reading : BitVec 12)
  /-- POR_ASSERT (R607): POR# assertion resets the whole device. -/
  | porAssert 
  /-- POR_RELEASE (R612): POR# release latches straps and starts the boot sequence. -/
  | porRelease (factory : List (Nat × List Byte)) (cks : List ImgCheck) (unread : List Nat) (rack : Bool)
  /-- TEAM_RESET (R615): DLR_TEAM_RST stops a team's cores and drains its descriptors. -/
  | teamReset (fn : BitVec 6) (team : BitVec 6) (value : Word)
  /-- TEAM_RESET_DRAIN_DONE (R615): After the drain the attempt is discarded and cores reset. -/
  | teamResetDrainDone (team : BitVec 6)
  /-- TRST (R609): JTAG TRST# resets the TAP and JTAG claims. -/
  | trst 
  /-- EXTEST (R617): JTAG EXTEST. -/
  | extest (cells : Nat)
  /-- SAMPLE (R617): JTAG SAMPLE/PRELOAD. -/
  | sample (pins cells : Nat)
  /-- IDCODE (R617): JTAG IDCODE. -/
  | idcode 
  /-- CLAMP (R617): JTAG CLAMP. -/
  | clamp 
  /-- HIGHZ (R617): JTAG HIGHZ. -/
  | highz 
  /-- EXTEST_PULSE (R617): JTAG IEEE 1149.6 EXTEST_PULSE. -/
  | extestPulse (cells : Nat)
  /-- EXTEST_TRAIN (R617): JTAG IEEE 1149.6 EXTEST_TRAIN. -/
  | extestTrain (cells : Nat)
  /-- DBG (R617): JTAG access to the BAR0 map with PF rights. -/
  | dbg (write : Bool) (off : BitVec 26) (value : Dword)
  /-- MBIST (R617): JTAG access to the vault self-test engine. -/
  | mbist (col : BitVec 6) (row : BitVec 7) (pattern : BitVec 4)
  /-- LINKTEST (R618): JTAG PRBS on PCIe lanes and GDDR pins. -/
  | linktest (pattern : Option (BitVec 2))
  /-- BYPASS (R617): JTAG BYPASS. -/
  | bypass 
  /-- PERST_RELEASE (R610): PERST# deasserts, and within 20 ms the device is ready to train the link and answers configuration requests. -/
  | perstRelease (rate : BitVec 3) (width : BitVec 5) (flit : Bool)
  /-- VDD_AON_IN_TOLERANCE (R605): VDD_AON comes into tolerance. The always-on domain then reads the fuses, drives CORE_VID within 2 ms and arms the trip sensors, whatever the state of POR#. -/
  | vddAonInTolerance 
  /-- PLL3_RELOCK_TIMEOUT (R592): PLL3 has not relocked within 1 ms of losing lock, and every GDDR region is retired with cause NO_RESPONSE. -/
  | pll3RelockTimeout 
  /-- RETRY_REPEAT (R428): A receiver repeats its RETRY record every 1 us until the expected sequenced flit arrives intact. -/
  | retryRepeat (port : BitVec 5)
  /-- UHLOC_FRAME_CRC_FAIL (R557): A received Uhloc frame fails its CRC-16; it is dropped, forwarded no further, and UHL_CRC_CNT increments. -/
  | uhlocFrameCrcFail 
  /-- PACKET_CRC_FAIL (R257): A dynamic-network packet fails its CRC at a router. A BARRIER or CONTROL packet is resent once, and a second failure is reported as a hardware fault. -/
  | packetCrcFail (cluster : BitVec 6) (again : Bool) (owner : PacketOwner)
  /-- TEAM_LOAD_COMPLETE (R385): The golden fill of the weight areas and the image writes end, PWK_FMT is written, and the team becomes LOADED, completing the command. -/
  | teamLoadComplete (team : BitVec 6) (b : LoadBytes) (srcs : List (LineSrc × Option (List Byte)))
  /-- MODEL_LOAD_COMPLETE (R384): The golden engine finishes writing a base model or delta streams into the golden-copy area, the model is recorded, and the command completes. -/
  | modelLoadComplete 
  /-- UMPIRE_REPORTS_RUNNING (R528): A restarted or switched Umpire image reports RUNNING; shadow serving of UMP/TEL ends and the boot record is rewritten. -/
  | umpireReportsRunning 
  /-- RACKCLK_STOP (R555): RACKCLK stops toggling; RACK_OK clears and the tick source falls to the next source present. -/
  | rackclkStop 
  /-- VAULT_SELF_REFRESH (R268): A vault in self-refresh refreshes its next row from the rotation pointer, at a rate set by its cluster's warmest DRAM sensor. -/
  | vaultSelfRefresh (col : BitVec 6) (row : BitVec 7)
deriving DecidableEq, Repr

end Sys2Proof
end

