-- ==== Sys2Proof/Decode.lean ====
section
/-! DEFINITION. The instruction words of a core, slot by slot (R131, R162, R167, R183, R192, R202, R203; Tables ISA-15, ISA-17, ISA-19,
ISA-21, ISA-22), and the command that a word of spec/opcode_table.json spells. -/

namespace Sys2Proof

/-- What a 32-bit word spells in a slot of a bundle: an instruction, ILLEGAL_OP (undefined opcode, opcode of another class, nonzero
reserved bit), or BAD_OPERAND for the SECT of FORM 3 (R215). -/
inductive Decoded where
  | instr (c : Instr)
  | illegal
  | badForm
deriving DecidableEq, Repr

/-- Bits of a word from bit `lo`. -/
def wbits (w : Word) (lo len : Nat) : BitVec len := w.extractLsb' lo len

/-- One bit of a word. -/
def wbit (w : Word) (k : Nat) : Bool := w.getLsbD k

/-- An instruction whose reserved bits, `len` bits from bit `lo`, are zero (R162). -/
def reservedZero (w : Word) (lo len : Nat) (c : Instr) : Decoded := if wbits w lo len = 0 then .instr c else .illegal

/-- The R-form fields of a V-class word (R191). -/
def rformOf (w : Word) : RForm := ⟨wbits w 22 4, wbits w 18 4, wbits w 14 4, wbits w 10 4, wbits w 8 2, wbits w 0 8⟩

/-- The fields of the EPI word (Table ISA-17). -/
def epiOf (w : Word) : EpiWord :=
  ⟨wbits w 0 3, wbits w 3 5, wbit w 8, wbit w 9, wbits w 10 2, wbits w 12 2, wbits w 14 4, wbit w 18, wbit w 19, wbits w 20 2,
    wbit w 22, wbits w 23 3⟩

/-- P-class words (Table ISA-15). -/
def decodeP (i : Issue) (w : Word) : Decoded :=
  match (wbits w 26 6).toNat with
  | 0x01 => reservedZero w 8 18 (.mode i (wbits w 0 3) (wbits w 3 3) (wbits w 6 2))
  | 0x02 => reservedZero w 10 16 (.tld i (wbits w 0 5) (wbits w 5 2) (wbits w 7 3))
  | 0x03 => reservedZero w 6 20 (.tldm i (wbits w 0 5) (wbit w 5))
  | 0x04 => reservedZero w 0 26 (.tsw i)
  | 0x05 => .instr (.pln i (wbits w 0 3) (wbits w 3 3) (wbits w 6 5) (wbits w 11 6) (wbits w 17 6) (wbit w 23) (wbit w 24) (wbit w 25))
  | 0x06 => reservedZero w 5 21 (.xld i (wbits w 0 5))
  | 0x07 => reservedZero w 5 21 (.cld i (wbits w 0 5))
  | 0x08 => reservedZero w 8 18 (.gopn i (wbits w 0 3) (wbits w 3 5))
  | 0x09 => reservedZero w 4 22 (.gspl i (wbits w 0 3) (wbit w 3))
  | 0x0A => reservedZero w 4 22 (if wbit w 3 then .gresReload i (wbits w 0 3) else .gresReset i (wbits w 0 3))
  | 0x0B => reservedZero w 3 23 (.gcls i (wbits w 0 3))
  | 0x0C => reservedZero w 11 15 (.sld i (wbits w 0 6) (wbits w 6 5))
  | 0x0D => reservedZero w 0 5 (.draw i (wbits w 5 6) (wbit w 11) (wbit w 12) (wbits w 13 4) (wbits w 17 5) (wbits w 22 4))
  | _ => .illegal

/-- V-class words (Tables ISA-17, ISA-19). -/
def decodeV (i : Issue) (w : Word) : Decoded :=
  let r := rformOf w
  match (wbits w 26 6).toNat with
  | 0x01 => reservedZero w 0 18 (.ldv i (wbits w 22 4) (wbits w 19 3) (wbit w 18))
  | 0x02 => reservedZero w 0 18 (.stv i (wbits w 22 4) (wbits w 19 3) (wbit w 18))
  | 0x03 => reservedZero w 0 17 (.vbcs i (wbits w 22 4) (wbits w 17 5))
  | 0x04 => reservedZero w 0 12 (.vext i (wbits w 21 5) (wbits w 17 4) (wbits w 12 5))
  | 0x08 => .instr (.vadd i r)
  | 0x09 => .instr (.vsub i r)
  | 0x0A => .instr (.vmul i r)
  | 0x0B => .instr (.vfma i r)
  | 0x0C => .instr (.vmax i r)
  | 0x0D => .instr (.vmin i r)
  | 0x0E => .instr (.vadds i r)
  | 0x0F => .instr (.vsubs i r)
  | 0x10 => .instr (.vand i r)
  | 0x11 => .instr (.vor i r)
  | 0x12 => .instr (.vxor i r)
  | 0x13 => .instr (.vshl i r)
  | 0x14 => .instr (.vshr i r)
  | 0x15 => .instr (.vcmp i r)
  | 0x16 => .instr (.vsel i r)
  | 0x18 => .instr (.vcvt i r)
  | 0x19 => .instr (.vfn i r)
  | 0x1A => .instr (.vred i r)
  | 0x1C => .instr (.venc i r)
  | 0x1D => reservedZero w 0 12 (.vdec i (wbits w 22 4) (wbits w 17 5) (wbits w 14 3) (wbit w 13) (wbit w 12))
  | 0x1E => .instr (.vunq i r)
  | 0x1F => .instr (.vutp i r)
  | 0x20 => .instr (.vpkt i r)
  | 0x30 => .instr (.epi i (epiOf w))
  | _ => .illegal

/-- S-class words (Table ISA-21). -/
def decodeS (i : Issue) (w : Word) : Decoded :=
  let d := wbits w 21 5
  let a := wbits w 16 5
  let b := wbits w 11 5
  let imm := wbits w 0 16
  match (wbits w 26 6).toNat with
  | 0x01 => reservedZero w 0 11 (.add i d a b)
  | 0x02 => reservedZero w 0 11 (.sub i d a b)
  | 0x03 => reservedZero w 0 11 (.and i d a b)
  | 0x04 => reservedZero w 0 11 (.or i d a b)
  | 0x05 => reservedZero w 0 11 (.xor i d a b)
  | 0x06 => reservedZero w 0 11 (.shl i d a b)
  | 0x07 => reservedZero w 0 11 (.shr i d a b)
  | 0x08 => reservedZero w 0 11 (.sra i d a b)
  | 0x09 => reservedZero w 0 11 (.slt i d a b)
  | 0x0A => reservedZero w 0 11 (.sltu i d a b)
  | 0x0B => reservedZero w 0 11 (.mul i d a b)
  | 0x10 => .instr (.addi i d a imm)
  | 0x11 => .instr (.ori i d a imm)
  | 0x12 => reservedZero w 16 5 (.lui i d imm)
  | 0x13 => .instr (.ldw i d a imm)
  | 0x14 => .instr (.stw i d a imm)
  | 0x15 => if wbits w 24 2 = 0 then reservedZero w 0 16 (.aset i (wbits w 21 3) a) else .illegal
  | 0x16 => reservedZero w 8 13 (.rds i d (wbits w 0 8))
  | 0x18 => reservedZero w 10 16 (.b i (wbits w 0 10))
  | 0x19 => reservedZero w 10 3 (.bc i (wbits w 23 3) (wbits w 18 5) (wbits w 13 5) (wbits w 0 10))
  | 0x1A => if wbits w 21 5 = 0 then reservedZero w 0 16 (.br i a) else .illegal
  | 0x1B => reservedZero w 10 11 (.loop i d (wbits w 0 10))
  | 0x1C =>
    let f := wbits w 2 5
    let id := wbits w 7 16
    if wbits w 23 3 ≠ 0 then .illegal
    else match (wbits w 0 2).toNat with
    | 0 => .instr (.sectNext i f id)
    | 1 => .instr (.sectAt i f id)
    | 2 => .instr (.sectBar i f id)
    | _ => if f = 0 then .badForm else .illegal
  | 0x1D => reservedZero w 0 26 (.endTurn i)
  | _ => .illegal

/-- M-class words (Table ISA-22). `kind` is the KIND of the descriptor that a DQP names (Table ISA-26); DQP of an invalid KIND spells
BAD_OPERAND (R222). -/
def decodeM (i : Issue) (kind : Nat) (w : Word) : Decoded :=
  let a := wbits w 0 5
  let q := wbits w 0 3
  match (wbits w 26 6).toNat with
  | 0x01 => reservedZero w 5 21 (.vld i a)
  | 0x02 => reservedZero w 5 21 (.vst i a)
  | 0x03 =>
    if wbits w 8 18 ≠ 0 then .illegal
    else match kind with
    | 0 => .instr (.get i q (wbits w 3 5))
    | 1 => .instr (.put i q (wbits w 3 5))
    | 2 => .instr (.bdec i q (wbits w 3 5))
    | _ => .badForm
  | 0x04 =>
    reservedZero w 25 1
      (if wbit w 3 then .waitLoose i q (wbits w 4 5) (wbits w 9 16) else .waitAlign i q (wbits w 4 5) (wbits w 9 16))
  | 0x05 => reservedZero w 5 21 (.msnd i a)
  | 0x06 => reservedZero w 6 20 (.mbc i a (wbit w 5))
  | 0x07 => reservedZero w 7 19 (.mred i a (wbit w 5) (wbit w 6))
  | 0x08 => reservedZero w 5 21 (.ovld i a)
  | 0x09 => reservedZero w 10 16 (.ovb i (wbits w 0 10))
  | 0x0A => reservedZero w 10 16 (if wbit w 3 then .pwkS i q (wbit w 4) (wbits w 5 5) else .pwk i q (wbit w 4) (wbits w 5 5))
  | _ => .illegal

/-- The word in the slot of an issue, in the class of the slot (Table ISA-1): an all-zero word is a NOP, and an opcode of another class
is undefined there (R131, R162, R202). -/
def decodeSlot (i : Issue) (kind : Nat) (w : Word) : Decoded :=
  if w = 0#32 then .instr (.nop i)
  else match i.slot.toNat with
  | 0 => decodeP i w
  | 1 => decodeV i w
  | 2 => decodeS i w
  | _ => decodeM i kind w

/-- The command that a word spells by the bits of spec/opcode_table.json: no row of the table gives bits. The words of a core's
instructions are those of `decodeSlot`. -/
def decodeTableWord (_nbits _w : Nat) : Option Instr := none

end Sys2Proof
end

