-- ==== Sys2Proof/Config.lean ====
section
/-! DEFINITION. What an implementation fixes (fuses, straps, ROM tables) and the values the spec leaves open.
Each is a constant without a body: no proof can see its value. -/

namespace Sys2Proof.Config

/-- Table-unit function `f` at FP32 input `y` where Table ERR-2 gives only a bound: the ROM's bits (R116).
DESIGN CHOICE, log entry 3. -/
opaque tableUnit : Nat → Word → Word

/-- The bits of the NaN an FP32 operation gives where no operand is poison (R53 says only that it is a quiet NaN).
DESIGN CHOICE, log entry 4. -/
opaque nanBits : Word → Word → Word → Word

/-- The nth value the spec leaves open where a value is undefined; `State.freeCount` is the counter applied to it.
DESIGN CHOICE, log entry 2. -/
opaque freeValue : Nat → Dword

/-- The fuse or strap word behind the register at a BAR0 offset, for every reset value R11 writes "fuse" or "strap".
DESIGN CHOICE, log entry 6. -/
opaque fuse : Nat → Nat

/-- Hard-repair entries fused into a vault site at manufacturing test, for rows and for symbol columns, as (bank, row or column, spare)
(R275). DESIGN CHOICE, log entry 6. -/
opaque factoryRows : Nat → List (Nat × Nat × Nat)
opaque factoryCols : Nat → List (Nat × Nat × Nat)

/-- The ordered list of home pools that Dealer firmware keeps for a model and a tenant (R392). DESIGN CHOICE, log entry 9. -/
opaque homePools : Nat → Nat → List Nat

/-- A model's transit pool (R391). DESIGN CHOICE, log entry 9. -/
opaque transitPool : Nat → Nat

/-- The pool in which a team's plates are staged (SPOOL of Table PLT-4). DESIGN CHOICE, log entry 9. -/
opaque stagingPool : Nat → Nat

/-- The node pool in control-plane SRAM (R362): its first address, and how many nodes it holds. DESIGN CHOICE, log entry 8. -/
opaque nodeBase : Nat
opaque nodeCount : Nat

/-- Size of a model's vocabulary, against which output words are judged (R508). DESIGN CHOICE, log entry 9. -/
opaque vocab : Nat → Nat

/-- What the five trits of an invalid quint code read as (R31 poisons the tile and gives them no values): the valid code,
after reduction modulo 243, that it is decoded like. DESIGN CHOICE, log entry 13. -/
opaque badQuint : Byte → Byte

end Sys2Proof.Config
end

