-- ==== Sys2Proof/Machine/Bits.lean ====
section
/-! DEFINITION. Bit fields, sign extension, byte order and sparse tables: the helpers every meaning uses. -/

namespace Sys2Proof.Machine

/-- The field `[lo + len - 1 : lo]` of a number (R7's NAME[msb:lsb]). -/
def bitsOf (x lo len : Nat) : Nat := x / 2 ^ lo % 2 ^ len

/-- Bit `i` of a number. -/
def bitOf (x i : Nat) : Bool := x / 2 ^ i % 2 == 1

/-- The number whose field `[lo + len - 1 : lo]` is replaced by `v`. -/
def putBits (x lo len v : Nat) : Nat :=
  x - bitsOf x lo len * 2 ^ lo + v % 2 ^ len * 2 ^ lo

/-- A Boolean as a one-bit field. -/
def bit (b : Bool) : Nat := if b then 1 else 0

/-- Two's-complement reading of the low `w` bits of `x`. -/
def sext (x w : Nat) : Int :=
  let y := x % 2 ^ w
  if y < 2 ^ (w - 1) then (y : Int) else (y : Int) - (2 : Int) ^ w

/-- The low `w` bits of an integer, two's complement. -/
def wrap (x : Int) (w : Nat) : Nat := (x % (2 : Int) ^ w).toNat

/-- A little-endian list of bytes as a number (every multi-byte value of the spec is little-endian). -/
def leNat : List Byte → Nat
  | [] => 0
  | b :: bs => b.toNat + 256 * leNat bs

/-- The `n` low bytes of a number, least significant first. -/
def leBytes : Nat → Nat → List Byte
  | 0, _ => []
  | n + 1, x => BitVec.ofNat 8 x :: leBytes n (x / 256)

/-- `n` bytes of value zero. -/
def zeroBytes (n : Nat) : List Byte := List.replicate n 0#8

/-- Bytes `lo .. lo + len - 1` of a list as a number. -/
def leAt (bs : List Byte) (lo len : Nat) : Nat := leNat ((bs.drop lo).take len)

/-- Division rounded up. -/
def ceilDiv (a b : Nat) : Nat := (a + b - 1) / b

/-- Number of one bits among the low `n` bits of `x`. -/
def popcount : Nat → Nat → Nat
  | 0, _ => 0
  | n + 1, x => x % 2 + popcount n (x / 2)

/-- Positions of the one bits among the low `n` bits of `x`, ascending. -/
def onesOf (n x : Nat) : List Nat := (List.range n).filter (fun i => bitOf x i)

/-- Insert into a sorted list, before the first element that does not stand before it. -/
def insertBy {α : Type} (le : α → α → Bool) (a : α) : List α → List α
  | [] => [a]
  | b :: bs => if le a b then a :: b :: bs else b :: insertBy le a bs

/-- A list in the order of `le`, equal elements in the order they had. -/
def sortBy {α : Type} (le : α → α → Bool) : List α → List α
  | [] => []
  | a :: as => insertBy le a (sortBy le as)

section Table
variable {α : Type}

/-- Lookup in a sparse table; an absent key reads as the default. -/
def look (d : α) : List (Nat × α) → Nat → α
  | [], _ => d
  | (k, v) :: t, n => if k = n then v else look d t n

/-- Is the key listed? -/
def listed : List (Nat × α) → Nat → Bool
  | [], _ => false
  | (k, _) :: t, n => if k = n then true else listed t n

/-- Lookup that answers `none` on an absent key. -/
def find? : List (Nat × α) → Nat → Option α
  | [], _ => none
  | (k, v) :: t, n => if k = n then some v else find? t n

/-- Write one entry of a sparse table, keys kept ascending. -/
def put : List (Nat × α) → Nat → α → List (Nat × α)
  | [], n, v => [(n, v)]
  | (k, w) :: t, n, v =>
    if n < k then (n, v) :: (k, w) :: t
    else if n = k then (n, v) :: t
    else (k, w) :: put t n v

/-- Remove one entry of a sparse table. -/
def del : List (Nat × α) → Nat → List (Nat × α)
  | [], _ => []
  | (k, w) :: t, n => if k = n then del t n else (k, w) :: del t n

/-- Apply a function to one entry of a sparse table. -/
def upd (d : α) (t : List (Nat × α)) (n : Nat) (f : α → α) : List (Nat × α) :=
  put t n (f (look d t n))

/-- Element of a list with a default. -/
def nth (d : α) : List α → Nat → α
  | [], _ => d
  | x :: _, 0 => x
  | _ :: t, n + 1 => nth d t n

/-- A list with its element `n` replaced (unchanged when there is none). -/
def setNth : List α → Nat → α → List α
  | [], _, _ => []
  | _ :: t, 0, v => v :: t
  | x :: t, n + 1, v => x :: setNth t n v

/-- A list with a function applied to its element `n`. -/
def updNth : List α → Nat → (α → α) → List α
  | [], _, _ => []
  | x :: t, 0, f => f x :: t
  | x :: t, n + 1, f => x :: updNth t n f

end Table

end Sys2Proof.Machine
end

