-- ==== Sys2Proof/Machine/Num.lean ====
section
/-! DEFINITION. Exact arithmetic, the two roundings (R49, R94, R111), FP32 and BF16 (R53 to R56), poison (R59, R60). -/

namespace Sys2Proof.Machine

/-- How a value is rounded to an integer: to nearest with ties to even, or stipple with a 32-bit roll value (R94). -/
inductive Rounding where
  | nearest
  | stipple (u : Nat)
deriving DecidableEq, Repr

/-- `num / den` to the nearest integer, ties to even. -/
def roundEven (num : Int) (den : Nat) : Int :=
  let q := num / (den : Int)
  let r := num % (den : Int)
  if 2 * r < den then q
  else if (den : Int) < 2 * r then q + 1
  else if q % 2 = 0 then q else q + 1

/-- `num / den` rounded as R94's round(): stipple is floor(y + U / 2^32). -/
def roundQ (r : Rounding) (num : Int) (den : Nat) : Int :=
  match r with
  | .nearest => roundEven num den
  | .stipple u => (num * 2 ^ 32 + (u : Int) * den) / ((den : Int) * 2 ^ 32)

/-- Does rounding `num / den` to an integer discard nonzero bits? -/
def inexact (num : Int) (den : Nat) : Bool := num % (den : Int) ≠ 0

/-- An exact value `m × 2^e`. -/
structure Dyadic where
  m : Int
  e : Int
deriving DecidableEq, Repr

/-- The integer `m × 2^(e - b)` for `b ≤ e`. -/
def Dyadic.scaled (d : Dyadic) (b : Int) : Int := d.m * 2 ^ (d.e - b).toNat

/-- The exact sum of two values. -/
def Dyadic.plus (x y : Dyadic) : Dyadic :=
  let b := min x.e y.e
  ⟨x.scaled b + y.scaled b, b⟩

/-- `d / 2^l` as a fraction: numerator and denominator. -/
def Dyadic.over (d : Dyadic) (l : Int) : Int × Nat :=
  if l ≤ d.e then (d.scaled l, 1) else (d.m, 2 ^ (l - d.e).toNat)

/-! ## FP32 -/

/-- The poison NaN of FP32 (R59). -/
def poison32 : Word := 0x7FC10000#32

/-- The INT32 result of a poison operand (R60). -/
def poisonInt : Word := 0x80000000#32

/-- The largest finite FP32. -/
def maxFp32 : Word := 0x7F7FFFFF#32

/-- What an FP32 word stands for. -/
inductive Fp where
  | nan
  | inf (neg : Bool)
  | fin (neg : Bool) (m : Nat) (e : Int)
deriving DecidableEq, Repr

/-- Sign bit of an FP32 word. -/
def signOf (x : Word) : Bool := x.msb

/-- The reading of an FP32 word; subnormals are kept (R53). -/
def fpOf (x : Word) : Fp :=
  let n := x.toNat
  let ex := bitsOf n 23 8
  let fr := bitsOf n 0 23
  if ex = 255 then (if fr = 0 then .inf (signOf x) else .nan)
  else if ex = 0 then .fin (signOf x) fr (-149)
  else .fin (signOf x) (fr + 2 ^ 23) ((ex : Int) - 150)

def isNaN (x : Word) : Bool := fpOf x == .nan

/-- Infinite, either sign. -/
def isInf (x : Word) : Bool := bitsOf x.toNat 0 31 == 0x7F800000

def isPoison (x : Word) : Bool := x == poison32

/-- Signed zero. -/
def zeroFp (neg : Bool) : Word := if neg then 0x80000000#32 else 0#32

/-- Signed infinity. -/
def infFp (neg : Bool) : Word := if neg then 0xFF800000#32 else 0x7F800000#32

/-- Set the sign bit when asked. -/
def withSign (neg : Bool) (x : Word) : Word := if neg then x ||| 0x80000000#32 else x

/-- `± m × 2^e` rounded once to FP32, to nearest even, with subnormals and overflow to infinity (R53). -/
def roundFp (neg : Bool) (m : Nat) (e : Int) : Word :=
  if m = 0 then zeroFp neg
  else
    let q : Int := max (e + (m.log2 : Int) - 23) (-149)
    let mm : Nat :=
      if q ≤ e then m * 2 ^ (e - q).toNat else (roundEven (m : Int) (2 ^ (q - e).toNat)).toNat
    let (mm, q) := if mm = 2 ^ 24 then (2 ^ 23, q + 1) else (mm, q)
    if mm < 2 ^ 23 then withSign neg (BitVec.ofNat 32 mm)
    else
      let ex := (q + 150).toNat
      if 255 ≤ ex then infFp neg
      else withSign neg (BitVec.ofNat 32 (ex * 2 ^ 23 + (mm - 2 ^ 23)))

/-- An exact value rounded once to FP32; `negZero` is the sign an exact zero takes. -/
def dyadicFp (negZero : Bool) (d : Dyadic) : Word :=
  if d.m = 0 then zeroFp negZero else roundFp (d.m < 0) d.m.natAbs d.e

/-- The exact value of a finite reading. -/
def finDyadic (neg : Bool) (m : Nat) (e : Int) : Dyadic := ⟨if neg then -(m : Int) else (m : Int), e⟩

/-- The quiet NaN an operation without a poison operand gives (R53); its other bits are open (Config.nanBits). -/
def quietNaN (a b c : Word) : Word := Config.nanBits a b c ||| 0x7FC00000#32

/-- FP32 addition (R53); a poison operand gives poison (R60). -/
def fpAdd (a b : Word) : Word :=
  if isPoison a || isPoison b then poison32
  else
    match fpOf a, fpOf b with
    | .nan, _ => quietNaN a b 0#32
    | _, .nan => quietNaN a b 0#32
    | .inf s, .inf t => if s = t then infFp s else quietNaN a b 0#32
    | .inf s, .fin _ _ _ => infFp s
    | .fin _ _ _, .inf t => infFp t
    | .fin s m e, .fin t n f => dyadicFp (s && t) ((finDyadic s m e).plus (finDyadic t n f))

/-- Sign change of a word that is not poison. -/
def fpNeg (a : Word) : Word := if isPoison a then a else a ^^^ 0x80000000#32

/-- FP32 subtraction. -/
def fpSub (a b : Word) : Word := fpAdd a (fpNeg b)

/-- FP32 fused multiply-add with one rounding (R53, R192). -/
def fpFma (a b c : Word) : Word :=
  if isPoison a || isPoison b || isPoison c then poison32
  else
    match fpOf a, fpOf b, fpOf c with
    | .nan, _, _ => quietNaN a b c
    | _, .nan, _ => quietNaN a b c
    | _, _, .nan => quietNaN a b c
    | .fin s m e, .fin t n f, .fin u k g =>
      dyadicFp ((s != t) && u) (Dyadic.plus (finDyadic (s != t) (m * n) (e + f)) (finDyadic u k g))
    | .fin _ _ _, .fin _ _ _, .inf u => infFp u
    | .inf _, .fin _ 0 _, _ => quietNaN a b c
    | .fin _ 0 _, .inf _, _ => quietNaN a b c
    | _, _, .inf u => if (signOf a != signOf b) = u then infFp u else quietNaN a b c
    | _, _, .fin _ _ _ => infFp (signOf a != signOf b)

/-- FP32 multiplication (R53). -/
def fpMul (a b : Word) : Word :=
  if isPoison a || isPoison b then poison32
  else
    match fpOf a, fpOf b with
    | .nan, _ => quietNaN a b 0#32
    | _, .nan => quietNaN a b 0#32
    | .inf _, .fin _ 0 _ => quietNaN a b 0#32
    | .fin _ 0 _, .inf _ => quietNaN a b 0#32
    | .fin s m e, .fin t n f => roundFp (s != t) (m * n) (e + f)
    | _, _ => infFp (signOf a != signOf b)

/-- An order key for non-NaN FP32 words in which −0 is below +0 (R191). -/
def fpKey (x : Word) : Int :=
  if signOf x then -(bitsOf x.toNat 0 31 : Int) - 1 else (bitsOf x.toNat 0 31 : Int)

/-- An order key in which −0 equals +0 (comparisons, R192). -/
def fpCmpKey (x : Word) : Int :=
  if signOf x then -(bitsOf x.toNat 0 31 : Int) else (bitsOf x.toNat 0 31 : Int)

/-- VMAX and VMIN on FP32 (R191). -/
def fpMax (a b : Word) : Word :=
  if isPoison a || isPoison b then poison32
  else if isNaN a then a else if isNaN b then b
  else if fpKey a < fpKey b then b else a

def fpMin (a b : Word) : Word :=
  if isPoison a || isPoison b then poison32
  else if isNaN a then a else if isNaN b then b
  else if fpKey b < fpKey a then b else a

/-- FP32 to BF16, nearest even, as a 16-bit number (R56). -/
def bf16Of (x : Word) : Nat :=
  let n := x.toNat
  if isNaN x then bitsOf (x ||| 0x00400000#32).toNat 16 16
  else bitsOf (roundEven (n : Int) (2 ^ 16)).toNat 0 16

/-- BF16 to FP32, exact (R54). -/
def bf16Widen (b : Nat) : Word := BitVec.ofNat 32 (b % 2 ^ 16 * 2 ^ 16)

/-- A result rounded to BF16 and kept in lane bits [31:16] (R191). -/
def toBf16Lane (x : Word) : Word := bf16Widen (bf16Of x)

/-- The BF16 operand of a lane: bits [31:16], widened (R191). -/
def bf16Lane (x : Word) : Word := x &&& 0xFFFF0000#32

/-- FP32 to INT32: nearest even, saturating; NaN and poison give 0x8000_0000 (R55). -/
def fpToInt (x : Word) : Word :=
  match fpOf x with
  | .nan => poisonInt
  | .inf neg => if neg then 0x80000000#32 else 0x7FFFFFFF#32
  | .fin neg m e =>
    let (n, d) := (finDyadic neg m e).over 0
    let r := roundEven n d
    if r < -(2 ^ 31) then 0x80000000#32
    else if 2 ^ 31 - 1 < r then 0x7FFFFFFF#32
    else BitVec.ofInt 32 r

/-- INT32 to FP32, nearest even (R192, VCVT F 3). -/
def intToFp (x : Word) : Word := dyadicFp false ⟨x.toInt, 0⟩

/-! ## Table-unit functions (R116, Table ERR-2) -/

/-- The table-unit functions by their VFN code (Table ACC-5, R195). -/
inductive TableFn where
  | relu | silu | geluTanh | sigmoid | exp | softplus | ln | rcp | rsqrt
deriving DecidableEq, Repr

/-- Codes of Table ACC-5 and R195; the rest are invalid. -/
def tableFnOf : Nat → Option TableFn
  | 1 => some .relu
  | 2 => some .silu
  | 3 => some .geluTanh
  | 4 => some .sigmoid
  | 5 => some .exp
  | 6 => some .softplus
  | 8 => some .ln
  | 9 => some .rcp
  | 10 => some .rsqrt
  | _ => none

/-- The code under which the ROM bits of a function are named. -/
def tableFnCode : TableFn → Nat
  | .relu => 1
  | .silu => 2
  | .geluTanh => 3
  | .sigmoid => 4
  | .exp => 5
  | .softplus => 6
  | .ln => 8
  | .rcp => 9
  | .rsqrt => 10

end Sys2Proof.Machine
end

