-- ==== Sys2Proof/Machine/Format.lean ====
section
/-! DEFINITION. Trits, quints, wide weights, etch blocks and the outlier path ("Trits, quints and etch blocks", R25 to R63). -/

namespace Sys2Proof.Machine

/-! ## Trits and quints -/

/-- The trit of a 2-bit code (Table FMT-1); `none` for the invalid code 0b10. -/
def tritOf (code : Nat) : Option Int :=
  if code = 0 then some 0 else if code = 1 then some 1 else if code = 3 then some (-1) else none

/-- The 2-bit code of a trit. -/
def tritCode (t : Int) : Nat := if t = 0 then 0 else if 0 < t then 1 else 3

/-- Is a byte a valid quint (R28)? -/
def quintOk (q : Byte) : Bool := q.toNat < 243

/-- Trit `i` of a quint (R28); the trits of an invalid code are free. -/
def quintTrit (q : Byte) (i : Nat) : Int :=
  let v := if quintOk q then q.toNat else (Config.badQuint q).toNat % 243
  ((v / 3 ^ i % 3 : Nat) : Int) - 1

/-- A weight tile as the plane engine holds it (R25, R65): mask bit `o * 32 + i` of P and of N. -/
structure Tile where
  pos : BitVec 2048
  neg : BitVec 2048
  poison : Bool
deriving DecidableEq, Repr

def Tile.zero : Tile := ⟨0#2048, 0#2048, false⟩

/-- The mask of the elements whose trit has the given sign. -/
def maskOf (ts : List Int) (sign : Int) : Nat :=
  ts.foldr (fun t acc => bit (t == sign) + 2 * acc) 0

/-- A tile from its 2,048 trits in the order of R29. -/
def tileOfTrits (ts : List Int) : Tile :=
  ⟨BitVec.ofNat 2048 (maskOf ts 1), BitVec.ofNat 2048 (maskOf ts (-1)), false⟩

/-- Plain tile: 410 quints (R29); padding ignored (R30); an invalid quint poisons the tile (R31). -/
def tileOfQuints (bs : List Byte) (bad : Bool) : Tile :=
  let ts := (bs.flatMap (fun q => (List.range 5).map (quintTrit q))).take 2048
  { tileOfTrits ts with poison := bad || !bs.all quintOk }

/-- Wide-weight tile: one weight per byte, trit position `tpos` of each (R34, R79). -/
def tileOfWide (bs : List Byte) (tpos : Nat) (bad : Bool) : Tile :=
  { tileOfTrits (bs.map (fun q => quintTrit q tpos)) with poison := bad || !bs.all quintOk }

/-- The trit codes of a run of trit-pair bytes, four to a byte (R26). -/
def tritCodes (bs : List Byte) : List Nat :=
  bs.flatMap (fun b => (List.range 4).map (fun j => bitsOf b.toNat (2 * j) 2))

/-- TLDM's tile (R171): tile order or input-major; `none` when a position holds 0b10 (R172). -/
def tileOfPairs (bs : List Byte) (inputMajor : Bool) : Option Tile :=
  let cs := tritCodes bs
  if cs.any (fun c => c == 2) then none
  else
    let ts := cs.map (fun c => (tritOf c).getD 0)
    let order := if inputMajor then
        (List.range 64).flatMap (fun o => (List.range 32).map (fun i => nth 0 ts (i * 64 + o)))
      else ts
    some (tileOfTrits order)

/-- The trit of input `i`, output `o` of a tile. -/
def Tile.trit (t : Tile) (i o : Nat) : Int :=
  (bit (t.pos.getLsbD (o * 32 + i)) : Int) - (bit (t.neg.getLsbD (o * 32 + i)) : Int)

/-! ## Etch blocks -/

/-- Largest level magnitude (R42). -/
def qmax (w : Nat) : Nat := if w ≤ 2 then 2 ^ w - 1 else 2 ^ (w - 1) - 1

/-- The exponent of a block's step S (Table FMT-3): S = 2^(E8 − 127), or 2^(E8 − 128) at w = 1 and 2. -/
def stepExp (w e8 : Nat) : Int := (e8 : Int) - (if w ≤ 2 then 128 else 127)

/-- Bytes of a full block (R36) and of a compact block (R38). -/
def fullBytes (w : Nat) : Nat := 4 + 4 * w
def compactBytes (w : Nat) : Nat := 1 + 4 * w
def blockBytes (w : Nat) (compact : Bool) : Nat := if compact then compactBytes w else fullBytes w

/-- An etch block as read: header fields (Table FMT-2) and lane codes (R37). -/
structure Block where
  e8 : Nat
  outLane : Nat
  outValid : Bool
  outVal : Nat
  codes : List Nat
deriving DecidableEq, Repr

/-- Read a block's bytes. -/
def readBlock (w : Nat) (compact : Bool) (bs : List Byte) : Block :=
  let h := leNat (bs.take (if compact then 1 else 4))
  let p := leNat (bs.drop (if compact then 1 else 4))
  { e8 := bitsOf h 0 8
    outLane := if compact then 0 else bitsOf h 8 5
    outValid := !compact && bitOf h 13
    outVal := if compact then 0 else bitsOf h 16 16
    codes := (List.range 32).map (fun i => bitsOf p (i * w) w) }

/-- Is a BF16 value NaN or infinite? -/
def bf16NonFinite (b : Nat) : Bool := bitsOf b 7 8 == 255

/-- A block read as poison: the poison code (R39), or a slot value that is NaN or infinite (R58).
A zero block's slot is ignored (R39, R57). -/
def Block.isPoison (b : Block) : Bool :=
  b.e8 == 255 || (b.e8 != 0 && b.outValid && bf16NonFinite b.outVal)

/-- The integer level of a lane code: q for w ≥ 3 (R41), L = 2c − (2^w − 1) for w = 1 and 2 (R42). -/
def levelOf (w c : Nat) : Int := if w ≤ 2 then 2 * (c : Int) - (2 ^ w - 1) else sext c w

/-- The lane code of a level. -/
def codeOf (w : Nat) (l : Int) : Nat := if w ≤ 2 then ((l + (2 ^ w - 1)) / 2).toNat else wrap l w

/-- One entry of an overflow list (Table FMT-6). -/
structure OvfEntry where
  val : Nat
  lane : Nat
  block : Nat
deriving DecidableEq, Repr

/-- The order key of an overflow entry: block, then lane (R46). -/
def OvfEntry.key (e : OvfEntry) : Nat := e.block * 32 + e.lane

/-- COUNT of a list header (Table FMT-5). -/
def ovfCount (hdr : List Byte) : Nat := bitsOf (leNat (hdr.take 8)) 0 7

/-- FULL of a list header. -/
def ovfFull (hdr : List Byte) : Bool := bitOf (leNat (hdr.take 8)) 7

/-- The 8 bytes of an entry read. -/
def ovfEntryOf (bs : List Byte) : OvfEntry :=
  let n := leNat (bs.take 8)
  ⟨bitsOf n 0 16, bitsOf n 16 5, bitsOf n 32 32⟩

/-- The first `n` entries after a list's header. -/
def ovfEntries : Nat → List Byte → List OvfEntry
  | 0, _ => []
  | n + 1, bs => ovfEntryOf bs :: ovfEntries n (bs.drop 8)

/-- The 8 bytes of an entry written. -/
def ovfBytes (e : OvfEntry) : List Byte :=
  leBytes 8 (e.val % 2 ^ 16 + e.lane % 32 * 2 ^ 16 + e.block % 2 ^ 32 * 2 ^ 32)

/-- Strictly ascending list of numbers. -/
def strictlyRising : List Nat → Bool
  | [] => true
  | [_] => true
  | a :: b :: t => a < b && strictlyRising (b :: t)

/-- An overflow list read with the checks of R47 that need no block header: `none` is FMT_CODE. -/
def readOvfList (bs : List Byte) : Option (List OvfEntry) :=
  let n := ovfCount bs
  if 64 < n then none
  else
    let es := ovfEntries n (bs.drop 8)
    if strictlyRising (es.map OvfEntry.key) then some es else none

/-- A channel list read with the checks of R45: `none` is FMT_CODE. -/
def readChanList (bs : List Byte) (channels : Nat) : Option (List Nat) :=
  let n := leAt bs 0 2
  if 64 < n then none
  else
    let cs := (List.range n).map (fun i => leAt bs (2 + 2 * i) 2)
    if strictlyRising cs && cs.all (fun c => decide (c < channels)) then some cs else none

/-- The format events of R63, one counter each. -/
structure FmtEvents where
  ufl : Nat := 0
  sat : Nat := 0
  ovf : Nat := 0
  poison : Nat := 0
  /-- POISON set without a counted event (R58). -/
  poisonRead : Bool := false
deriving DecidableEq, Repr

def FmtEvents.add (a b : FmtEvents) : FmtEvents :=
  ⟨a.ufl + b.ufl, a.sat + b.sat, a.ovf + b.ovf, a.poison + b.poison, a.poisonRead || b.poisonRead⟩

/-- The FP32 value of a lane at its step; a value beyond the largest finite FP32 clamps, with SAT (R57). -/
def laneValue (w e8 c : Nat) : Word × Nat :=
  let l := levelOf w c
  let r := roundFp (l < 0) l.natAbs (stepExp w e8)
  if isInf r then (withSign (l < 0) maxFp32, 1) else (r, 0)

/-- Decode a block to 32 FP32 lanes with the overflow entries of that block (R57 to R59). A lane of code 0 at w = 1 and 2 is the level
-(2^w - 1) of R42, a channel-list lane too, of which R198 says that it decodes to 0: DESIGN CHOICE, log entry 136. -/
def decodeBlock (w : Nat) (b : Block) (es : List OvfEntry) : List Word × FmtEvents :=
  if b.isPoison || es.any (fun e => bf16NonFinite e.val) then
    (List.replicate 32 poison32, { poisonRead := b.e8 != 255 })
  else
    let lanes := (List.range 32).map (fun i =>
      match es.find? (fun e => e.lane == i) with
      | some e =>
        if b.e8 != 0 && b.outValid && b.outLane == i then (bf16Widen b.outVal, 0)
        else (bf16Widen e.val, 0)
      | none =>
        if b.e8 == 0 then (0#32, 0)
        else if b.outValid && b.outLane == i then (bf16Widen b.outVal, 0)
        else laneValue w b.e8 (nth 0 b.codes i))
    (lanes.map Prod.fst, { sat := (lanes.map Prod.snd).sum })

/-! ## The encoder (R48 to R51) -/

/-- A finite magnitude in units of 2^−149. -/
def magUnits (x : Word) : Nat :=
  match fpOf x with
  | .fin _ m e => m * 2 ^ (e + 149).toNat
  | _ => 0

/-- The step S(E) in units of 2^−149. -/
def stepUnits (w e8 : Nat) : Nat := 2 ^ (stepExp w e8 + 149).toNat

/-- `(lane, magnitude)` inserted into a list sorted by descending magnitude, ties by lower lane first. -/
def insertMag (p : Nat × Nat) : List (Nat × Nat) → List (Nat × Nat)
  | [] => [p]
  | q :: t => if q.2 < p.2 then p :: q :: t else q :: insertMag p t

/-- Lanes sorted by descending magnitude, ties by lower lane first. -/
def sortMags (l : List (Nat × Nat)) : List (Nat × Nat) := l.foldl (fun acc p => insertMag p acc) []

/-- The BF16 of an outlier; an infinite rounding becomes the largest finite value with SAT (R50). -/
def outlierVal (x : Word) : Nat × Nat :=
  let b := bf16Of x
  if bf16NonFinite b then ((if signOf x then 0xFF7F else 0x7F7F), 1) else (b, 0)

/-- What encoding one block gives: its bytes, the entries to append in order, whether the list was found full,
and the events. -/
structure Encoded where
  bytes : List Byte
  entries : List OvfEntry
  full : Bool
  ev : FmtEvents
deriving DecidableEq, Repr

/-- Smallest code E in 0x01..0xFE with A ≤ Qmax × S(E), else 0xFE (R48). -/
def pickExp (w a : Nat) (anyInf : Bool) : Nat :=
  if anyInf then 254
  else
    match (List.range 254).find? (fun i => decide (a ≤ qmax w * stepUnits w (i + 1))) with
    | some i => i + 1
    | none => 254

/-- The code of one body lane (R48, R49, R112) and whether it saturated. -/
def laneCode (w e8 : Nat) (x : Word) (r : Rounding) : Nat × Nat :=
  let s := stepUnits w e8
  let big := isInf x || decide (qmax w * s < magUnits x)
  let v : Int := if signOf x then -(magUnits x : Int) else (magUnits x : Int)
  if big then (codeOf w (if signOf x then -(qmax w : Int) else (qmax w : Int)), 1)
  else if w ≤ 2 then
    let c := roundQ r (v + (2 ^ w - 1) * s) (2 * s)
    ((max 0 (min c (2 ^ w - 1))).toNat, 0)
  else (codeOf w (roundQ r v s), 0)

/-- The payload of 32 lane codes (R37). -/
def payloadOf (w : Nat) (codes : List Nat) : Nat := codes.foldr (fun c acc => c % 2 ^ w + 2 ^ w * acc) 0

/-- Encode one block (R48, R51). `chan` marks channel-list lanes, `room` is how many entries the overflow list can
still take, `roll` gives the rounding of each lane. -/
def encodeBlock (w outShift : Nat) (compact : Bool) (blk room : Nat) (xs : List Word) (chan : Nat → Bool)
    (roll : Nat → Rounding) : Encoded :=
  let hd := fun (e8 slotLane : Nat) (slotOn : Bool) (slotVal : Nat) =>
    if compact then leBytes 1 e8
    else leBytes 4 (e8 + slotLane * 2 ^ 8 + bit slotOn * 2 ^ 13 + slotVal * 2 ^ 16)
  let none4 := hd 0 0 false 0 ++ zeroBytes (4 * w)
  if xs.any isNaN then
    ⟨hd 255 0 false 0 ++ zeroBytes (4 * w), [], false, { poison := 1 }⟩
  else
    let body := (List.range 32).filter (fun i => compact || !chan i)
    let x := fun i => nth 0#32 xs i
    let mags := sortMags ((body.filter (fun i => !isInf (x i))).map (fun i => (i, magUnits (x i))))
    let ref := (nth (0, 0) mags 4).2
    let outl := if compact then [] else
      (mags.filter (fun p => decide (2 ^ outShift * ref < p.2) && decide (0 < p.2))).take 4
    let slot := (outl.head?).map Prod.fst
    let rest := (List.range 32).filter (fun i => (outl.drop 1).any (fun p => p.1 == i))
    let kept := rest.take room
    let clipped := rest.drop room
    let inBody := body.filter (fun i => !(slot == some i) && !kept.contains i)
    let scaled := inBody.filter (fun i => !clipped.contains i)
    let anyInf := scaled.any (fun i => isInf (x i))
    let a := (scaled.map (fun i => magUnits (x i))).foldl max 0
    let keptAny := slot.isSome || !kept.isEmpty
    let evOvf : FmtEvents := { ovf := clipped.length }
    if !anyInf && a == 0 && clipped.isEmpty && !keptAny then ⟨none4, [], false, {}⟩
    else if !anyInf && decide (a ≤ 2 ^ 22) && decide (0 < a) && clipped.isEmpty && !keptAny then
      ⟨none4, [], false, { ufl := 1 }⟩
    else
      let e8 := pickExp w a anyInf
      let coded := (List.range 32).map (fun i =>
        if inBody.contains i then laneCode w e8 (x i) (roll i) else (0, 0))
      let slotV := match slot with
        | some i => outlierVal (x i)
        | none => (0, 0)
      let ents := kept.map (fun i => (i, outlierVal (x i)))
      ⟨hd e8 (slot.getD 0) slot.isSome slotV.1 ++ leBytes (4 * w) (payloadOf w (coded.map Prod.fst)),
        ents.map (fun p => ⟨p.2.1, p.1, blk⟩), !clipped.isEmpty,
        evOvf.add { sat := (coded.map Prod.snd).sum + slotV.2 + (ents.map (fun p => p.2.2)).sum }⟩

/-! ## The dice bank (R119, R120) -/

/-- One of the ten rounds of the permutation; the pair is (hi, lo). -/
def diceRound (key : Nat) (i : Nat) (hl : Nat × Nat) : Nat × Nat :=
  let k := (bitsOf key (32 * (i % 4)) 32 + i * 0x6C8E9CF5) % 2 ^ 32
  let t := ((hl.2 ^^^ k) * 0x2B5AD3C5) % 2 ^ 32
  let t := t ^^^ (t / 2 ^ 15)
  (hl.2, hl.1 ^^^ t)

/-- The permutation P(K, x) of R119. -/
def diceP (key x : Nat) : Nat :=
  let hl := (List.range 10).foldl (fun hl i => diceRound key i hl) (x / 2 ^ 32 % 2 ^ 32, x % 2 ^ 32)
  hl.1 * 2 ^ 32 + hl.2

/-- The roll value of R120: seed, team turn counter, team rank, roll ID and counter. -/
def rollValue (seed turn rank roll n : Nat) : Nat :=
  let h0 := diceP seed (turn % 2 ^ 64)
  let h1 := diceP seed (2 ^ 63 + rank * 2 ^ 16 + roll)
  diceP (h1 * 2 ^ 64 + h0) (roll * 2 ^ 48 + n % 2 ^ 48) % 2 ^ 32

end Sys2Proof.Machine
end

