-- ==== Sys2Proof/Machine/Burin.lean ====
section
/-! DEFINITION. Coded blocks of the Burin: delta-coded tiles (R313 to R318) and exponent-only value blocks (R319 to R323). -/

namespace Sys2Proof.Machine

/-! ## Bit streams read from bit 7 of each byte down (R317, R319) -/

/-- The bits of bytes, bit 7 of each byte first. -/
def bitsMsb (bs : List Byte) : List Bool :=
  bs.flatMap (fun b => (List.range 8).map (fun k => b.getLsbD (7 - k)))

/-- The number of one-bits before the next zero-bit, and the bits after that zero-bit. -/
def readOnes : List Bool → Option (Nat × List Bool)
  | [] => none
  | false :: t => some (0, t)
  | true :: t => (readOnes t).map (fun p => (p.1 + 1, p.2))

/-- The next `n` bits, most significant first. -/
def readBits : Nat → List Bool → Option (Nat × List Bool)
  | 0, l => some (0, l)
  | _ + 1, [] => none
  | n + 1, b :: t => (readBits n t).map (fun p => (bit b * 2 ^ n + p.1, p.2))

/-- `n` bits of a number, most significant first. -/
def writeBits : Nat → Nat → List Bool
  | 0, _ => []
  | n + 1, x => bitOf x n :: writeBits n x

/-- Bits packed into bytes from bit 7 down, zero padding. -/
def packMsb : Nat → List Bool → List Byte
  | 0, _ => []
  | n + 1, l =>
    BitVec.ofNat 8 ((List.range 8).foldl (fun acc k => 2 * acc + bit (nth false l k)) 0) :: packMsb n (l.drop 8)

/-! ## Block headers (R313) -/

def blkKind (h : List Byte) : Nat := bitsOf (leAt h 0 1) 0 4
def blkTable (h : List Byte) : Nat := bitsOf (leAt h 0 1) 4 3
def blkPos (h : List Byte) : Bool := bitOf (leAt h 0 1) 7
def deltaNchg (h : List Byte) : Nat := leAt h 2 2
def deltaBase (h : List Byte) : Nat := leAt h 4 3
def deltaLen (h : List Byte) : Nat := leAt h 8 2

/-! ## Delta coding (R317, R318) -/

/-- rot: −1 → 0, 0 → +1, +1 → −1. -/
def rot (t : Int) : Int := if t = -1 then 0 else if t = 0 then 1 else -1

/-- Tile trit of a scan position (R317). -/
def scanTrit (inputMajor : Bool) (s : Nat) : Nat := if inputMajor then s % 64 * 32 + s / 64 else s

/-- Apply `n` changes; `none` when the stream ends early or a position passes 2,047 (R316). `next` is the scan position after
the last change. -/
def applyDelta (r : Nat) (pos : Bool) : Nat → Nat → List Bool → List Int → Option (List Int)
  | 0, _, _, ts => some ts
  | n + 1, next, bits, ts =>
    match readOnes bits with
    | none => none
    | some (q, b1) =>
      match readBits r b1 with
      | none => none
      | some (lo, b2) =>
        match b2 with
        | [] => none
        | rb :: b3 =>
          let s := next + q * 2 ^ r + lo
          if 2047 < s then none
          else
            let j := scanTrit pos s
            let b := nth 0 ts j
            applyDelta r pos n (s + 1) b3 (setNth ts j (if rb then rot (rot b) else rot b))

/-- The tile of a coded block (R313, R316): its bytes from the header on, and the base tile's 410 quints. A media error
poisons the tile. -/
def tileOfCoded (blk base : List Byte) (bad : Bool) : Tile × Bool :=
  if blkKind blk = 0 then
    let qs := (blk.drop 2).take 410
    (tileOfQuints qs bad, bad || !qs.all quintOk)
  else if blkKind blk = 2 then
    let n := deltaNchg blk
    let trits := (base.flatMap (fun q => (List.range 5).map (quintTrit q))).take 2048
    let changed := if 2048 < n then none
      else applyDelta (blkTable blk) (blkPos blk) n 0 (bitsMsb ((blk.take (deltaLen blk)).drop 12)) trits
    match changed with
    | some ts => ({ tileOfTrits ts with poison := bad || !base.all quintOk }, bad || !base.all quintOk)
    | none => ({ Tile.zero with poison := true }, true)
  else ({ Tile.zero with poison := true }, true)

/-! ## Exponent-only coding (R319 to R322) -/

/-- Code lengths of the eight exponent tables (Table BUR-4): symbols d = 0 to 14, then ESC. -/
def expLens (tab : Nat) : List Nat :=
  nth [] [[4,4,4,4,4,4,4,4,4,4,4,4,4,4,4,4],
          [2,2,3,3,4,5,6,6,6,6,6,6,6,6,6,6],
          [3,3,3,3,3,4,4,4,4,6,6,6,6,6,6,5],
          [1,2,3,4,5,6,7,8,9,10,11,12,13,14,15,15],
          [1,3,3,4,4,5,5,6,6,7,7,8,8,9,9,8],
          [3,3,3,3,4,4,4,4,5,5,5,5,5,5,5,5],
          [2,2,3,3,4,5,5,6,6,7,7,8,8,8,8,4],
          [2,2,3,4,4,4,5,5,6,6,6,6,6,6,6,6]] tab

/-- Symbols in canonical order: by length, and within one length d = 0 to 14 and then ESC (R321). -/
def expOrder (tab : Nat) : List (Nat × Nat) :=
  (List.range 16).flatMap (fun len =>
    (List.range 16).filterMap (fun sym => if nth 0 (expLens tab) sym = len then some (sym, len) else none))

/-- Assign canonical codes: `(symbol, length, code)` (R321). -/
def canonical : Nat → Nat → List (Nat × Nat) → List (Nat × Nat × Nat)
  | _, _, [] => []
  | code, len, (sym, l) :: t =>
    let c := code * 2 ^ (l - len)
    (sym, l, c) :: canonical (c + 1) l t

/-- The codes of a table: the first symbol takes the code of all zeros. -/
def expCodes (tab : Nat) : List (Nat × Nat × Nat) :=
  match expOrder tab with
  | [] => []
  | (sym, l) :: t => (sym, l, 0) :: canonical 1 l t

/-- The bits of a symbol's code. -/
def symBits (tab sym : Nat) : List Bool :=
  match (expCodes tab).find? (fun p => p.1 == sym) with
  | some (_, l, c) => writeBits l c
  | none => []

/-- Read one symbol. -/
def readSym (tab : Nat) (bits : List Bool) : Option (Nat × List Bool) :=
  (expCodes tab).findSome? (fun p =>
    match readBits p.2.1 bits with
    | some (v, t) => if v = p.2.2 then some (p.1, t) else none
    | none => none)

/-- Value formats of a value block: 1 BF16, 2 FP16, 3 FP32 (Tables BUR-1, BUR-8). -/
def valBytes (fmt : Nat) : Nat := if fmt = 3 then 4 else 2
def expBits (fmt : Nat) : Nat := if fmt = 2 then 5 else 8
def fracBits (fmt : Nat) : Nat := if fmt = 1 then 7 else if fmt = 2 then 10 else 23
def residualBytes (fmt : Nat) : Nat := if fmt = 1 then 256 else if fmt = 2 then 352 else 768
def rawBytes (fmt : Nat) : Nat := 256 * valBytes fmt

/-- Exponent field of a value. -/
def valExp (fmt x : Nat) : Nat := bitsOf x (fracBits fmt) (expBits fmt)

/-- Residual field of a value: sign above the significand bits (R319). -/
def valResid (fmt x : Nat) : Nat :=
  bitsOf x 0 (fracBits fmt) + bitsOf x (fracBits fmt + expBits fmt) 1 * 2 ^ fracBits fmt

/-- A value from its exponent and residual. -/
def valOf (fmt e r : Nat) : Nat :=
  bitsOf r 0 (fracBits fmt) + e * 2 ^ fracBits fmt + bitsOf r (fracBits fmt) 1 * 2 ^ (fracBits fmt + expBits fmt)

/-- The values of raw bytes. -/
def valsOf (fmt : Nat) : Nat → List Byte → List Nat
  | 0, _ => []
  | n + 1, bs => leNat (bs.take (valBytes fmt)) :: valsOf fmt n (bs.drop (valBytes fmt))

/-- The exponent code stream of a block's values (R320). -/
def expStream (tab fmt eb : Nat) (vs : List Nat) : List Bool :=
  vs.flatMap (fun x =>
    let e := valExp fmt x
    if eb - e ≤ 14 then symBits tab (eb - e) else symBits tab 15 ++ writeBits (expBits fmt) e)

/-- Residual fields packed from bit 0 upward (R319). -/
def residuals (fmt : Nat) (vs : List Nat) : List Byte :=
  leBytes (residualBytes fmt) (vs.foldr (fun x acc => valResid fmt x + 2 ^ (fracBits fmt + 1) * acc) 0)

/-- The coded block of 256 values, and whether it is RAW (R322). -/
def encodeValues (tab fmt : Nat) (raw : List Byte) : List Byte × Bool :=
  let vs := valsOf fmt 256 raw
  let eb := (vs.map (valExp fmt)).foldl max 0
  let bits := expStream tab fmt eb vs
  let xlen := ceilDiv bits.length 8
  if 4 + residualBytes fmt + xlen < 2 + rawBytes fmt then
    (leBytes 1 (1 + tab * 16) ++ leBytes 1 eb ++ leBytes 2 xlen ++ residuals fmt vs ++ packMsb xlen bits, false)
  else (zeroBytes 2 ++ raw.take (rawBytes fmt), true)

/-- Decode `n` exponents; `none` when the stream ends early. -/
def decodeExps (tab fmt eb : Nat) : Nat → List Bool → Option (List Nat × List Bool)
  | 0, bits => some ([], bits)
  | n + 1, bits =>
    match readSym tab bits with
    | none => none
    | some (sym, t) =>
      if sym = 15 then
        match readBits (expBits fmt) t with
        | none => none
        | some (e, t') => (decodeExps tab fmt eb n t').map (fun p => (e :: p.1, p.2))
      else (decodeExps tab fmt eb n t).map (fun p => ((eb - sym) :: p.1, p.2))

/-- The raw bytes of a coded value block of `len` bytes; `none` when it is malformed (R323). -/
def decodeValues (fmt : Nat) (blk : List Byte) (len : Nat) : Option (List Byte) :=
  if blkKind blk = 0 then
    if len = 2 + rawBytes fmt then some ((blk.drop 2).take (rawBytes fmt)) else none
  else if blkKind blk = 1 then
    let r := residualBytes fmt
    let xlen := leAt blk 2 2
    if len ≠ 4 + r + xlen then none
    else
      match decodeExps (blkTable blk) fmt (leAt blk 1 1) 256 (bitsMsb ((blk.drop (4 + r)).take xlen)) with
      | none => none
      | some (es, rest) =>
        if rest.any (fun b => b) then none
        else
          let rs := leAt blk 4 r
          some ((List.range 256).flatMap (fun k =>
            leBytes (valBytes fmt) (valOf fmt (nth 0 es k) (bitsOf rs (k * (fracBits fmt + 1)) (fracBits fmt + 1)))))
  else none

end Sys2Proof.Machine
end

