-- ==== Sys2Proof/Machine/FabricState.lean ====
section
/-! DEFINITION. The Nganov fabric's state: transactions outstanding, tags on hold, held reads, ports; and what the device puts
out (R423 to R459). -/

namespace Sys2Proof.Machine

/-- Who issued a request: a DMA descriptor, a plate (request slot, key, what for), the Dealer, or the COPY of a requester. -/
inductive TxOwner where
  | dma (core q idx : Nat)
  | plate (seq key : Nat) (use : PlateUse)
  | dealer
  | copyFor (src tag cls : Nat)
deriving DecidableEq, Repr

/-- A request of this device, in issue order: `op` of Table NGV-6, `sent` false while no tag is free (R436), `off` the offset of
its bytes in its owner's transfer, `done` its response's status, `got` the bytes a READ returned. -/
structure FabTx where
  op : Nat
  hdr : Hdr
  owner : TxOwner
  off : Nat
  sent : Bool
  done : Option Status
  got : List Byte
deriving DecidableEq, Repr

/-- A flit as a port holds it (Table NGV-3): KIND (0 IDLE, 1 TX_FIRST, 2 TX_CONT, 3 LINK), CLASS and the 60 bytes of PAYLOAD. ACKINC and CRC
are set as it leaves. -/
structure Flit where
  kind : Nat
  cls : Nat
  payload : List Byte
deriving DecidableEq, Repr

/-- One Nganov port (R427 to R432, R456 to R458): next sequence number to send and to receive, oldest unacknowledged, the flit
replayed last and how often, receive-side discarding, per class the flits that wait, how many were sent and how many freed by the partner, lanes
the partner can use, trainings so far, sequenced flits taken since the last report, the tick at which the port went down; of R431 and R432, the
freed counts that the last CREDIT record told, the flit slots since it, the class whose turn it is with the flits of its weight sent; of R424,
each lane's last codeword count, the codewords of rounds that are not whole (round, lane, carries flits, its flits), the flits of the last whole
round, and the flits that the port has sent since its lanes came up; of R428, the replay buffer, oldest flit first, and how many of its newest
flits are still to be sent again; per class the bytes of the transaction that is arriving (R433); the stamp of the ECHO that is under way. -/
structure Port where
  txSeq : Nat := 0
  acked : Nat := 0
  rxSeq : Nat := 0
  replayed : Nat := 0
  replays : Nat := 0
  discarding : Bool := false
  waiting : List (List Flit) := [[], [], [], []]
  sent : List Nat := [0, 0, 0, 0]
  freed : List Nat := [0, 0, 0, 0]
  rxFreed : List Nat := [0, 0, 0, 0]
  peerLanes : Nat := 0
  trained : Nat := 0
  unreported : Nat := 0
  downTick : Nat := 0
  told : List Nat := [0, 0, 0, 0]
  slots : Nat := 0
  turn : Nat × Nat := (0, 0)
  lastRound : List (Nat × Nat) := []
  rounds : List (Nat × Nat × Bool × List (BitVec 512)) := []
  placed : List (Nat × Nat × Nat) := []
  txFlits : Nat := 0
  kept : List Flit := []
  resend : Nat := 0
  arriving : List (List Byte) := [[], [], [], []]
  echoOut : Option Nat := none
deriving DecidableEq, Repr

/-- The fabric engine: requests of this device, timed-out tags on hold (`true`: a READ tag), READs of apertures held for their
result (R447), this device's own among them, ports. -/
structure Fabric where
  outs : List FabTx := []
  held : List (Bool × Nat) := []
  heldReads : List Hdr := []
  ports : List (Nat × Port) := []
deriving DecidableEq, Repr

/-- What the device puts out on an interface: a transaction that its port takes over, a link record that takes its slot and each flit as it leaves,
in slot `slot` of the codeword with header `header` (R424, R427); a message-signalled interrupt or a
record on a host ring, the completion of a host read, a frame on a Uhloc chain, a packet of the management interface, the
level of a pin, a Dealer control message to a device, the turn of a team that the lead of a slice sends a device (R404). -/
inductive Out where
  | tx (port op : Nat) (hdr : Hdr)
  | link (port code value : Nat)
  | flit (port header slot : Nat) (bytes : List Byte)
  | msi (fn vector : Nat)
  | record (fn ring : Nat) (bytes : List Byte)
  | read (fn : Nat) (status : Status) (bytes : List Byte) (poisoned : Bool)
  | frame (chain : Nat) (code value : Nat)
  | mgmt (code value : Nat)
  | pin (name value : Nat)
  | ctrl (dst kind value : Nat)
  | turn (dst team : Nat) (t : LeadTurn)
deriving DecidableEq, Repr

end Sys2Proof.Machine
end

