-- ==== Sys2Proof/Machine/HostState.lean ====
section
/-! DEFINITION. The host interface, the determinism rings, the management plane and the clocks: what they hold beside their
registers. -/

namespace Sys2Proof.Machine

/-- A function of the PCIe endpoint (R535, R543, R545, R547): records that wait, as (ring, bytes); per MSI-X vector 0 and 1 the
records since its last message; Bus Master Enable; the held half of a two-access register access (R10) as (offset, low
word), for a write and for a read's high word; and the words of its MSI-X table by BAR2 offset. -/
structure Fn where
  deferred : List (Nat × List Byte) := []
  irq : List Nat := [0, 0]
  busMaster : Bool := false
  held : Option (Nat × Nat) := none
  latch : Option (Nat × Nat) := none
  msix : List (Nat × Nat) := []
deriving DecidableEq, Repr

/-- The endpoint (R534, R538, R548, R610): functions, configuration-space bytes written as (function, offset, value), VF Enable, the
size of the PF's BAR4 as a power of two, PERST# asserted, and the GDDR accesses through BAR4 that wait for the retrains of a wake
(R306), as (address, BAR offset, length, the bytes of a write). -/
structure HostIf where
  fns : List (Nat × Fn) := []
  config : List (Nat × Nat × Nat) := []
  vfEnable : Bool := false
  bar4 : Nat := 28
  perst : Bool := false
  bar4Wait : List (Nat × Nat × Nat × Option (List Byte)) := []
deriving DecidableEq, Repr

/-- A record of a ring in GDDR: the count at its start, its bytes, whether it is one that DET_LOST_CNT counts. -/
structure RingRec where
  start : Nat
  bytes : Nat
  counted : Bool
deriving DecidableEq, Repr

/-- A sequence of a replay job, from its OPEN record: stamp, seed, drafts per turn, its tokens by position as prompt and job turns give
them, and the drafts its last turn emitted (R500). -/
structure JobSeq where
  arr : Nat
  seed : Nat
  d : Nat
  plen : Nat
  tokens : List Nat
  drafts : List (Nat × Nat)
  temp : Nat := 0
  topK : Nat := 0
  topP : Nat := 0
  delta : Nat := 0
deriving DecidableEq, Repr

/-- The proof ring, the timing log and the replay job (R490 to R504): records not released, teams that wait for room, the job's
TURN records still to run (the first is the one that runs), its sequences. -/
structure DetState where
  proofs : List RingRec := []
  tlogs : List RingRec := []
  holding : List Nat := []
  jobTurns : List (List Byte) := []
  jobSeqs : List JobSeq := []
  abort : Bool := false
deriving DecidableEq, Repr

/-- A firmware slot of the boot flash (R570, R611): its image, and whether the checks of R571 have passed. -/
structure FlashSlot where
  image : List Byte := []
  valid : Bool := false
deriving DecidableEq, Repr

/-- An acknowledged frame that has not come home with the full count (R559): type, sequence number, payload, resends left, tick of
its last sending. -/
structure AckFrame where
  typ : Nat
  seq : Nat
  payload : Nat
  resends : Nat
  sent : Nat
deriving DecidableEq, Repr

/-- A rack staging (R572): whether this device leads it, header bytes of STAGE_OPEN, data by offset (on the lead, the whole image at
offset 0), the pass, results of members by position. -/
structure Stage where
  lead : Bool
  header : List Byte := []
  data : List (Nat × List Byte) := []
  pass : Nat := 0
  results : List (Nat × Nat) := []
deriving DecidableEq, Repr

/-- The management plane (R555 to R580).

Chains: the next sequence number, copies of frames seen as (2 × originator + chain sent on, sequence), whether this device has a
position, inputs lost with their ticks, tick after the last TIME per chain.
Lead: tick after the last TIME of another lead, whether one had LEADB set, the last TIME as (number, tick), the last disagreeing TIME as an offset.
Rack time: the edge since the last tick (0 none, 1 taken, 2 outside the window), whether RRC counts, edges in a row at a new
offset, that offset, the numbering to take at the next edge and whether it is a step, UHL_RT_SET's number.
Snapshots: the pending one as (number, T), T of the one this lead has sent.
Frames: those not delivered; FAULT frames to send again as (payload, sequence, sendings left).
Images: the staging that runs, flash slots at 2 × component + slot, boot record copies as (SEQ, UMP_SLOT, DLR_SLOT), running slots, a
switch due at the next tick, the slot to go back to with its tick, tick of the last watchdog expiry.
DEGRADED as last broadcast. Column repairs that the Umpire reapplies at boot (R247), vault entries to program (R278). OTP counters
and revoked keys. Energy in µJ. MCTP endpoint id and SPDM sessions. -/
structure Mgmt where
  seq : Nat := 0
  seen : List (Nat × Nat) := []
  placed : Bool := false
  lost : List (Nat × Nat) := []
  timeTick : List (Nat × Nat) := []
  heard : Nat := 0
  heardB : Bool := false
  times : Option (Nat × Nat) := none
  disagree : Option Int := none
  edge : Nat := 0
  started : Bool := false
  offEdges : Nat := 0
  offset : Int := 0
  stepTime : Option (Nat × Bool) := none
  rtSet : Option Nat := none
  snap : Option (Nat × Nat) := none
  snapSent : Option Nat := none
  unacked : List AckFrame := []
  bcasts : List (Nat × Nat × Nat) := []
  stage : Option Stage := none
  slots : List (Nat × FlashSlot) := []
  boot : List (Nat × Nat × Nat) := [(1, 0, 0), (0, 0, 0)]
  running : List (Nat × Nat) := [(1, 0), (2, 0)]
  switchDue : Bool := false
  prevSlot : Option (Nat × Nat) := none
  lastWatchdog : Option Nat := none
  degraded : Bool := false
  fieldRepairs : List (Nat × Nat × Nat) := []
  hardQueue : List (Nat × Nat × Nat × Nat) := []
  softRecord : List (Nat × Nat × Nat × Nat) := []
  otpSvn : List (Nat × Nat) := []
  revoked : List Nat := []
  energy : Nat := 0
  mctpEid : Nat := 0
  sessions : List Nat := []
deriving DecidableEq, Repr

/-- Clocks, resets and JTAG (R582 to R618): starts tried per crystal; domains switching to a source; a wake that waits for the end of
entry (R599); POR# low; VDD_AON in tolerance; boot complete (READY as it will be at the next tick); out of service; the CORE domain started (R612); the check of
each flash slot at boot, and whether it could be read at all; PLL3's lock lost; the TAP's instruction; the pattern under LINKTEST;
the values of the boundary cells. -/
structure ClockSt where
  tries : List (Nat × Nat) := []
  switching : List (Nat × Nat) := []
  wakePending : Bool := false
  por : Bool := true
  aon : Bool := false
  ready : Bool := false
  outOfService : Bool := false
  coreOn : Bool := false
  bootChecks : List (Nat × Status) := []
  unread : List Nat := []
  pll3Lost : Bool := false
  tap : Nat := 0x02
  linktest : Option Nat := none
  boundary : Nat := 0
deriving DecidableEq, Repr

end Sys2Proof.Machine
end

