-- ==== Sys2Proof/Machine/Memory.lean ====
section
/-! DEFINITION. The local address space of R626 as one list of cells in canonical form: addresses strictly rising, no entry
equal to what an unlisted address reads as. -/

namespace Sys2Proof.Machine

/-- The contents of the local address space (Table REG-7), sparse. -/
abbrev Mem := List Host.Cell

/-- What a byte that nothing has written reads as. The spec gives no reset contents. DESIGN CHOICE, log entry 1. -/
def Mem.unwritten : Byte := 0#8

/-- Addresses strictly rising above `lo`, and no entry equal to the unwritten byte. -/
def Mem.wfFrom : Nat → Mem → Bool
  | _, [] => true
  | lo, (a, b) :: t => decide (lo ≤ a) && (b != Mem.unwritten) && Mem.wfFrom (a + 1) t

/-- The canonical form. -/
def Mem.wf (m : Mem) : Bool := Mem.wfFrom 0 m

/-- One byte. -/
def Mem.get : Mem → Nat → Byte
  | [], _ => Mem.unwritten
  | (a, b) :: t, n => if a = n then b else Mem.get t n

/-- Write one byte, keeping the canonical form. -/
def Mem.set : Mem → Nat → Byte → Mem
  | [], n, x => if x = Mem.unwritten then [] else [(n, x)]
  | (a, b) :: t, n, x =>
    if n < a then (if x = Mem.unwritten then (a, b) :: t else (n, x) :: (a, b) :: t)
    else if n = a then (if x = Mem.unwritten then t else (n, x) :: t)
    else (a, b) :: Mem.set t n x

/-- `len` bytes from address `n` upward. -/
def Mem.read (m : Mem) (n : Nat) : Nat → List Byte
  | 0 => []
  | len + 1 => Mem.get m n :: Mem.read m (n + 1) len

/-- Write a run of bytes from address `n` upward. -/
def Mem.write (m : Mem) (n : Nat) : List Byte → Mem
  | [] => m
  | x :: xs => Mem.write (Mem.set m n x) (n + 1) xs

/-- Local addresses of Table REG-7. -/
def vaultBase (core : Nat) : Nat := core * 2 ^ 24
def gddrBase (region : Nat) : Nat := 0x001000000000 + region * 2 ^ 32
def coreWindow (core : Nat) : Nat := 0x003000000000 + core * 0x20000
def cpBase : Nat := 0x003100000000
def apertureBase (ctx : Nat) : Nat := 0x003800000000 + ctx * 0x2000
def registerBase : Nat := 0x003F00000000

/-- Data memory of a core (Table REG-8). -/
def dmAddr (core a : Nat) : Nat := coreWindow core + a

/-- Instruction memory of a core (Table REG-8): bundle `b` is 16 bytes. -/
def imAddr (core b : Nat) : Nat := coreWindow core + 0x10000 + 16 * b

end Sys2Proof.Machine
end

