-- ==== Sys2Proof/Machine/PlateState.lean ====
section
/-! DEFINITION. The plate manager's state: chains, pools, copies in progress, slots whose release waits (R357 to R379). -/

namespace Sys2Proof.Machine

/-- A plate's chain entry (Table PLT-4). `key` is its K (R362); `mapped` the WHERE of its last map entry and `stamp` when that was
written, which order evictions (R372). -/
structure Plate where
  key : Nat
  tier : Nat
  kvw : Nat
  lost : Bool := false
  tent : Bool := true
  wbPend : Bool := false
  staged : Bool := false
  moving : Bool := false
  hpool : Nat
  spool : Nat
  srank : Nat := 0
  sslot : Nat := 0
  hslot : Nat := 0
  mapped : Nat := 0
  stamp : Nat := 0
deriving DecidableEq, Repr

/-- An entry of a chain node (Table PLT-4). KIND 3 is `bad`; an absent entry is INVALID. A node's child is named by its number. -/
inductive ChainEntry where
  | node (child : Nat)
  | plate (p : Plate)
  | bad
deriving DecidableEq, Repr

/-- A node of 64 entries (R362): its local address, its slot of a node pool where it lies in GDDR, and its entries by index. -/
structure ChainNode where
  addr : Nat
  slot : Option (Nat × Nat)
  entries : List (Nat × ChainEntry)
deriving DecidableEq, Repr

/-- The nodes of a version of a chain: level, the key bits above the level's index, number of the node. -/
abbrev ChainTree := List (Nat × Nat × Nat)

/-- A plate chain (R361, R362, Table PLT-3). `shadow` lists the plates of its working version and `dirty` says that it differs from the
published one, `tree` and `pubTree` their nodes; `awaits` are the teams whose next turn boundary publishes it (R364); `lhs` is
layers × heads; `committed` the committed length; `team` the team the sequence is bound to. -/
structure Chain where
  tenant : Nat
  log2n : Nat
  kvw : Nat
  depth : Nat
  jb : Nat
  lhb : Nat
  hpool : Nat
  ver : Nat := 0
  root : Nat := 0
  published : List Plate := []
  shadow : List Plate := []
  dirty : Bool := false
  tree : ChainTree := []
  pubTree : ChainTree := []
  awaits : List Nat := []
  lhs : Nat
  committed : Nat := 0
  team : Option Nat := none
deriving DecidableEq, Repr

/-- A pool's slots: those allocated (rank, slot, request slot), the tenant tag of each slot, reservations per request slot. Its
configuration stands in the PLT_POOL registers. -/
structure PoolSlots where
  used : List (Nat × Nat × Nat) := []
  tags : List (Nat × Nat × Nat) := []
  rsv : List (Nat × Nat) := []
deriving DecidableEq, Repr

/-- A copy in progress: a staging (R367) or a move (R374) of a plate into a slot. -/
structure PlateCopy where
  seq : Nat
  key : Nat
  pool : Nat
  rank : Nat
  slot : Nat
deriving DecidableEq, Repr

/-- A slot whose release waits for the end of a team's turn: team, pool, rank, slot, attempt (R364, R370, R374). -/
abbrev Deferred := Nat × Nat × Nat × Nat × Nat

/-- The turn a team runs and the turn it has prepared: the request slots of their batches, and the highest position each may
write (R364, R367), with the number of the prepared turn; how many attempts have started and ended; the turn and attempt last committed
or discarded (R419). -/
structure TurnPlates where
  running : List Nat := []
  prepared : List (Nat × Nat) := []
  turn : Nat := 0
  epoch : Nat := 0
  ended : Nat := 0
  finished : Option (Nat × Nat) := none
deriving DecidableEq, Repr

/-- The plate manager: chains and their nodes by number, pools, copies in progress and those that have failed under way, releases that
wait, lent memory, turns, the refusal of an allocation last reported to Dealer firmware (R358 to R377). -/
structure Plates where
  chains : List (Nat × Chain) := []
  nodes : List (Nat × ChainNode) := []
  pools : List (Nat × PoolSlots) := []
  staging : List PlateCopy := []
  moves : List PlateCopy := []
  writeBacks : List (Nat × Nat × Nat × Nat) := []
  promote : List (Nat × Nat) := []
  failed : List (Nat × Nat × PlateUse) := []
  deferred : List Deferred := []
  deferredNodes : List (Nat × Nat × Nat) := []
  lends : List (Nat × Nat) := []
  turns : List (Nat × TurnPlates) := []
  refusal : Option (Nat × Status) := none
  clock : Nat := 0
deriving DecidableEq, Repr

end Sys2Proof.Machine
end

