-- ==== Sys2Proof/Machine/Regs.lean ====
section
/-! DEFINITION. The register map of BAR0 (R621, R622, Tables REG-4 to REG-6): where each register lies, its width, its reset
value, and which of its bits each access type covers (R7 to R11). -/

namespace Sys2Proof.Machine

/-- One register or register family: `n1` by `n2` instances `s1` and `s2` bytes apart from `base`, each `bytes` long; the
masks of its RW, W1C, W1S and WO bits (R8). Every other bit is RO or reserved. -/
structure RegDef where
  base : Nat
  n1 : Nat
  s1 : Nat
  n2 : Nat
  s2 : Nat
  bytes : Nat
  rw : Nat
  w1c : Nat
  w1s : Nat
  wo : Nat
deriving DecidableEq, Repr

/-! ## Names: the BAR0 offset of each register -/

def Reg.glbId : Nat := 0x0
def Reg.glbDetClass : Nat := 0x8
def Reg.glbStatus : Nat := 0x10
def Reg.glbTicks : Nat := 0x18
def Reg.cluState (n : Nat) : Nat := 0x200800 + 0x4 * n
def Reg.pwrFref : Nat := 0x200900
def Reg.cluRepair (n : Nat) : Nat := 0xC00800 + 0x8 * n
def Reg.cluRepairCnt (n : Nat) : Nat := 0xC00804 + 0x8 * n
def Reg.vltCtrl : Nat := 0x700000
def Reg.vltStatus : Nat := 0x700004
def Reg.vltCeCnt : Nat := 0x700008
def Reg.vltUeCnt : Nat := 0x700010
def Reg.vltBgLostCnt : Nat := 0x700018
def Reg.vltLogHead : Nat := 0x700020
def Reg.vltSiteSel : Nat := 0x700040
def Reg.vltSiteSpare : Nat := 0x700044
def Reg.vltRepairCmd : Nat := 0x700048
def Reg.vltBistCtrl : Nat := 0x700050
def Reg.vltBistFailCnt : Nat := 0x700058
def Reg.vltTemp (n : Nat) : Nat := 0x700200 + 0x8 * n
def Reg.vltLog (n : Nat) : Nat := 0x701000 + 0x10 * n
def Reg.gdrCfg : Nat := 0x800000
def Reg.gdrRetired : Nat := 0x800004
def Reg.gdrGold : Nat := 0x800008
def Reg.gdrPolicy : Nat := 0x80000C
def Reg.gdrRetireCmd : Nat := 0x800010
def Reg.gdrGroup : Nat := 0x800014
def Reg.gdrReconCnt : Nat := 0x800018
def Reg.gdrCeCnt : Nat := 0x800020
def Reg.gdrUeCnt : Nat := 0x800028
def Reg.gdrRgnState (n : Nat) : Nat := 0x800100 + 0x20 * n
def Reg.gdrRgnTrain (n : Nat) : Nat := 0x800104 + 0x20 * n
def Reg.gdrRgnCe (n : Nat) : Nat := 0x800108 + 0x20 * n
def Reg.gdrRgnUe (n : Nat) : Nat := 0x800110 + 0x20 * n
def Reg.gdrRgnCrc (n : Nat) : Nat := 0x800118 + 0x20 * n
def Reg.burStatus : Nat := 0x600000
def Reg.burTableSel : Nat := 0x600004
def Reg.burTileCnt : Nat := 0x600010
def Reg.burDecCnt : Nat := 0x600018
def Reg.burEncCnt : Nat := 0x600020
def Reg.burEncRawCnt : Nat := 0x600028
def Reg.burEncBytes : Nat := 0x600030
def Reg.burMediaCnt : Nat := 0x600038
def Reg.burWinBase (n : Nat) : Nat := 0x600100 + 0x10 * n
def Reg.burWinCfg (n : Nat) : Nat := 0x600108 + 0x10 * n
def Reg.pltStatus : Nat := 0x500000
def Reg.pltVersion : Nat := 0x500008
def Reg.pltStageCnt : Nat := 0x500010
def Reg.pltRemoteCnt : Nat := 0x500018
def Reg.pltWbLines : Nat := 0x500020
def Reg.pltMoveCnt : Nat := 0x500028
def Reg.pltMoveFailCnt : Nat := 0x500030
def Reg.pltZeroCnt : Nat := 0x500038
def Reg.pltLostCnt : Nat := 0x500040
def Reg.pltEvictCnt : Nat := 0x500048
def Reg.pltPoolCfg (n : Nat) : Nat := 0x500100 + 0x20 * n
def Reg.pltPoolWm (n : Nat) : Nat := 0x500104 + 0x20 * n
def Reg.pltPoolBase (n : Nat) : Nat := 0x500108 + 0x20 * n
def Reg.pltPoolCount (n : Nat) : Nat := 0x500110 + 0x20 * n
def Reg.pltPoolFree (n : Nat) : Nat := 0x500114 + 0x20 * n
def Reg.pltPoolRsv (n : Nat) : Nat := 0x500118 + 0x20 * n
def Reg.dlrStatus : Nat := 0x400000
def Reg.dlrAdmCfg : Nat := 0x400004
def Reg.dlrRoleCfg : Nat := 0x400008
def Reg.dlrArrival : Nat := 0x400010
def Reg.dlrHistBase : Nat := 0x400018
def Reg.dlrHistUnits : Nat := 0x400020
def Reg.dlrAdmitCnt : Nat := 0x400028
def Reg.dlrNoroomCnt : Nat := 0x400030
def Reg.dlrLateCnt : Nat := 0x400038
def Reg.dlrDeadlineCnt : Nat := 0x400040
def Reg.dlrLatedlvCnt : Nat := 0x400048
def Reg.dlrCancelCnt : Nat := 0x400050
def Reg.dlrCommitCnt : Nat := 0x400058
def Reg.dlrDiscardCnt : Nat := 0x400060
def Reg.dlrRoleswCnt : Nat := 0x400068
def Reg.dlrRecompCnt : Nat := 0x400070
def Reg.dlrTakeoverCnt : Nat := 0x400078
def Reg.dlrPairState (n : Nat) : Nat := 0x400100 + 0x4 * n
def Reg.dlrTeamState (n : Nat) : Nat := 0x400200 + 0x20 * n
def Reg.dlrTeamLim (n : Nat) : Nat := 0x400204 + 0x20 * n
def Reg.dlrTeamTurn (n : Nat) : Nat := 0x400208 + 0x20 * n
def Reg.dlrTeamCtx (n : Nat) : Nat := 0x400210 + 0x20 * n
def Reg.dlrTeamModel (n : Nat) : Nat := 0x400214 + 0x20 * n
def Reg.ngvId : Nat := 0x900000
def Reg.ngvSerial : Nat := 0x900008
def Reg.ngvCfg : Nat := 0x900010
def Reg.ngvArb : Nat := 0x900014
def Reg.ngvStatus : Nat := 0x900018
def Reg.ngvTxCnt : Nat := 0x900020
def Reg.ngvRxCnt : Nat := 0x900028
def Reg.ngvTimeoutCnt : Nat := 0x900030
def Reg.ngvRejectCnt : Nat := 0x900038
def Reg.ngvTtlDropCnt : Nat := 0x900040
def Reg.ngvRedStaleCnt : Nat := 0x900048
def Reg.ngvLateRspCnt : Nat := 0x900050
def Reg.ngvSig (n : Nat) : Nat := 0x903000 + 0x4 * n
def Reg.ngvDest (n : Nat) : Nat := 0x910000 + 0x8 * n
def Reg.ngvRctx (n : Nat) : Nat := 0x920000 + 0x100 * n
def Reg.portCtrl (n : Nat) : Nat := 0x901000 + 0x80 * n
def Reg.portStatus (n : Nat) : Nat := 0x901004 + 0x80 * n
def Reg.portPeerSerial (n : Nat) : Nat := 0x901008 + 0x80 * n
def Reg.portCred (n : Nat) : Nat := 0x901010 + 0x80 * n
def Reg.portPeer (n : Nat) : Nat := 0x901014 + 0x80 * n
def Reg.portRtt (n : Nat) : Nat := 0x901018 + 0x80 * n
def Reg.portFecCe (n : Nat) : Nat := 0x901020 + 0x80 * n
def Reg.portFecUe (n : Nat) : Nat := 0x901028 + 0x80 * n
def Reg.portCrcCnt (n : Nat) : Nat := 0x901030 + 0x80 * n
def Reg.portRetryCnt (n : Nat) : Nat := 0x901038 + 0x80 * n
def Reg.portRetrainCnt (n : Nat) : Nat := 0x901040 + 0x80 * n
def Reg.portTxFlits (n : Nat) : Nat := 0x901048 + 0x80 * n
def Reg.portRxFlits (n : Nat) : Nat := 0x901050 + 0x80 * n
def Reg.slcCfg : Nat := 0x904000
def Reg.slcUplink : Nat := 0x904004
def Reg.slcCtrl : Nat := 0x904008
def Reg.slcStatus : Nat := 0x90400C
def Reg.slcHeld : Nat := 0x904010
def Reg.slcDropCnt : Nat := 0x904018
def Reg.slcRank (n : Nat) : Nat := 0x904200 + 0x4 * n
def Reg.slcAcc (n : Nat) : Nat := 0x930000 + 0x4 * n
def Reg.detCfg : Nat := 0xD00000
def Reg.detStatus : Nat := 0xD00004
def Reg.detRingBase : Nat := 0xD00008
def Reg.detRingSize : Nat := 0xD00010
def Reg.detRingHead : Nat := 0xD00018
def Reg.detRingTail : Nat := 0xD00020
def Reg.detSerial : Nat := 0xD00028
def Reg.detTlogBase : Nat := 0xD00030
def Reg.detTlogSize : Nat := 0xD00038
def Reg.detTlogHead : Nat := 0xD00040
def Reg.detTlogTail : Nat := 0xD00048
def Reg.detLostCnt : Nat := 0xD00050
def Reg.detHoldCnt : Nat := 0xD00058
def Reg.detWerrCnt : Nat := 0xD00060
def Reg.detJobSrc : Nat := 0xD00100
def Reg.detJobLen : Nat := 0xD00108
def Reg.detJobCtrl : Nat := 0xD0010C
def Reg.detJobRes : Nat := 0xD00110
def Reg.detJobStatus : Nat := 0xD00118
def Reg.detJobDone : Nat := 0xD0011C
def Reg.detCapSerial : Nat := 0xD00120
def Reg.detCapPoint : Nat := 0xD00128
def Reg.detCapCyc : Nat := 0xD0012C
def Reg.detCapAddr : Nat := 0xD00130
def Reg.fltStatus : Nat := 0xC00000
def Reg.fltPolicy : Nat := 0xC00004
def Reg.fltGoldPeer : Nat := 0xC00008
def Reg.fltRepairCmd : Nat := 0xC0000C
def Reg.fltBudget : Nat := 0xC00010
def Reg.fltLogHead : Nat := 0xC00014
def Reg.fltSerial : Nat := 0xC00018
def Reg.fltReplayCnt : Nat := 0xC00020
def Reg.fltSeqfailCnt : Nat := 0xC00028
def Reg.fltRestoreCnt : Nat := 0xC00030
def Reg.fltStandinCnt : Nat := 0xC00038
def Reg.fltPeerCnt : Nat := 0xC00040
def Reg.fltLog (n : Nat) : Nat := 0xC02000 + 0x20 * n
def Reg.hstCfg : Nat := 0x300000
def Reg.hstLink : Nat := 0x300004
def Reg.hstBar4Base : Nat := 0x300008
def Reg.hstRejCnt : Nat := 0x300010
def Reg.hstShadowCnt : Nat := 0x300018
def Reg.hstCpltoCnt : Nat := 0x300020
def Reg.fnStatus (n : Nat) : Nat := 0x310000 + 0x1000 * n
def Reg.fnTenant (n : Nat) : Nat := 0x310004 + 0x1000 * n
def Reg.fnAccErr (n : Nat) : Nat := 0x310008 + 0x1000 * n
def Reg.fnAccCnt (n : Nat) : Nat := 0x310010 + 0x1000 * n
def Reg.fnIrq (n : Nat) : Nat := 0x310018 + 0x1000 * n
def Reg.ringBase (f r : Nat) : Nat := 0x310100 + 0x1000 * f + 0x40 * r
def Reg.ringWb (f r : Nat) : Nat := 0x310108 + 0x1000 * f + 0x40 * r
def Reg.ringCfg (f r : Nat) : Nat := 0x310110 + 0x1000 * f + 0x40 * r
def Reg.ringHead (f r : Nat) : Nat := 0x310114 + 0x1000 * f + 0x40 * r
def Reg.ringTail (f r : Nat) : Nat := 0x310118 + 0x1000 * f + 0x40 * r
def Reg.ringStat (f r : Nat) : Nat := 0x31011C + 0x1000 * f + 0x40 * r
def Reg.uhlStatus : Nat := 0xA00000
def Reg.uhlRrc : Nat := 0xA00008
def Reg.uhlRtSet : Nat := 0xA00010
def Reg.uhlSnapT : Nat := 0xA00018
def Reg.uhlSnapStat : Nat := 0xA00020
def Reg.uhlSnapAck : Nat := 0xA00024
def Reg.uhlCrcCnt : Nat := 0xA00028
def Reg.uhlWrapCnt : Nat := 0xA00030
def Reg.uhlSyncMissCnt : Nat := 0xA00038
def Reg.uhlSnapLateCnt : Nat := 0xA00040
def Reg.uhlSnapDropCnt : Nat := 0xA00048
def Reg.uhlLeadConflictCnt : Nat := 0xA00050
def Reg.uhlRoster (n : Nat) : Nat := 0xA00100 + 0x10 * n
def Reg.uhlRosterSer (n : Nat) : Nat := 0xA00108 + 0x10 * n
def Reg.umpStatus : Nat := 0xB00000
def Reg.umpVersion : Nat := 0xB00004
def Reg.umpStageCmd : Nat := 0xB00008
def Reg.umpStageSrc : Nat := 0xB00010
def Reg.umpStageStatus : Nat := 0xB00018
def Reg.umpSwitch : Nat := 0xB0001C
def Reg.umpStageFail : Nat := 0xB00020
def Reg.umpSvcOut : Nat := 0xB00030
def Reg.umpBoot : Nat := 0xB00050
def Reg.secState : Nat := 0xB00040
def Reg.secCmd : Nat := 0xB00044
def Reg.telTj : Nat := 0xB00100
def Reg.telPower : Nat := 0xB00104
def Reg.telEnergy : Nat := 0xB00108
def Reg.telSnapSeq : Nat := 0xB00110
def Reg.telSnapT : Nat := 0xB00118
def Reg.telRail (n : Nat) : Nat := 0xB00300 + 0x8 * n
def Reg.telTjClu (n : Nat) : Nat := 0xB00400 + 0x8 * n
def Reg.shcCmd : Nat := 0xE00000
def Reg.shcClaim (n : Nat) : Nat := 0xE00100 + 0x4 * n
def Reg.shcTmrCfg (n : Nat) : Nat := 0xE00200 + 0x10 * n
def Reg.shcTmrPeriod (n : Nat) : Nat := 0xE00204 + 0x10 * n
def Reg.shcTmrCnt (n : Nat) : Nat := 0xE00208 + 0x10 * n
def Reg.shcTmrStatus : Nat := 0xE00300
def Reg.clkStatus : Nat := 0x100000
def Reg.clkXstart : Nat := 0x100004
def Reg.clkXctrl : Nat := 0x100008
def Reg.clkGate : Nat := 0x10000C
def Reg.clkClkout : Nat := 0x100010
def Reg.clkPllCfg (n : Nat) : Nat := 0x100020 + 0x4 * n
def Reg.clkDomSel (n : Nat) : Nat := 0x100040 + 0x4 * n
def Reg.clkDomCyc (n : Nat) : Nat := 0x100060 + 0x8 * n
def Reg.pwrStatus : Nat := 0x200000
def Reg.pwrCmd : Nat := 0x200004
def Reg.pwrCfg : Nat := 0x200008
def Reg.pwrCap : Nat := 0x20000C
def Reg.pwrVid : Nat := 0x200010
def Reg.pwrTrip : Nat := 0x200014
def Reg.pwrIdleCnt : Nat := 0x200018
def Reg.pwrRestCnt : Nat := 0x200020
def Reg.portPrbs (n : Nat) : Nat := 0x901058 + 0x80 * n
def Reg.portPrbsErr (n : Nat) : Nat := 0x901060 + 0x80 * n
def Reg.dlrTeamRst (n : Nat) : Nat := 0x400218 + 0x20 * n

/-! ## The map, block by block -/

def regsGlb : List RegDef := [
  /- GLB_ID -/ ⟨0x0, 1, 0x0, 1, 0x0, 4, 0x0, 0x0, 0x0, 0x0⟩,
  /- GLB_DET_CLASS -/ ⟨0x8, 1, 0x0, 1, 0x0, 8, 0x0, 0x0, 0x0, 0x0⟩,
  /- GLB_STATUS -/ ⟨0x10, 1, 0x0, 1, 0x0, 4, 0x0, 0x0, 0x0, 0x0⟩,
  /- GLB_TICKS -/ ⟨0x18, 1, 0x0, 1, 0x0, 8, 0x0, 0x0, 0x0, 0x0⟩]

def regsCore : List RegDef := [
  /- CORE_STATUS -/ ⟨0x1000000, 4096, 0x1000, 1, 0x0, 4, 0x0, 0x0, 0x0, 0x0⟩,
  /- CORE_SECT -/ ⟨0x1000004, 4096, 0x1000, 1, 0x0, 4, 0x0, 0x0, 0x0, 0x0⟩,
  /- CORE_STALL -/ ⟨0x1000008, 4096, 0x1000, 1, 0x0, 8, 0x0, 0x0, 0x0, 0x0⟩,
  /- CORE_LATE_CNT -/ ⟨0x1000010, 4096, 0x1000, 1, 0x0, 8, 0x0, 0x0, 0x0, 0x0⟩,
  /- CORE_TURN_CYC -/ ⟨0x1000018, 4096, 0x1000, 1, 0x0, 4, 0x0, 0x0, 0x0, 0x0⟩,
  /- CORE_OVL -/ ⟨0x100001C, 4096, 0x1000, 1, 0x0, 4, 0x0, 0x0, 0x0, 0x0⟩,
  /- CORE_FAULT_INFO -/ ⟨0x1000020, 4096, 0x1000, 1, 0x0, 4, 0x0, 0x0, 0x0, 0x0⟩,
  /- CORE_FAULT_PC -/ ⟨0x1000024, 4096, 0x1000, 1, 0x0, 4, 0x0, 0x0, 0x0, 0x0⟩,
  /- CORE_FAULT_TURN -/ ⟨0x1000028, 4096, 0x1000, 1, 0x0, 8, 0x0, 0x0, 0x0, 0x0⟩,
  /- CORE_FAULT_CYC -/ ⟨0x1000030, 4096, 0x1000, 1, 0x0, 4, 0x0, 0x0, 0x0, 0x0⟩,
  /- CORE_FAULT_OPD -/ ⟨0x1000034, 4096, 0x1000, 1, 0x0, 4, 0x0, 0x0, 0x0, 0x0⟩,
  /- CORE_FAULT_CNT -/ ⟨0x1000038, 4096, 0x1000, 1, 0x0, 8, 0x0, 0x0, 0x0, 0x0⟩,
  /- FMT_STICKY -/ ⟨0x10000C0, 4096, 0x1000, 1, 0x0, 4, 0x0, 0xF, 0x0, 0x0⟩,
  /- FMT_SAT_CNT -/ ⟨0x10000C8, 4096, 0x1000, 1, 0x0, 8, 0x0, 0x0, 0x0, 0x0⟩,
  /- FMT_UFL_CNT -/ ⟨0x10000D0, 4096, 0x1000, 1, 0x0, 8, 0x0, 0x0, 0x0, 0x0⟩,
  /- FMT_OVF_CNT -/ ⟨0x10000D8, 4096, 0x1000, 1, 0x0, 8, 0x0, 0x0, 0x0, 0x0⟩,
  /- FMT_POISON_CNT -/ ⟨0x10000E0, 4096, 0x1000, 1, 0x0, 8, 0x0, 0x0, 0x0, 0x0⟩,
  /- PLN_MODE -/ ⟨0x1000100, 4096, 0x1000, 1, 0x0, 4, 0x0, 0x0, 0x0, 0x0⟩,
  /- PLN_STATUS -/ ⟨0x1000104, 4096, 0x1000, 1, 0x0, 4, 0x0, 0x0, 0x0, 0x0⟩,
  /- PLN_VEC_CNT -/ ⟨0x1000108, 4096, 0x1000, 1, 0x0, 8, 0x0, 0x0, 0x0, 0x0⟩,
  /- PLN_BUSY_CNT -/ ⟨0x1000110, 4096, 0x1000, 1, 0x0, 8, 0x0, 0x0, 0x0, 0x0⟩,
  /- PLN_XCP_CNT -/ ⟨0x1000118, 4096, 0x1000, 1, 0x0, 8, 0x0, 0x0, 0x0, 0x0⟩,
  /- ACC_STICKY -/ ⟨0x1000140, 4096, 0x1000, 1, 0x0, 4, 0x0, 0x3, 0x0, 0x0⟩,
  /- ACC_SAT_CNT -/ ⟨0x1000148, 4096, 0x1000, 1, 0x0, 8, 0x0, 0x0, 0x0, 0x0⟩]

def regsCore2 : List RegDef := [
  /- ACC_SHIFT_CNT -/ ⟨0x1000150, 4096, 0x1000, 1, 0x0, 8, 0x0, 0x0, 0x0, 0x0⟩,
  /- GRP_CFG -/ ⟨0x1000160, 4096, 0x1000, 8, 0x20, 4, 0x0, 0x0, 0x0, 0x0⟩,
  /- GRP_AUX -/ ⟨0x1000164, 4096, 0x1000, 8, 0x20, 4, 0x0, 0x0, 0x0, 0x0⟩,
  /- GRP_STATE -/ ⟨0x1000168, 4096, 0x1000, 8, 0x20, 4, 0x0, 0x0, 0x0, 0x0⟩,
  /- GRP_RSEQ -/ ⟨0x100016C, 4096, 0x1000, 8, 0x20, 4, 0x0, 0x0, 0x0, 0x0⟩,
  /- GRP_MASK -/ ⟨0x1000170, 4096, 0x1000, 8, 0x20, 8, 0x0, 0x0, 0x0, 0x0⟩,
  /- DICE_STATUS -/ ⟨0x1000280, 4096, 0x1000, 1, 0x0, 4, 0x0, 0x0, 0x0, 0x0⟩,
  /- DICE_TURN -/ ⟨0x1000288, 4096, 0x1000, 1, 0x0, 8, 0x0, 0x0, 0x0, 0x0⟩,
  /- DICE_DRAW_CNT -/ ⟨0x1000290, 4096, 0x1000, 1, 0x0, 8, 0x0, 0x0, 0x0, 0x0⟩,
  /- DICE_SEED_MAP -/ ⟨0x1000298, 4096, 0x1000, 1, 0x0, 8, 0x0, 0x0, 0x0, 0x0⟩,
  /- DQ_POSTED -/ ⟨0x1000300, 4096, 0x1000, 8, 0x10, 4, 0x0, 0x0, 0x0, 0x0⟩,
  /- DQ_DONE -/ ⟨0x1000304, 4096, 0x1000, 8, 0x10, 4, 0x0, 0x0, 0x0, 0x0⟩,
  /- DQ_ERR -/ ⟨0x1000308, 4096, 0x1000, 8, 0x10, 4, 0x0, 0x0, 0x0, 0x0⟩,
  /- MOV_STATUS -/ ⟨0x1000380, 4096, 0x1000, 1, 0x0, 4, 0x0, 0x0, 0x0, 0x0⟩,
  /- MESH_ERR_CNT -/ ⟨0x1000388, 4096, 0x1000, 1, 0x0, 8, 0x0, 0x0, 0x0, 0x0⟩,
  /- VLT_LINE_CNT -/ ⟨0x1000390, 4096, 0x1000, 1, 0x0, 8, 0x0, 0x0, 0x0, 0x0⟩,
  /- MESH_BEAT_CNT -/ ⟨0x1000398, 4096, 0x1000, 1, 0x0, 8, 0x0, 0x0, 0x0, 0x0⟩,
  /- VLT_CE_CORE -/ ⟨0x10003C0, 4096, 0x1000, 1, 0x0, 8, 0x0, 0x0, 0x0, 0x0⟩,
  /- VLT_UE_CORE -/ ⟨0x10003C8, 4096, 0x1000, 1, 0x0, 8, 0x0, 0x0, 0x0, 0x0⟩,
  /- ATT_WALK_STATUS -/ ⟨0x10003D0, 4096, 0x1000, 1, 0x0, 4, 0x0, 0x0, 0x0, 0x0⟩,
  /- ATT_PWK_VLT_CNT -/ ⟨0x10003D8, 4096, 0x1000, 1, 0x0, 8, 0x0, 0x0, 0x0, 0x0⟩,
  /- ATT_PWK_STR_CNT -/ ⟨0x10003E0, 4096, 0x1000, 1, 0x0, 8, 0x0, 0x0, 0x0, 0x0⟩,
  /- ATT_PWK_TOK_CNT -/ ⟨0x10003E8, 4096, 0x1000, 1, 0x0, 8, 0x0, 0x0, 0x0, 0x0⟩,
  /- PWK_FMT -/ ⟨0x10003F0, 4096, 0x1000, 1, 0x0, 4, 0x0, 0x0, 0x0, 0x0⟩]

def regsPwr : List RegDef := [
  /- PWR_STATUS -/ ⟨0x200000, 1, 0x0, 1, 0x0, 4, 0x0, 0x0, 0x0, 0x0⟩,
  /- PWR_CMD -/ ⟨0x200004, 1, 0x0, 1, 0x0, 4, 0x0, 0x0, 0x0, 0x3⟩,
  /- PWR_CFG -/ ⟨0x200008, 1, 0x0, 1, 0x0, 4, 0x1F, 0x0, 0x0, 0x0⟩,
  /- PWR_CAP -/ ⟨0x20000C, 1, 0x0, 1, 0x0, 4, 0x3FF, 0x0, 0x0, 0x0⟩,
  /- PWR_VID -/ ⟨0x200010, 1, 0x0, 1, 0x0, 4, 0x0, 0x0, 0x0, 0x0⟩,
  /- PWR_TRIP -/ ⟨0x200014, 1, 0x0, 1, 0x0, 4, 0x0, 0x0, 0x0, 0x0⟩,
  /- PWR_IDLE_CNT -/ ⟨0x200018, 1, 0x0, 1, 0x0, 8, 0x0, 0x0, 0x0, 0x0⟩,
  /- PWR_REST_CNT -/ ⟨0x200020, 1, 0x0, 1, 0x0, 8, 0x0, 0x0, 0x0, 0x0⟩,
  /- CLU_STATE -/ ⟨0x200800, 64, 0x4, 1, 0x0, 4, 0x0, 0x0, 0x0, 0x0⟩,
  /- PWR_FREF -/ ⟨0x200900, 1, 0x0, 1, 0x0, 8, 0x0, 0x0, 0x0, 0x0⟩]

def regsFlt : List RegDef := [
  /- FLT_STATUS -/ ⟨0xC00000, 1, 0x0, 1, 0x0, 4, 0x0, 0x7, 0x0, 0x0⟩,
  /- FLT_POLICY -/ ⟨0xC00004, 1, 0x0, 1, 0x0, 4, 0x3FFFFFFF, 0x0, 0x0, 0x0⟩,
  /- FLT_GOLD_PEER -/ ⟨0xC00008, 1, 0x0, 1, 0x0, 4, 0x1FFF, 0x0, 0x0, 0x0⟩,
  /- FLT_REPAIR_CMD -/ ⟨0xC0000C, 1, 0x0, 1, 0x0, 4, 0x0, 0x0, 0x0, 0xFF000FFF⟩,
  /- FLT_BUDGET -/ ⟨0xC00010, 1, 0x0, 1, 0x0, 4, 0x0, 0x0, 0x0, 0x0⟩,
  /- FLT_LOG_HEAD -/ ⟨0xC00014, 1, 0x0, 1, 0x0, 4, 0x0, 0x20000, 0x0, 0x0⟩,
  /- FLT_SERIAL -/ ⟨0xC00018, 1, 0x0, 1, 0x0, 8, 0x0, 0x0, 0x0, 0x0⟩,
  /- FLT_REPLAY_CNT -/ ⟨0xC00020, 1, 0x0, 1, 0x0, 8, 0x0, 0x0, 0x0, 0x0⟩,
  /- FLT_SEQFAIL_CNT -/ ⟨0xC00028, 1, 0x0, 1, 0x0, 8, 0x0, 0x0, 0x0, 0x0⟩,
  /- FLT_RESTORE_CNT -/ ⟨0xC00030, 1, 0x0, 1, 0x0, 8, 0x0, 0x0, 0x0, 0x0⟩,
  /- FLT_STANDIN_CNT -/ ⟨0xC00038, 1, 0x0, 1, 0x0, 8, 0x0, 0x0, 0x0, 0x0⟩,
  /- FLT_PEER_CNT -/ ⟨0xC00040, 1, 0x0, 1, 0x0, 8, 0x0, 0x0, 0x0, 0x0⟩,
  /- CLU_REPAIR -/ ⟨0xC00800, 64, 0x8, 1, 0x0, 4, 0x0, 0x0, 0x0, 0x0⟩,
  /- CLU_REPAIR_CNT -/ ⟨0xC00804, 64, 0x8, 1, 0x0, 4, 0x0, 0x0, 0x0, 0x0⟩,
  /- FLT_LOG -/ ⟨0xC02000, 256, 0x20, 1, 0x0, 32, 0x0, 0x0, 0x0, 0x0⟩]

def regsVlt : List RegDef := [
  /- VLT_CTRL -/ ⟨0x700000, 1, 0x0, 1, 0x0, 4, 0x1F1F, 0x0, 0x0, 0x0⟩,
  /- VLT_STATUS -/ ⟨0x700004, 1, 0x0, 1, 0x0, 4, 0x0, 0x0, 0x0, 0x0⟩,
  /- VLT_CE_CNT -/ ⟨0x700008, 1, 0x0, 1, 0x0, 8, 0x0, 0x0, 0x0, 0x0⟩,
  /- VLT_UE_CNT -/ ⟨0x700010, 1, 0x0, 1, 0x0, 8, 0x0, 0x0, 0x0, 0x0⟩,
  /- VLT_BG_LOST_CNT -/ ⟨0x700018, 1, 0x0, 1, 0x0, 8, 0x0, 0x0, 0x0, 0x0⟩,
  /- VLT_LOG_HEAD -/ ⟨0x700020, 1, 0x0, 1, 0x0, 4, 0x0, 0x10000, 0x0, 0x0⟩,
  /- VLT_SITE_SEL -/ ⟨0x700040, 1, 0x0, 1, 0x0, 4, 0x7F3F, 0x0, 0x0, 0x0⟩,
  /- VLT_SITE_SPARE -/ ⟨0x700044, 1, 0x0, 1, 0x0, 4, 0x0, 0x0, 0x0, 0x0⟩,
  /- VLT_REPAIR_CMD -/ ⟨0x700048, 1, 0x0, 1, 0x0, 4, 0x0, 0x0, 0x0, 0xFF01FFFF⟩,
  /- VLT_BIST_CTRL -/ ⟨0x700050, 1, 0x0, 1, 0x0, 4, 0xF, 0x0, 0x10, 0x0⟩,
  /- VLT_BIST_FAIL_CNT -/ ⟨0x700058, 1, 0x0, 1, 0x0, 8, 0x0, 0x0, 0x0, 0x0⟩,
  /- VLT_TEMP -/ ⟨0x700200, 64, 0x8, 1, 0x0, 8, 0x0, 0x0, 0x0, 0x0⟩,
  /- VLT_LOG -/ ⟨0x701000, 64, 0x10, 1, 0x0, 16, 0x0, 0x0, 0x0, 0x0⟩]

def regsGdr : List RegDef := [
  /- GDR_CFG -/ ⟨0x800000, 1, 0x0, 1, 0x0, 4, 0x3, 0x0, 0x20, 0x0⟩,
  /- GDR_RETIRED -/ ⟨0x800004, 1, 0x0, 1, 0x0, 4, 0x0, 0x0, 0x0, 0x0⟩,
  /- GDR_GOLD -/ ⟨0x800008, 1, 0x0, 1, 0x0, 4, 0xFFF0FFF, 0x0, 0x0, 0x0⟩,
  /- GDR_POLICY -/ ⟨0x80000C, 1, 0x0, 1, 0x0, 4, 0xFFFFFFF, 0x0, 0x0, 0x0⟩,
  /- GDR_RETIRE_CMD -/ ⟨0x800010, 1, 0x0, 1, 0x0, 4, 0x0, 0x0, 0x0, 0xFF00003F⟩,
  /- GDR_GROUP -/ ⟨0x800014, 1, 0x0, 1, 0x0, 4, 0x0, 0x0, 0x0, 0x0⟩,
  /- GDR_RECON_CNT -/ ⟨0x800018, 1, 0x0, 1, 0x0, 8, 0x0, 0x0, 0x0, 0x0⟩,
  /- GDR_CE_CNT -/ ⟨0x800020, 1, 0x0, 1, 0x0, 8, 0x0, 0x0, 0x0, 0x0⟩,
  /- GDR_UE_CNT -/ ⟨0x800028, 1, 0x0, 1, 0x0, 8, 0x0, 0x0, 0x0, 0x0⟩,
  /- GDR_RGN_STATE -/ ⟨0x800100, 32, 0x20, 1, 0x0, 4, 0x0, 0x0, 0x0, 0x0⟩,
  /- GDR_RGN_TRAIN -/ ⟨0x800104, 32, 0x20, 1, 0x0, 4, 0x0, 0x0, 0x0, 0x0⟩,
  /- GDR_RGN_CE -/ ⟨0x800108, 32, 0x20, 1, 0x0, 8, 0x0, 0x0, 0x0, 0x0⟩,
  /- GDR_RGN_UE -/ ⟨0x800110, 32, 0x20, 1, 0x0, 8, 0x0, 0x0, 0x0, 0x0⟩,
  /- GDR_RGN_CRC -/ ⟨0x800118, 32, 0x20, 1, 0x0, 8, 0x0, 0x0, 0x0, 0x0⟩]

def regsBur : List RegDef := [
  /- BUR_STATUS -/ ⟨0x600000, 1, 0x0, 1, 0x0, 4, 0x0, 0x0, 0x0, 0x0⟩,
  /- BUR_TABLE_SEL -/ ⟨0x600004, 1, 0x0, 1, 0x0, 4, 0x777, 0x0, 0x0, 0x0⟩,
  /- BUR_TILE_CNT -/ ⟨0x600010, 1, 0x0, 1, 0x0, 8, 0x0, 0x0, 0x0, 0x0⟩,
  /- BUR_DEC_CNT -/ ⟨0x600018, 1, 0x0, 1, 0x0, 8, 0x0, 0x0, 0x0, 0x0⟩,
  /- BUR_ENC_CNT -/ ⟨0x600020, 1, 0x0, 1, 0x0, 8, 0x0, 0x0, 0x0, 0x0⟩,
  /- BUR_ENC_RAW_CNT -/ ⟨0x600028, 1, 0x0, 1, 0x0, 8, 0x0, 0x0, 0x0, 0x0⟩,
  /- BUR_ENC_BYTES -/ ⟨0x600030, 1, 0x0, 1, 0x0, 8, 0x0, 0x0, 0x0, 0x0⟩,
  /- BUR_MEDIA_CNT -/ ⟨0x600038, 1, 0x0, 1, 0x0, 8, 0x0, 0x0, 0x0, 0x0⟩,
  /- BUR_WIN_BASE -/ ⟨0x600100, 16, 0x10, 1, 0x0, 8, 0xFFFFFFFFFFFFFFFF, 0x0, 0x0, 0x0⟩,
  /- BUR_WIN_CFG -/ ⟨0x600108, 16, 0x10, 1, 0x0, 4, 0xFFFFF07, 0x0, 0x0, 0x0⟩]

def regsPlt : List RegDef := [
  /- PLT_STATUS -/ ⟨0x500000, 1, 0x0, 1, 0x0, 4, 0x0, 0x0, 0x0, 0x0⟩,
  /- PLT_VERSION -/ ⟨0x500008, 1, 0x0, 1, 0x0, 8, 0x0, 0x0, 0x0, 0x0⟩,
  /- PLT_STAGE_CNT -/ ⟨0x500010, 1, 0x0, 1, 0x0, 8, 0x0, 0x0, 0x0, 0x0⟩,
  /- PLT_REMOTE_CNT -/ ⟨0x500018, 1, 0x0, 1, 0x0, 8, 0x0, 0x0, 0x0, 0x0⟩,
  /- PLT_WB_LINES -/ ⟨0x500020, 1, 0x0, 1, 0x0, 8, 0x0, 0x0, 0x0, 0x0⟩,
  /- PLT_MOVE_CNT -/ ⟨0x500028, 1, 0x0, 1, 0x0, 8, 0x0, 0x0, 0x0, 0x0⟩,
  /- PLT_MOVE_FAIL_CNT -/ ⟨0x500030, 1, 0x0, 1, 0x0, 8, 0x0, 0x0, 0x0, 0x0⟩,
  /- PLT_ZERO_CNT -/ ⟨0x500038, 1, 0x0, 1, 0x0, 8, 0x0, 0x0, 0x0, 0x0⟩,
  /- PLT_LOST_CNT -/ ⟨0x500040, 1, 0x0, 1, 0x0, 8, 0x0, 0x0, 0x0, 0x0⟩,
  /- PLT_EVICT_CNT -/ ⟨0x500048, 1, 0x0, 1, 0x0, 8, 0x0, 0x0, 0x0, 0x0⟩,
  /- PLT_POOL_CFG -/ ⟨0x500100, 64, 0x20, 1, 0x0, 4, 0x0, 0x0, 0x0, 0x0⟩,
  /- PLT_POOL_WM -/ ⟨0x500104, 64, 0x20, 1, 0x0, 4, 0x0, 0x0, 0x0, 0x0⟩,
  /- PLT_POOL_BASE -/ ⟨0x500108, 64, 0x20, 1, 0x0, 8, 0x0, 0x0, 0x0, 0x0⟩,
  /- PLT_POOL_COUNT -/ ⟨0x500110, 64, 0x20, 1, 0x0, 4, 0x0, 0x0, 0x0, 0x0⟩,
  /- PLT_POOL_FREE -/ ⟨0x500114, 64, 0x20, 1, 0x0, 4, 0x0, 0x0, 0x0, 0x0⟩,
  /- PLT_POOL_RSV -/ ⟨0x500118, 64, 0x20, 1, 0x0, 4, 0x0, 0x0, 0x0, 0x0⟩]

def regsDlr : List RegDef := [
  /- DLR_STATUS -/ ⟨0x400000, 1, 0x0, 1, 0x0, 4, 0x0, 0x0, 0x0, 0x0⟩,
  /- DLR_ADM_CFG -/ ⟨0x400004, 1, 0x0, 1, 0x0, 4, 0x1FF, 0x0, 0x0, 0x0⟩,
  /- DLR_ROLE_CFG -/ ⟨0x400008, 1, 0x0, 1, 0x0, 4, 0xFFFFF1, 0x0, 0x0, 0x0⟩,
  /- DLR_ARRIVAL -/ ⟨0x400010, 1, 0x0, 1, 0x0, 8, 0x0, 0x0, 0x0, 0x0⟩,
  /- DLR_HIST_BASE -/ ⟨0x400018, 1, 0x0, 1, 0x0, 8, 0xFFFFFFFFFFFFFFFF, 0x0, 0x0, 0x0⟩,
  /- DLR_HIST_UNITS -/ ⟨0x400020, 1, 0x0, 1, 0x0, 4, 0xFFFFFFFF, 0x0, 0x0, 0x0⟩,
  /- DLR_ADMIT_CNT -/ ⟨0x400028, 1, 0x0, 1, 0x0, 8, 0x0, 0x0, 0x0, 0x0⟩,
  /- DLR_NOROOM_CNT -/ ⟨0x400030, 1, 0x0, 1, 0x0, 8, 0x0, 0x0, 0x0, 0x0⟩,
  /- DLR_LATE_CNT -/ ⟨0x400038, 1, 0x0, 1, 0x0, 8, 0x0, 0x0, 0x0, 0x0⟩,
  /- DLR_DEADLINE_CNT -/ ⟨0x400040, 1, 0x0, 1, 0x0, 8, 0x0, 0x0, 0x0, 0x0⟩,
  /- DLR_LATEDLV_CNT -/ ⟨0x400048, 1, 0x0, 1, 0x0, 8, 0x0, 0x0, 0x0, 0x0⟩,
  /- DLR_CANCEL_CNT -/ ⟨0x400050, 1, 0x0, 1, 0x0, 8, 0x0, 0x0, 0x0, 0x0⟩,
  /- DLR_COMMIT_CNT -/ ⟨0x400058, 1, 0x0, 1, 0x0, 8, 0x0, 0x0, 0x0, 0x0⟩,
  /- DLR_DISCARD_CNT -/ ⟨0x400060, 1, 0x0, 1, 0x0, 8, 0x0, 0x0, 0x0, 0x0⟩,
  /- DLR_ROLESW_CNT -/ ⟨0x400068, 1, 0x0, 1, 0x0, 8, 0x0, 0x0, 0x0, 0x0⟩,
  /- DLR_RECOMP_CNT -/ ⟨0x400070, 1, 0x0, 1, 0x0, 8, 0x0, 0x0, 0x0, 0x0⟩,
  /- DLR_TAKEOVER_CNT -/ ⟨0x400078, 1, 0x0, 1, 0x0, 8, 0x0, 0x0, 0x0, 0x0⟩,
  /- DLR_PAIR_STATE -/ ⟨0x400100, 8, 0x4, 1, 0x0, 4, 0x0, 0x0, 0x0, 0x0⟩,
  /- DLR_TEAM_STATE -/ ⟨0x400200, 64, 0x20, 1, 0x0, 4, 0x0, 0x0, 0x0, 0x0⟩,
  /- DLR_TEAM_LIM -/ ⟨0x400204, 64, 0x20, 1, 0x0, 4, 0x0, 0x0, 0x0, 0x0⟩,
  /- DLR_TEAM_TURN -/ ⟨0x400208, 64, 0x20, 1, 0x0, 8, 0x0, 0x0, 0x0, 0x0⟩,
  /- DLR_TEAM_CTX -/ ⟨0x400210, 64, 0x20, 1, 0x0, 4, 0x0, 0x0, 0x0, 0x0⟩,
  /- DLR_TEAM_MODEL -/ ⟨0x400214, 64, 0x20, 1, 0x0, 4, 0x0, 0x0, 0x0, 0x0⟩,
  /- DLR_TEAM_RST -/ ⟨0x400218, 64, 0x20, 1, 0x0, 4, 0x0, 0x0, 0x1, 0xFF000000⟩]

def regsNgv : List RegDef := [
  /- NGV_ID -/ ⟨0x900000, 1, 0x0, 1, 0x0, 4, 0x1FFF, 0x0, 0x0, 0x0⟩,
  /- NGV_SERIAL -/ ⟨0x900008, 1, 0x0, 1, 0x0, 8, 0x0, 0x0, 0x0, 0x0⟩,
  /- NGV_CFG -/ ⟨0x900010, 1, 0x0, 1, 0x0, 4, 0xFFFFFFF, 0x0, 0x0, 0x0⟩,
  /- NGV_ARB -/ ⟨0x900014, 1, 0x0, 1, 0x0, 4, 0xFFFFFF, 0x0, 0x0, 0x0⟩,
  /- NGV_STATUS -/ ⟨0x900018, 1, 0x0, 1, 0x0, 4, 0x0, 0x0, 0x0, 0x0⟩,
  /- NGV_TX_CNT -/ ⟨0x900020, 1, 0x0, 1, 0x0, 8, 0x0, 0x0, 0x0, 0x0⟩,
  /- NGV_RX_CNT -/ ⟨0x900028, 1, 0x0, 1, 0x0, 8, 0x0, 0x0, 0x0, 0x0⟩,
  /- NGV_TIMEOUT_CNT -/ ⟨0x900030, 1, 0x0, 1, 0x0, 8, 0x0, 0x0, 0x0, 0x0⟩,
  /- NGV_REJECT_CNT -/ ⟨0x900038, 1, 0x0, 1, 0x0, 8, 0x0, 0x0, 0x0, 0x0⟩,
  /- NGV_TTL_DROP_CNT -/ ⟨0x900040, 1, 0x0, 1, 0x0, 8, 0x0, 0x0, 0x0, 0x0⟩,
  /- NGV_RED_STALE_CNT -/ ⟨0x900048, 1, 0x0, 1, 0x0, 8, 0x0, 0x0, 0x0, 0x0⟩,
  /- NGV_LATE_RSP_CNT -/ ⟨0x900050, 1, 0x0, 1, 0x0, 8, 0x0, 0x0, 0x0, 0x0⟩,
  /- PORT_CTRL -/ ⟨0x901000, 22, 0x80, 1, 0x0, 4, 0x3FF, 0x0, 0x0, 0x0⟩,
  /- PORT_STATUS -/ ⟨0x901004, 22, 0x80, 1, 0x0, 4, 0x0, 0x0, 0x0, 0x0⟩,
  /- PORT_PEER_SERIAL -/ ⟨0x901008, 22, 0x80, 1, 0x0, 8, 0x0, 0x0, 0x0, 0x0⟩,
  /- PORT_CRED -/ ⟨0x901010, 22, 0x80, 1, 0x0, 4, 0xFFFFFFFF, 0x0, 0x0, 0x0⟩,
  /- PORT_PEER -/ ⟨0x901014, 22, 0x80, 1, 0x0, 4, 0x0, 0x0, 0x0, 0x0⟩,
  /- PORT_RTT -/ ⟨0x901018, 22, 0x80, 1, 0x0, 4, 0x0, 0x0, 0x0, 0x0⟩,
  /- PORT_FEC_CE -/ ⟨0x901020, 22, 0x80, 1, 0x0, 8, 0x0, 0x0, 0x0, 0x0⟩,
  /- PORT_FEC_UE -/ ⟨0x901028, 22, 0x80, 1, 0x0, 8, 0x0, 0x0, 0x0, 0x0⟩,
  /- PORT_CRC_CNT -/ ⟨0x901030, 22, 0x80, 1, 0x0, 8, 0x0, 0x0, 0x0, 0x0⟩,
  /- PORT_RETRY_CNT -/ ⟨0x901038, 22, 0x80, 1, 0x0, 8, 0x0, 0x0, 0x0, 0x0⟩,
  /- PORT_RETRAIN_CNT -/ ⟨0x901040, 22, 0x80, 1, 0x0, 8, 0x0, 0x0, 0x0, 0x0⟩,
  /- PORT_TX_FLITS -/ ⟨0x901048, 22, 0x80, 1, 0x0, 8, 0x0, 0x0, 0x0, 0x0⟩]

def regsNgv2 : List RegDef := [
  /- PORT_RX_FLITS -/ ⟨0x901050, 22, 0x80, 1, 0x0, 8, 0x0, 0x0, 0x0, 0x0⟩,
  /- PORT_PRBS -/ ⟨0x901058, 22, 0x80, 1, 0x0, 4, 0x7, 0x0, 0x0, 0x0⟩,
  /- PORT_PRBS_ERR -/ ⟨0x901060, 22, 0x80, 1, 0x0, 8, 0x0, 0x0, 0x0, 0x0⟩,
  /- NGV_SIG -/ ⟨0x903000, 256, 0x4, 1, 0x0, 4, 0x0, 0x0, 0x0, 0x0⟩,
  /- SLC_CFG -/ ⟨0x904000, 1, 0x0, 1, 0x0, 4, 0xFFFFFFFF, 0x0, 0x0, 0x0⟩,
  /- SLC_UPLINK -/ ⟨0x904004, 1, 0x0, 1, 0x0, 4, 0x3FFFFF, 0x0, 0x0, 0x0⟩,
  /- SLC_CTRL -/ ⟨0x904008, 1, 0x0, 1, 0x0, 4, 0x0, 0x0, 0x0, 0x3FF⟩,
  /- SLC_STATUS -/ ⟨0x90400C, 1, 0x0, 1, 0x0, 4, 0x0, 0x0, 0x0, 0x0⟩,
  /- SLC_HELD -/ ⟨0x904010, 1, 0x0, 1, 0x0, 4, 0x0, 0x0, 0x0, 0x0⟩,
  /- SLC_DROP_CNT -/ ⟨0x904018, 1, 0x0, 1, 0x0, 8, 0x0, 0x0, 0x0, 0x0⟩,
  /- SLC_RANK -/ ⟨0x904200, 128, 0x4, 1, 0x0, 4, 0x1FFF, 0x0, 0x0, 0x0⟩,
  /- NGV_DEST -/ ⟨0x910000, 4096, 0x8, 1, 0x0, 8, 0x1FFFFFFFFFFFF, 0x0, 0x0, 0x0⟩,
  /- NGV_RCTX -/ ⟨0x920000, 256, 0x100, 1, 0x0, 256, 0x0, 0x0, 0x0, 0x0⟩,
  /- SLC_ACC -/ ⟨0x930000, 4096, 0x4, 1, 0x0, 4, 0x2, 0x0, 0x0, 0x0⟩]

def regsDet : List RegDef := [
  /- DET_CFG -/ ⟨0xD00000, 1, 0x0, 1, 0x0, 4, 0x3, 0x0, 0x0, 0x0⟩,
  /- DET_STATUS -/ ⟨0xD00004, 1, 0x0, 1, 0x0, 4, 0x0, 0x5, 0x0, 0x0⟩,
  /- DET_RING_BASE -/ ⟨0xD00008, 1, 0x0, 1, 0x0, 8, 0xFFFFFFFFFFFFFFFF, 0x0, 0x0, 0x0⟩,
  /- DET_RING_SIZE -/ ⟨0xD00010, 1, 0x0, 1, 0x0, 4, 0xFFFFFF, 0x0, 0x0, 0x0⟩,
  /- DET_RING_HEAD -/ ⟨0xD00018, 1, 0x0, 1, 0x0, 8, 0x0, 0x0, 0x0, 0x0⟩,
  /- DET_RING_TAIL -/ ⟨0xD00020, 1, 0x0, 1, 0x0, 8, 0xFFFFFFFFFFFFFFFF, 0x0, 0x0, 0x0⟩,
  /- DET_SERIAL -/ ⟨0xD00028, 1, 0x0, 1, 0x0, 8, 0x0, 0x0, 0x0, 0x0⟩,
  /- DET_TLOG_BASE -/ ⟨0xD00030, 1, 0x0, 1, 0x0, 8, 0xFFFFFFFFFFFFFFFF, 0x0, 0x0, 0x0⟩,
  /- DET_TLOG_SIZE -/ ⟨0xD00038, 1, 0x0, 1, 0x0, 4, 0xFFFFFF, 0x0, 0x0, 0x0⟩,
  /- DET_TLOG_HEAD -/ ⟨0xD00040, 1, 0x0, 1, 0x0, 8, 0x0, 0x0, 0x0, 0x0⟩,
  /- DET_TLOG_TAIL -/ ⟨0xD00048, 1, 0x0, 1, 0x0, 8, 0xFFFFFFFFFFFFFFFF, 0x0, 0x0, 0x0⟩,
  /- DET_LOST_CNT -/ ⟨0xD00050, 1, 0x0, 1, 0x0, 8, 0x0, 0x0, 0x0, 0x0⟩,
  /- DET_HOLD_CNT -/ ⟨0xD00058, 1, 0x0, 1, 0x0, 8, 0x0, 0x0, 0x0, 0x0⟩,
  /- DET_WERR_CNT -/ ⟨0xD00060, 1, 0x0, 1, 0x0, 8, 0x0, 0x0, 0x0, 0x0⟩,
  /- DET_JOB_SRC -/ ⟨0xD00100, 1, 0x0, 1, 0x0, 8, 0xFFFFFFFFFFFFFFFF, 0x0, 0x0, 0x0⟩,
  /- DET_JOB_LEN -/ ⟨0xD00108, 1, 0x0, 1, 0x0, 4, 0xFFFFFFFF, 0x0, 0x0, 0x0⟩,
  /- DET_JOB_CTRL -/ ⟨0xD0010C, 1, 0x0, 1, 0x0, 4, 0x1FFFC, 0x0, 0x3, 0x0⟩,
  /- DET_JOB_RES -/ ⟨0xD00110, 1, 0x0, 1, 0x0, 8, 0xFFFFFFFFFFFFFFFF, 0x0, 0x0, 0x0⟩,
  /- DET_JOB_STATUS -/ ⟨0xD00118, 1, 0x0, 1, 0x0, 4, 0x0, 0x0, 0x0, 0x0⟩,
  /- DET_JOB_DONE -/ ⟨0xD0011C, 1, 0x0, 1, 0x0, 4, 0x0, 0x0, 0x0, 0x0⟩,
  /- DET_CAP_SERIAL -/ ⟨0xD00120, 1, 0x0, 1, 0x0, 8, 0xFFFFFFFFFFFFFFFF, 0x0, 0x0, 0x0⟩,
  /- DET_CAP_POINT -/ ⟨0xD00128, 1, 0x0, 1, 0x0, 4, 0xFFFF0FFF, 0x0, 0x0, 0x0⟩,
  /- DET_CAP_CYC -/ ⟨0xD0012C, 1, 0x0, 1, 0x0, 4, 0xFFFFFFFF, 0x0, 0x0, 0x0⟩,
  /- DET_CAP_ADDR -/ ⟨0xD00130, 1, 0x0, 1, 0x0, 8, 0xFFFFFFFFFFFFFFFF, 0x0, 0x0, 0x0⟩]

def regsHst : List RegDef := [
  /- HST_CFG -/ ⟨0x300000, 1, 0x0, 1, 0x0, 4, 0x1FFFF, 0x0, 0x0, 0x0⟩,
  /- HST_LINK -/ ⟨0x300004, 1, 0x0, 1, 0x0, 4, 0x0, 0x0, 0x0, 0x0⟩,
  /- HST_BAR4_BASE -/ ⟨0x300008, 1, 0x0, 1, 0x0, 8, 0xFFFFFFFFFFFFFFFF, 0x0, 0x0, 0x0⟩,
  /- HST_REJ_CNT -/ ⟨0x300010, 1, 0x0, 1, 0x0, 8, 0x0, 0x0, 0x0, 0x0⟩,
  /- HST_SHADOW_CNT -/ ⟨0x300018, 1, 0x0, 1, 0x0, 8, 0x0, 0x0, 0x0, 0x0⟩,
  /- HST_CPLTO_CNT -/ ⟨0x300020, 1, 0x0, 1, 0x0, 8, 0x0, 0x0, 0x0, 0x0⟩,
  /- FN_STATUS -/ ⟨0x310000, 64, 0x1000, 1, 0x0, 4, 0x0, 0x0, 0x0, 0x0⟩,
  /- FN_TENANT -/ ⟨0x310004, 64, 0x1000, 1, 0x0, 4, 0x3F, 0x0, 0x0, 0x0⟩,
  /- FN_ACC_ERR -/ ⟨0x310008, 64, 0x1000, 1, 0x0, 8, 0x0, 0x800, 0x0, 0x0⟩,
  /- FN_ACC_CNT -/ ⟨0x310010, 64, 0x1000, 1, 0x0, 8, 0x0, 0x0, 0x0, 0x0⟩,
  /- FN_IRQ -/ ⟨0x310018, 64, 0x1000, 1, 0x0, 4, 0xFFFFFF, 0x0, 0x0, 0x0⟩,
  /- RING_BASE -/ ⟨0x310100, 64, 0x1000, 4, 0x40, 8, 0xFFFFFFFFFFFFFFFF, 0x0, 0x0, 0x0⟩,
  /- RING_WB -/ ⟨0x310108, 64, 0x1000, 4, 0x40, 8, 0xFFFFFFFFFFFFFFFF, 0x0, 0x0, 0x0⟩,
  /- RING_CFG -/ ⟨0x310110, 64, 0x1000, 4, 0x40, 4, 0x7D, 0x0, 0x2, 0x0⟩,
  /- RING_HEAD -/ ⟨0x310114, 64, 0x1000, 4, 0x40, 4, 0x0, 0x0, 0x0, 0x0⟩,
  /- RING_TAIL -/ ⟨0x310118, 64, 0x1000, 4, 0x40, 4, 0x0, 0x0, 0x0, 0x0⟩,
  /- RING_STAT -/ ⟨0x31011C, 64, 0x1000, 4, 0x40, 4, 0x0, 0x0, 0x0, 0x0⟩]

def regsUhl : List RegDef := [
  /- UHL_STATUS -/ ⟨0xA00000, 1, 0x0, 1, 0x0, 4, 0x0, 0x800000, 0x0, 0x0⟩,
  /- UHL_RRC -/ ⟨0xA00008, 1, 0x0, 1, 0x0, 8, 0x0, 0x0, 0x0, 0x0⟩,
  /- UHL_RT_SET -/ ⟨0xA00010, 1, 0x0, 1, 0x0, 8, 0x0, 0x0, 0x0, 0xFFFFFFFFFFFFFFFF⟩,
  /- UHL_SNAP_T -/ ⟨0xA00018, 1, 0x0, 1, 0x0, 8, 0xFFFFFFFFFFFFFFFF, 0x0, 0x0, 0x0⟩,
  /- UHL_SNAP_STAT -/ ⟨0xA00020, 1, 0x0, 1, 0x0, 4, 0x0, 0x0, 0x0, 0x0⟩,
  /- UHL_SNAP_ACK -/ ⟨0xA00024, 1, 0x0, 1, 0x0, 4, 0x0, 0x0, 0x0, 0x0⟩,
  /- UHL_CRC_CNT -/ ⟨0xA00028, 1, 0x0, 1, 0x0, 8, 0x0, 0x0, 0x0, 0x0⟩,
  /- UHL_WRAP_CNT -/ ⟨0xA00030, 1, 0x0, 1, 0x0, 8, 0x0, 0x0, 0x0, 0x0⟩,
  /- UHL_SYNC_MISS_CNT -/ ⟨0xA00038, 1, 0x0, 1, 0x0, 8, 0x0, 0x0, 0x0, 0x0⟩,
  /- UHL_SNAP_LATE_CNT -/ ⟨0xA00040, 1, 0x0, 1, 0x0, 8, 0x0, 0x0, 0x0, 0x0⟩,
  /- UHL_SNAP_DROP_CNT -/ ⟨0xA00048, 1, 0x0, 1, 0x0, 8, 0x0, 0x0, 0x0, 0x0⟩,
  /- UHL_LEAD_CONFLICT_CNT -/ ⟨0xA00050, 1, 0x0, 1, 0x0, 8, 0x0, 0x0, 0x0, 0x0⟩,
  /- UHL_ROSTER -/ ⟨0xA00100, 128, 0x10, 1, 0x0, 4, 0x0, 0x0, 0x0, 0x0⟩,
  /- UHL_ROSTER_SER -/ ⟨0xA00108, 128, 0x10, 1, 0x0, 8, 0x0, 0x0, 0x0, 0x0⟩]

def regsUmp : List RegDef := [
  /- UMP_STATUS -/ ⟨0xB00000, 1, 0x0, 1, 0x0, 4, 0x0, 0x0, 0x0, 0x0⟩,
  /- UMP_VERSION -/ ⟨0xB00004, 1, 0x0, 1, 0x0, 4, 0x0, 0x0, 0x0, 0x0⟩,
  /- UMP_STAGE_CMD -/ ⟨0xB00008, 1, 0x0, 1, 0x0, 4, 0x0, 0x0, 0x0, 0x7⟩,
  /- UMP_STAGE_SRC -/ ⟨0xB00010, 1, 0x0, 1, 0x0, 8, 0xFFFFFFFFFFFFFFFF, 0x0, 0x0, 0x0⟩,
  /- UMP_STAGE_STATUS -/ ⟨0xB00018, 1, 0x0, 1, 0x0, 4, 0x0, 0x0, 0x0, 0x0⟩,
  /- UMP_SWITCH -/ ⟨0xB0001C, 1, 0x0, 1, 0x0, 4, 0x0, 0x0, 0x0, 0xFF000000⟩,
  /- UMP_STAGE_FAIL -/ ⟨0xB00020, 1, 0x0, 1, 0x0, 16, 0x0, 0x0, 0x0, 0x0⟩,
  /- UMP_SVC_OUT -/ ⟨0xB00030, 1, 0x0, 1, 0x0, 4, 0x0, 0x0, 0x0, 0x1⟩,
  /- SEC_STATE -/ ⟨0xB00040, 1, 0x0, 1, 0x0, 4, 0x0, 0x0, 0x0, 0x0⟩,
  /- SEC_CMD -/ ⟨0xB00044, 1, 0x0, 1, 0x0, 4, 0x0, 0x0, 0x0, 0xFF00000F⟩,
  /- UMP_BOOT -/ ⟨0xB00050, 1, 0x0, 1, 0x0, 4, 0x0, 0x0, 0x0, 0x0⟩,
  /- TEL_TJ -/ ⟨0xB00100, 1, 0x0, 1, 0x0, 4, 0x0, 0x0, 0x0, 0x0⟩,
  /- TEL_POWER -/ ⟨0xB00104, 1, 0x0, 1, 0x0, 4, 0x0, 0x0, 0x0, 0x0⟩,
  /- TEL_ENERGY -/ ⟨0xB00108, 1, 0x0, 1, 0x0, 8, 0x0, 0x0, 0x0, 0x0⟩,
  /- TEL_SNAP_SEQ -/ ⟨0xB00110, 1, 0x0, 1, 0x0, 4, 0x0, 0x0, 0x0, 0x0⟩,
  /- TEL_SNAP_T -/ ⟨0xB00118, 1, 0x0, 1, 0x0, 8, 0x0, 0x0, 0x0, 0x0⟩,
  /- TEL_RAIL -/ ⟨0xB00300, 10, 0x8, 1, 0x0, 8, 0x0, 0x0, 0x0, 0x0⟩,
  /- TEL_TJ_CLU -/ ⟨0xB00400, 64, 0x8, 1, 0x0, 8, 0x0, 0x0, 0x0, 0x0⟩]

def regsShc : List RegDef := [
  /- SHC_CMD -/ ⟨0xE00000, 1, 0x0, 1, 0x0, 4, 0x0, 0x0, 0x0, 0xFF7F⟩,
  /- SHC_CLAIM -/ ⟨0xE00100, 26, 0x4, 1, 0x0, 4, 0x0, 0x0, 0x0, 0x0⟩,
  /- SHC_TMR_CFG -/ ⟨0xE00200, 8, 0x10, 1, 0x0, 4, 0x7, 0x0, 0x0, 0x0⟩,
  /- SHC_TMR_PERIOD -/ ⟨0xE00204, 8, 0x10, 1, 0x0, 4, 0xFFFFFFFF, 0x0, 0x0, 0x0⟩,
  /- SHC_TMR_CNT -/ ⟨0xE00208, 8, 0x10, 1, 0x0, 4, 0x0, 0x0, 0x0, 0x0⟩,
  /- SHC_TMR_STATUS -/ ⟨0xE00300, 1, 0x0, 1, 0x0, 4, 0x0, 0xFF, 0x0, 0x0⟩]

def regsClk : List RegDef := [
  /- CLK_STATUS -/ ⟨0x100000, 1, 0x0, 1, 0x0, 4, 0x0, 0x3FC00, 0x0, 0x0⟩,
  /- CLK_XSTART -/ ⟨0x100004, 1, 0x0, 1, 0x0, 4, 0xFFFFF, 0x0, 0x0, 0x0⟩,
  /- CLK_XCTRL -/ ⟨0x100008, 1, 0x0, 1, 0x0, 4, 0x3, 0x0, 0x0, 0x0⟩,
  /- CLK_GATE -/ ⟨0x10000C, 1, 0x0, 1, 0x0, 4, 0x1, 0x0, 0x0, 0x0⟩,
  /- CLK_CLKOUT -/ ⟨0x100010, 1, 0x0, 1, 0x0, 4, 0x7FFF, 0x0, 0x0, 0x0⟩,
  /- CLK_PLL_CFG -/ ⟨0x100020, 6, 0x4, 1, 0x0, 4, 0xFFFFFFFF, 0x0, 0x0, 0x0⟩,
  /- CLK_DOM_SEL -/ ⟨0x100040, 4, 0x4, 1, 0x0, 4, 0x7, 0x0, 0x0, 0x0⟩,
  /- CLK_DOM_CYC -/ ⟨0x100060, 4, 0x8, 1, 0x0, 8, 0x0, 0x0, 0x0, 0x0⟩]

/-- Every register of the device. -/
def regMap : List RegDef :=
  regsGlb ++ regsCore ++ regsCore2 ++ regsPwr ++ regsFlt ++ regsVlt ++ regsGdr ++ regsBur ++ regsPlt ++ regsDlr ++ regsNgv ++ regsNgv2 ++ regsDet ++ regsHst ++ regsUhl ++ regsUmp ++ regsShc ++ regsClk

/-- Does the offset lie in one of the register's instances? Answers the instance's own offset. -/
def RegDef.instance? (d : RegDef) (a : Nat) : Option Nat :=
  if a < d.base then none
  else
    let x := a - d.base
    let i := if d.n1 = 1 then 0 else x / d.s1
    let y := x - i * d.s1
    let j := if d.n2 = 1 then 0 else y / d.s2
    if i < d.n1 && j < d.n2 && y - j * d.s2 < d.bytes then some (d.base + i * d.s1 + j * d.s2) else none

/-- The register that holds a BAR0 offset, and where it starts. -/
def findReg (a : Nat) : List RegDef → Option (RegDef × Nat)
  | [] => none
  | d :: t =>
    match d.instance? a with
    | some b => some (d, b)
    | none => findReg a t

/-- Reset values other than zero: base, instances, stride, value, and the bits a fuse or strap sets (R11). -/
def resetMap : List (Nat × Nat × Nat × Nat × Nat) := [
  /- GLB_ID -/ (0x0, 1, 0x0, 0x1D74B000, 0xFF),
  /- GLB_DET_CLASS -/ (0x8, 1, 0x0, 0x11000000B0, 0xFFFFFF00),
  /- CLU_REPAIR -/ (0xC00800, 64, 0x8, 0x0, 0xFFFFFFFF),
  /- VLT_CTRL -/ (0x700000, 1, 0x0, 0x120D, 0x0),
  /- VLT_SITE_SPARE -/ (0x700044, 1, 0x0, 0x0, 0xFFFFFFFF),
  /- GDR_CFG -/ (0x800000, 1, 0x0, 0x0, 0x3),
  /- GDR_POLICY -/ (0x80000C, 1, 0x0, 0x5100408, 0x0),
  /- GDR_RGN_STATE -/ (0x800100, 32, 0x20, 0xFF00, 0x0),
  /- BUR_STATUS -/ (0x600000, 1, 0x0, 0x1, 0x0),
  /- BUR_TABLE_SEL -/ (0x600004, 1, 0x0, 0x271, 0x0),
  /- DLR_ADM_CFG -/ (0x400004, 1, 0x0, 0x108, 0x0),
  /- DLR_ROLE_CFG -/ (0x400008, 1, 0x0, 0x40141, 0x0),
  /- DLR_TEAM_STATE -/ (0x400200, 64, 0x20, 0x3, 0x0),
  /- NGV_SERIAL -/ (0x900008, 1, 0x0, 0x0, 0xFFFFFFFFFFFFFFFF),
  /- NGV_CFG -/ (0x900010, 1, 0x0, 0xF281010, 0x0),
  /- NGV_ARB -/ (0x900014, 1, 0x0, 0x20204, 0x0),
  /- PORT_CTRL -/ (0x901000, 22, 0x80, 0x3FF, 0x0),
  /- PORT_CRED -/ (0x901010, 22, 0x80, 0x18082040, 0x0),
  /- FLT_POLICY -/ (0xC00004, 1, 0x0, 0x533C210, 0x0),
  /- FLT_BUDGET -/ (0xC00010, 1, 0x0, 0x4001000, 0x3FF),
  /- HST_CFG -/ (0x300000, 1, 0x0, 0x64, 0x0),
  /- FN_IRQ -/ (0x310018, 64, 0x1000, 0x1, 0x0),
  /- UHL_STATUS -/ (0xA00000, 1, 0x0, 0x0, 0x3),
  /- CLK_XSTART -/ (0x100004, 1, 0x0, 0x0, 0xFFFFF),
  /- CLK_XCTRL -/ (0x100008, 1, 0x0, 0x3, 0xC),
  /- CLK_GATE -/ (0x10000C, 1, 0x0, 0x1, 0x0),
  /- CLK_PLL_CFG -/ (0x100020, 6, 0x4, 0xB1, 0x0),
  /- CLK_DOM_SEL 1 -/ (0x100044, 1, 0, 0x1, 0),
  /- CLK_DOM_SEL 2 -/ (0x100048, 1, 0, 0x1, 0),
  /- CLK_DOM_SEL 3 -/ (0x10004C, 1, 0, 0x2, 0),
  /- PWR_CFG -/ (0x200008, 1, 0x0, 0x7, 0x0),
  /- PWR_CAP -/ (0x20000C, 1, 0x0, 0x2A8, 0x0),
  /- PWR_VID -/ (0x200010, 1, 0x0, 0x0, 0xFFFFFFFF),
  /- PORT_PRBS -/ (0x901058, 22, 0x80, 0x6, 0x0)]

/-- Is `a` one of `n` instances, `s` bytes apart, from `base`? -/
def atStride (a base n s : Nat) : Bool :=
  if n = 1 then a == base else decide (base ≤ a) && (a - base) % s == 0 && decide ((a - base) / s < n)

/-- What the fuses or straps behind a register set it to, beside the plain bits of `mask` (R11): the start-up time of a crystal by
the strap XSTART (Table CLK-3), the data rate, 3 taken as 0 (Table RST-2), the core voltage by a fused code from 0 to 16 (R605), and
column states from 0 to 10 (Table MSH-1). -/
def fuseBits (a mask : Nat) : Nat :=
  let f := Config.fuse a
  if a = 0x100004 then (match f % 4 with
    | 0 => 8000
    | 1 => 16000
    | 2 => 40000
    | _ => 80000)
  else if a = 0x200010 then 720 + 5 * (f % 17)
  else if a = 0x800000 then f % 4 % 3
  else if atStride a 0xC00800 64 8 then ((List.range 8).map (fun k => f / 16 ^ k % 11 * 16 ^ k)).sum
  else Nat.land f mask

/-- Lookup in the reset map. -/
def resetIn (a : Nat) : List (Nat × Nat × Nat × Nat × Nat) → Nat
  | [] => 0
  | (b, n, s, v, fuse) :: t =>
    if atStride a b n s then v + (if fuse = 0 then 0 else fuseBits a fuse) else resetIn a t

/-- Reset value of the register at a BAR0 offset. Every register no row names resets to zero. -/
def regReset (a : Nat) : Nat :=
  if 0x310000 ≤ a && a < 0x350000 && (a - 0x310000) % 0x1000 / 0x40 * 0x40 + 0x10 == (a - 0x310000) % 0x1000
      && decide (0x100 ≤ (a - 0x310000) % 0x1000 && (a - 0x310000) % 0x1000 < 0x200) then 0x10
  else resetIn a resetMap

end Sys2Proof.Machine
end

