-- ==== Sys2Proof/Machine/CoreState.lean ====
section
/-! DEFINITION. The state of one logical core ("Programming a core", "The plane engine", "Accumulator memory and the
epilogue", "The dice bank", "Instruction reference: movement"): everything the spec gives a core, as plain data. -/

namespace Sys2Proof.Machine

/-- CORE_STATUS.EXEC (Table ISA-9). -/
inductive Exec where
  | idle | issuing | atSect | atWait | interlock | atEnd | halted
deriving DecidableEq, Repr

/-- Number of a CORE_STATUS.EXEC value (Table ISA-9). -/
def execCode : Exec → Nat
  | .idle => 0
  | .issuing => 1
  | .atSect => 2
  | .atWait => 3
  | .interlock => 4
  | .atEnd => 5
  | .halted => 6

/-! ## Core faults (Table ISA-6) -/

/-- The faults of a core (Table ISA-6). -/
inductive CoreFault where
  | illegalOp | badOperand | fmtCode | tileOrder | accFormat | accState | accRows | accSpill | accBusy | rollConflict
  | writeClash | unitBusy | memRange | memAlign | vaultQueue | ovlOrder | sectOrder | loopDepth | meshLoose | meshSync
  | waitTimeout | sramEcc
deriving DecidableEq, Repr

/-- Fault code of Table ISA-6. -/
def CoreFault.code : CoreFault → Nat
  | .illegalOp => 0x01
  | .badOperand => 0x02
  | .fmtCode => 0x03
  | .tileOrder => 0x04
  | .accFormat => 0x05
  | .accState => 0x06
  | .accRows => 0x07
  | .accSpill => 0x08
  | .accBusy => 0x09
  | .rollConflict => 0x0A
  | .writeClash => 0x0B
  | .unitBusy => 0x0C
  | .memRange => 0x0D
  | .memAlign => 0x0E
  | .vaultQueue => 0x0F
  | .ovlOrder => 0x10
  | .sectOrder => 0x11
  | .loopDepth => 0x12
  | .meshLoose => 0x13
  | .meshSync => 0x14
  | .waitTimeout => 0x15
  | .sramEcc => 0x16

/-- Fault class: 1 P, 2 V, 3 H (Tables ISA-6, ISA-12). -/
def CoreFault.cls : CoreFault → Nat
  | .meshSync => 2
  | .waitTimeout => 2
  | .sramEcc => 3
  | _ => 1

/-- What holds a bundle in a loose section (R149): bytes of data memory that await a vault line, a back buffer without a ready tile, two
outstanding tile loads, a full vault queue, an overlay load into a bank. -/
inductive Interlock where
  | span (a len : Nat)
  | tile
  | outstanding
  | queue
  | overlay (bank : Nat)
deriving DecidableEq, Repr

/-- The mode of the plane engine (R168); reset w = 4, k = 1, XB1 (R166, Table PLN-8). -/
structure Mode where
  w : Nat := 4
  k : Nat := 1
  xb : Nat := 1
deriving DecidableEq, Repr

/-- A write that lands later: a register or data-memory write waiting for its latency (R137), or a read that a unit
makes in a later cycle (`vault` marks bytes that come from a vault line, R149). `cap` appends `len` bytes at data-memory address `addr` to the capture buffer `tag`. -/
inductive Landing where
  | regS (r : BitVec 5) (x : Word)
  | regV (r : BitVec 4) (x : Vector Word 32)
  | dmem (vault : Bool) (addr : Nat) (bytes : List Byte)
  | imem (addr : Nat) (bytes : List Byte)
  | cap (tag addr len : Nat)
deriving DecidableEq, Repr

/-- An entry of a core's timeline: `cycle` is the first cycle that sees the write; a capture made in a cycle sees the
writes visible in that cycle. -/
structure Item where
  cycle : Nat
  ord : Nat
  act : Landing
deriving DecidableEq, Repr

/-- What a request in the vault port's queue does with its lines (R140, Table ISA-23): load into data memory (VLD, PWK),
store from data memory (VST, PWK write), load into instruction memory (OVLD), or deliver to a tile load. -/
inductive VKind where
  | load (walker : Bool)
  | store
  | overlay
  | tile (tag : Nat)
deriving DecidableEq, Repr

/-- A vault line as it is stored: the 32 data bytes it was written with, its poison flag, and the errors since in its 35 symbols (none
where the list is empty) and its three poison bits (R270). -/
structure LineCopy where
  bytes : List Byte
  flag : Bool := false
  err : List Nat × BitVec 3 := ([], 0#3)
deriving DecidableEq, Repr

/-- The last line that the core port wrote: the line, its cycle, and what was stored before (Table VLT-2). -/
structure CoreWrite where
  line : Nat
  cycle : Nat
  old : LineCopy
deriving DecidableEq, Repr

/-- One line of a request: its line number in the vault and the spans (offset in the line, memory address, length) that
it moves. -/
structure VLine where
  line : Nat
  spans : List (Nat × Nat × Nat)
deriving DecidableEq, Repr

/-- One request of the vault port's queue: its lines still to serve, in order, and the first cycle in which its next
line may be served. -/
structure VReq where
  kind : VKind
  lines : List VLine
  earliest : Nat
  ord : Nat
deriving DecidableEq, Repr

/-- The loading instruction behind an outstanding tile (R67, R169, R171). -/
inductive TileKind where
  | quint (off : Nat)
  | wide (off tpos : Nat)
  | coded (off : Nat)
  | pairs (inputMajor : Bool)
deriving DecidableEq, Repr

/-- An outstanding tile load (R68). `bytes` are the bytes of the lines delivered so far, `base` the base tile of a DELTA
block, `readyAt` the ready cycle once it is known, `bad` that a line was uncorrectable. `lastLine`, `lastAt` and `lastBad` say which line
came last, when, and whether it was uncorrectable; `sharedFrom` is the load whose last line this one shares, `follows` the coded one ahead
whose last line is not known yet (R170, R314); `due` marks a ready tile that waits for the back buffer (R69, R149), and `held` one that a
loose section lets wait. -/
structure TileLoad where
  tag : Nat
  kind : TileKind
  pc : Nat
  bytes : List Byte
  base : List Byte
  bad : Bool
  served : Bool
  readyAt : Nat
  sharedFrom : Option Nat
  follows : Option Nat := none
  lastLine : Nat := 0
  lastAt : Nat := 0
  lastBad : Bool := false
  due : Bool := false
  held : Bool := false
deriving DecidableEq, Repr

/-- States of an accumulation group (Table ACC-1). -/
inductive GroupSt where
  | closed | opened | suspended
deriving DecidableEq, Repr

def groupStCode : GroupSt → Nat
  | .closed => 0
  | .opened => 1
  | .suspended => 2

/-- One accumulation group (R88, Tables ACC-9 to ACC-11). `openAt` is the first cycle in which a PLN finds it OPEN (R137), `busyUntil`
the first after a GSPL, a GRES RELOAD or an EPI of it (R92). -/
structure Group where
  st : GroupSt := .closed
  rowBase : Nat := 0
  rowCount : Nat := 0
  mask : Nat := 0
  guard : Nat := 0
  n : Nat := 0
  stipple : Bool := false
  roll : Nat := 0
  recAddr : Nat := 0
  w : Nat := 0
  k : Nat := 0
  lexp : Int := 0
  empty : Bool := true
  nb : Nat := 0
  rseq : Nat := 0
  recHeld : Bool := false
  openAt : Nat := 0
  busyUntil : Nat := 0
deriving DecidableEq, Repr

/-- Is the group OPEN to a PLN of cycle `cyc`? GOPN and GRES RESET open it after their 2 cycles (R137), and a GSPL that frees it makes it
SUSPENDED when its cycles are over: until then a PLN meets the unfinished GSPL (R92, R98). DEDUCED, log entry 159. -/
def Group.openIn (g : Group) (cyc : Nat) : Bool :=
  (g.st == .opened && decide (g.openAt ≤ cyc)) || (g.st == .suspended && decide (cyc < g.busyUntil))

/-- One tile row of accumulator memory and its row tag (R85). -/
structure AccRow where
  cols : List Int := List.replicate 64 0
  poison : Bool := false
  owed : Nat := 0
deriving DecidableEq, Repr

/-- One vector of a PLN on its way to its row (R66, R78): `tag` is the capture buffer of its block's bytes. -/
structure PlnVec where
  row : Nat
  blk : Nat
  tag : Nat
  writeEnd : Nat
deriving DecidableEq, Repr

/-- A PLN whose rows are not all written. -/
structure PlnJob where
  g : Nat
  tile : Tile
  w : Nat
  xb : Nat
  compact : Bool
  triple : Bool
  jBlk : Nat
  ctab : List Nat
  xtab : List OvfEntry
  vecs : List PlnVec
deriving DecidableEq, Repr

/-- The EPI descriptor (Table ISA-18). -/
structure EpiDesc where
  outAddr : Nat
  outStride : Nat
  scaleAddr : Nat
  sideAddr : Nat
  zAddr : Nat
  zStride : Nat
  sidevAddr : Nat
  sidevStride : Nat
  qroll : Nat
  outShift : Nat
  ow : Nat
  zw : Nat
  qcnt : Nat
  olistMask : Nat
  osideAddr : Nat
  osideStride : Nat
  ovfAddr : Nat
  oblkBase : Nat
  reservedZero : Bool
deriving DecidableEq, Repr

/-- An EPI in progress (R185): rows are written in ascending order. -/
structure EpiJob where
  word : EpiWord
  desc : EpiDesc
  rowCost : Nat
  issued : Nat
  nextRow : Nat
deriving DecidableEq, Repr

/-- A VENC between its issue and its write cycle (R197). -/
structure VencJob where
  xs : List Word
  chan : Nat
  dst : Nat
  w : Nat
  outShift : Nat
  qstip : Bool
  compact : Bool
  qroll : Nat
  ovfAddr : Nat
  blk : Nat
  cnt : Nat
  writeEnd : Nat
deriving DecidableEq, Repr

/-- An XLD or CLD in progress: its capture buffer, its completion cycle and its bundle (R177, R178). -/
structure ListLoad where
  tag : Nat
  channels : Nat
  doneCycle : Nat
  pc : Nat
deriving DecidableEq, Repr

/-- The run of tokens a streamed PWK moves (R235): etch width, plate exponent, part, first token, tokens. -/
structure PlateRun where
  w : Nat
  log2n : Nat
  part : Nat
  t0 : Nat
  ntok : Nat
deriving DecidableEq, Repr

/-- An encoding PUT's window (R325, R327): the window's number, and once its first block began the captured format, base, slot count,
first slot and blocks coded; `bad` where it breaks R325. -/
structure EncJob where
  win : Nat
  started : Bool := false
  bad : Bool := false
  fmt : Nat := 0
  base : Nat := 0
  slots : Nat := 0
  first : Nat := 0
  coded : Nat := 0
deriving DecidableEq, Repr

/-- A DMA descriptor posted on a queue (Tables ISA-25, ISA-26, R237). -/
structure DmaDesc where
  idx : Nat
  kind : Nat
  cls : Nat
  dmAddr : Nat
  bytes : Nat
  gaddr : Nat
  first : Nat
  blocks : Nat
  plate : Option PlateRun
  enc : Option EncJob := none
  issued : Bool := false
  phase : Nat := 0
  crcFail : Bool := false
  cut : Bool := false
  got : Bool := false
  clash : Bool := false
  done : Bool
deriving DecidableEq, Repr

/-- One DMA queue (R224, R225, R239). -/
structure DmaQueue where
  posted : Nat := 0
  done : Nat := 0
  err : Option (Nat × Nat) := none
  descs : List DmaDesc := []
deriving DecidableEq, Repr

/-- The current section (Table ISA-10) and its flags (R150); `looseAt` is the cycle of its first LOOSE wait (R504). -/
structure Sect where
  id : Nat := 0
  startFrame : Nat := 0
  late : Bool := false
  stalled : Bool := false
  barrier : Bool := false
  loose : Bool := false
  lost : Nat := 0
  looseAt : Nat := 0
deriving DecidableEq, Repr

/-- A section that a SECT or an ALIGN wait has named and that has not started (R142, R145): `start` is its first cycle
in turn cycles once it is known. -/
structure SectNext where
  id : Nat
  start : Option Nat
  late : Bool
  barrier : Bool
  issued : Nat
deriving DecidableEq, Repr

/-- A WAIT in progress (R145, R147, R227). -/
structure WaitSt where
  q : Nat
  target : Nat
  expiry : Nat
  align : Bool
  id : Nat
  issued : Nat
deriving DecidableEq, Repr

/-- An open loop level: first body bundle and LEND (R212). -/
structure LoopLevel where
  start : Nat
  lend : Nat
deriving DecidableEq, Repr

/-- The fault record of a turn (Tables ISA-12, ISA-13; R156). -/
structure FaultRec where
  code : Nat := 0
  cls : Nat := 0
  slot : Nat := 0
  atIssue : Bool := false
  bundle : Nat := 0
  ovl : Nat := 0
  turn : Nat := 0
  cyc : Nat := 0
  opd : Nat := 0
deriving DecidableEq, Repr

/-- The ACC events of Tables ACC-7 and ACC-8. -/
structure AccEvents where
  sat : Nat := 0
  shift : Nat := 0
  clampFlag : Bool := false
  satFlag : Bool := false
deriving DecidableEq, Repr

def AccEvents.add (a b : AccEvents) : AccEvents :=
  ⟨a.sat + b.sat, a.shift + b.shift, a.clampFlag || b.clampFlag, a.satFlag || b.satFlag⟩

/-- One section as the timing log records it (R150, R493): core cycle of start, id, flags and
cycles stalled; and when its first LOOSE wait issued (R504). -/
structure SectLog where
  start : Nat
  id : Nat
  late : Bool
  stalled : Bool
  loose : Bool
  barrier : Bool
  lost : Nat
  looseAt : Nat := 0
deriving DecidableEq, Repr

/-- One logical core. -/
structure Core where
  -- register files (Table ISA-2)
  s : Vector Word 32 := Vector.replicate 32 0#32
  v : Vector (Vector Word 32) 16 := Vector.replicate 16 (Vector.replicate 32 0#32)
  a : Vector Dword 8 := Vector.replicate 8 0#64
  lc : Vector (BitVec 16) 3 := Vector.replicate 3 0#16
  loops : List LoopLevel := []
  -- issue (R133, R137, R141)
  exec : Exec := .idle
  pc : Nat := 0
  nextPc : Nat := 0
  now : Nat := 0
  nextIssue : Nat := 0
  inTurn : Bool := false
  turnCyc : Nat := 0
  jumped : Bool := false
  bundleOpen : Bool := false
  bundleSlot : Nat := 0
  bundleStall : List Interlock := []
  bundleFaults : List (Nat × CoreFault × Nat) := []
  stalledOn : List Interlock := []
  bundleCtl : Bool := false
  bundleMov : Bool := false
  bundleAddr : List Nat := []
  timeline : List Item := []
  caps : List (Nat × List Byte) := []
  nextTag : Nat := 0
  -- sections and waits (R142 to R150); `prevLoose` says whether the section before the present one was loose (R149)
  sect : Sect := {}
  sectNext : Option SectNext := none
  prevLoose : Bool := false
  wait : Option WaitSt := none
  sectLog : List SectLog := []
  stall : Nat := 0
  lateCnt : Nat := 0
  -- overlays (R151 to R153)
  ovlA : Nat := 0
  ovlB : Nat := 0
  -- faults (R154 to R156); `eccNext` is the slot and bundle of an SRAM error that belongs to the next attempt or turn (R510)
  fault : FaultRec := {}
  faultCnt : Nat := 0
  eccNext : Option (Nat × Nat) := none
  -- plane engine (R65, R68, R84, R166)
  mode : Mode := {}
  front : Option Tile := none
  back : Option Tile := none
  backReady : Bool := false
  backAt : Nat := 0
  tileFreed : Nat := 0
  tiles : List TileLoad := []
  ctab : List Nat := []
  xtab : List OvfEntry := []
  xld : Option ListLoad := none
  cld : Option ListLoad := none
  plns : List PlnJob := []
  plnVecCnt : Nat := 0
  plnBusyCnt : Nat := 0
  plnXcpCnt : Nat := 0
  -- occupancy: the first cycle in which the unit is free (R134, R164, R204)
  engFree : Nat := 0
  grpFree : Nat := 0
  vecFree : Nat := 0
  diceFree : Nat := 0
  meshFree : Nat := 0
  walkFree : Nat := 0
  presenting : Nat := 0
  -- accumulator memory and groups (R85, R88)
  groups : Vector Group 8 := Vector.replicate 8 {}
  acc : List (Nat × AccRow) := []
  epi : Option EpiJob := none
  vencs : List VencJob := []
  -- dice bank (R122, R130)
  teamSeed : Nat := 0
  turn : Nat := 0
  rank : Nat := 0
  seedLoaded : Bool := false
  seeds : List (Nat × Nat) := []
  drawCnt : Nat := 0
  -- vault port (R140)
  vq : List VReq := []
  portNext : Nat := 0
  vqFreed : Nat := 0
  vltLineCnt : Nat := 0
  vltCe : Nat := 0
  vltUe : Nat := 0
  coreWrite : Option CoreWrite := none
  -- DMA queues (R224)
  dq : Vector DmaQueue 8 := Vector.replicate 8 {}
  -- mesh (R233, R239)
  meshErr : Bool := false
  syncDrop : Bool := false
  meshErrCnt : Nat := 0
  meshBeatCnt : Nat := 0
  -- format and accumulator flags: committed and pending (R64, R108)
  fmt : FmtEvents := {}
  fmtSticky : BitVec 4 := 0#4
  fmtPend : FmtEvents := {}
  accCnt : AccEvents := {}
  accPend : AccEvents := {}
  -- team load (R158, R354)
  resTop : Nat := 0
  pwkFmt : Word := 0#32
  -- plate walker (R353)
  walkStatus : Nat := 0
  pwkVltCnt : Nat := 0
  pwkStrCnt : Nat := 0
  pwkTokCnt : Nat := 0
  -- causes of the turn's fault check found on this core (R272, R507)
  ueLines : List Nat := []
  poisonTile : List Nat := []
deriving DecidableEq, Repr

/-- A core and what it was before the bundle it is issuing (R154: a fault at issue restores it). -/
structure CoreCell where
  cur : Core := {}
  before : Core := {}
deriving DecidableEq, Repr

end Sys2Proof.Machine
end

