-- ==== Sys2Proof/Machine/BoardState.lean ====
section
/-! DEFINITION. The board: clusters, column repair states, the static mesh's traffic in flight, vault sites and GDDR
regions ("The board", "Vault memory", "GDDR7 regions"). -/

namespace Sys2Proof.Machine

/-- Clock domain of a cluster (R248). -/
inductive Dom where
  | off | waking | run
deriving DecidableEq, Repr

/-- Code of CLU_STATE.DOM (Table MSH-4). -/
def domCode : Dom → Nat
  | .off => 0
  | .waking => 1
  | .run => 2

/-- One cluster (R246, R248, Tables MSH-1, MSH-4, MSH-5). `wakeReq` and `stopReq` are commands that wait for the next FREF
boundary; `cols` are the eight column repair states, `spares` the count of free ones that CLU_STATE shows, brought up to date at
every domain transition and repair (R258). -/
structure Cluster where
  dom : Dom := .off
  wakeReq : Bool := false
  stopReq : Bool := false
  cols : List Nat := List.replicate 8 8
  spares : Nat := 0
  team : Option Nat := none
  since : Nat := 0
  refreshRow : Nat := 0
deriving DecidableEq, Repr

/-- CLU_STATE shows how many columns are in state SPARE. -/
def Cluster.shown (c : Cluster) : Cluster := { c with spares := (c.cols.filter (fun k => k == 8)).length }

/-- What a mesh transfer does at a core (R229, R232). -/
inductive BeatKind where
  | write (dst : Nat)
  | partialSum (dst lo hi beat : Nat) (vertical fp : Bool)
deriving DecidableEq, Repr

/-- A 32-byte beat or reduction partial on its way to a core. `arrive` is the cycle at whose end it is written, in turn
cycles; `tag` the turn frame in which the sender's section started (R144). Beats of one broadcast share a `flow`; `hops` is
how many links this one crosses. Its bytes are the sender's capture buffer `capTag` at `capOff`, or `data` for a partial. -/
structure Beat where
  flow : Nat
  hops : Nat
  src : Nat
  dst : Nat
  issued : Nat
  kind : BeatKind
  capTag : Nat
  capOff : Nat
  data : Option (List Byte)
  arrive : Nat
  tag : Nat
deriving DecidableEq, Repr

/-- A link output taken in one cycle (R233): the core whose router holds it, the direction it leaves in, the cycle, the input
it came from, the flow and the hop. -/
structure LinkUse where
  node : Nat
  dir : Nat
  cycle : Nat
  input : Nat
  flow : Nat
  hop : Nat
deriving DecidableEq, Repr

/-- An MRED of one core that waits for its partials (R232). -/
structure RedJob where
  core : Nat
  issued : Nat
  dst : Nat
  lo : Nat
  hi : Nat
  beats : Nat
  vertical : Bool
  fp : Bool
  capTag : Nat
  got : List Nat
deriving DecidableEq, Repr

/-- The static mesh: beats in flight, link outputs taken, reductions waiting. -/
structure Mesh where
  beats : List Beat := []
  links : List LinkUse := []
  reds : List RedJob := []
  nextId : Nat := 0
deriving DecidableEq, Repr

/-- Whose line a request at a background port is (R256, R262): a host access of a function; a DMA descriptor; a command that waits for
it; a copy of a row (R277); a scrubber's write-back (R274). -/
inductive BgOwner where
  | host (fn : Nat)
  | dma (core q idx : Nat)
  | command
  | rowCopy
  | scrub
deriving DecidableEq, Repr

/-- What a request does with its line: a read; a write of bytes under a mask (R264); a copy into a spare row; the scrubber's write-back of
the bytes that the code gave. -/
inductive BgAct where
  | read
  | write (bytes : List Byte) (mask : Nat)
  | copy
  | back (bytes : List Byte)
deriving DecidableEq, Repr

/-- A request at a vault's background port: its line, the bytes of the line it concerns and where they lie in its owner's transfer. -/
structure BgReq where
  line : Nat
  act : BgAct
  owner : BgOwner
  first : Nat
  len : Nat
  off : Nat
deriving DecidableEq, Repr

/-- What came of a request: its status, and the bytes a read returned. -/
structure BgResult where
  owner : BgOwner
  off : Nat
  st : Status
  bytes : List Byte
deriving DecidableEq, Repr

/-- A line that a background port wrote: its cycle, what was stored before (R263), what was written, and for whom. -/
structure BgWrite where
  line : Nat
  cycle : Nat
  old : LineCopy
  bytes : List Byte
  mask : Nat
  owner : BgOwner
  off : Nat
deriving DecidableEq, Repr

/-- A vault at a physical site (R259, R275 to R279): repairs in force as (bank, row or column, spare), hard entries
programmed, those of them in force since the last POR#, rows with corrections as (bank × 8192 + row, passes, last pass), rows due for repair, the
scrubber's place, whether the site has been declared failed,
the self-test pattern that runs, whether the last self-test failed, and rows refreshed by the site alone in self-refresh
(R268): its rotation pointer is its cluster's plus these. Of the background port: the first cycle in which it may serve again, the lines
it wrote in cycles that the core port has not passed, oldest first, and the cycle of the last scrub; and the row that is being copied, if
one is. -/
structure Site where
  softRows : List (Nat × Nat × Nat) := []
  softCols : List (Nat × Nat × Nat) := []
  hardRows : List (Nat × Nat × Nat) := []
  hardCols : List (Nat × Nat × Nat) := []
  liveRows : List (Nat × Nat × Nat) := []
  liveCols : List (Nat × Nat × Nat) := []
  ceRows : List (Nat × Nat × Nat) := []
  weak : List Nat := []
  pass : Nat := 0
  scrubPtr : Nat := 0
  failed : Bool := false
  testing : Option Nat := none
  testFailed : Bool := false
  refresh : Nat := 0
  unrefreshed : Nat := 0
  bgFree : Nat := 0
  bgWrote : List BgWrite := []
  scrubAt : Option Nat := none
  copying : Option Nat := none
deriving DecidableEq, Repr

/-- What a GDDR controller remembers of its region beside its registers: ticks of recent uncorrectable sectors, exhausted
retries and retries in the present tick, whether 4 retries in one tick ask for a retrain, accesses in a row without response, the last
retrain's tick and temperature, and the next group to scrub (R296, R298, R302). -/
structure Region where
  ueTicks : List Nat := []
  crcTick : Nat := 0
  crcInTick : Nat := 0
  crcDue : Bool := false
  exhausted : Nat := 0
  noResp : Nat := 0
  lastTick : Nat := 0
  lastTemp : Nat := 255
  scrubGroup : Nat := 0
deriving DecidableEq, Repr

end Sys2Proof.Machine
end

