-- ==== Sys2Proof/Machine/TeamState.lean ====
section
/-! DEFINITION. The Dealer's state: teams, request slots, models, heartbeats (R251, R381 to R421, Tables DLR-3, DLR-14, DLR-15,
ISA-7). -/

namespace Sys2Proof.Machine

/-- One sequence of a batch, as the held proof of its turn names it (R405, Table DET-5): its slot, the kind of its entry, first input
position, inputs as (token, draft probability; none for a token that is no draft), and the request's stamp. -/
structure Entry where
  slot : Nat
  ekind : Nat
  pos : Nat
  inputs : List (Nat × Option Nat)
  arr : Nat := 0
deriving DecidableEq, Repr

/-- What a turn returns for one sequence: the tokens it commits, and the drafts it emits with their probabilities (R488, R508). -/
structure SeqOut where
  slot : Nat
  tokens : List Nat
  drafts : List (Nat × Nat)
deriving DecidableEq, Repr

/-- A program image's header (Table ISA-7). -/
structure Image where
  addr : Nat := 0
  programId : Nat := 0
  clusters : Nat := 0
  entryPrefill : Nat := 0
  entryDecode : Nat := 0
  entryRefine : Nat := 0x3FF
  overlays : Nat := 0
  framesMax : Nat := 0
deriving DecidableEq, Repr

/-- What the plate plan says (R366): MAP_BASE, U, ranges per device, and for each (lh, range) a holder rank and map index; and the
shape of a chain under the model's attention layout: n, kvw, layers × heads (R361, R362). -/
structure PlatePlan where
  mapBase : Nat := 0
  u : Nat := 0
  ranges : Nat := 1
  holders : List (Nat × Nat × Nat × Nat) := []
  log2n : Nat := 4
  kvw : Nat := 1
  lhs : Nat := 0
deriving DecidableEq, Repr

/-- Where a team's bytes come from: resident area and bank A per rank, and the vault load area as (vault offset, bytes). Dealer
firmware reads them from the image and the golden-copy area at team load. -/
structure TeamBytes where
  resident : List (Nat × List Byte) := []
  bankA : List (Nat × List Byte) := []
  weights : List (Nat × Nat × List Byte) := []
  plateFmt : Nat := 0
deriving DecidableEq, Repr

/-- A team (R385, Tables DLR-14 and DLR-15). The proof held from step 6 on (R405) is its batch with role, turn and plate version. `gone` are
sequences of the batch that have entered RECOVER since it was final (R511), `runRank` the rank that the program runs for and `ran` what its
earlier runs of the turn put out, with their frames (R477, R494), `dynNext` a packet fault of after the check (R510), `readyWait` the ticks of
the REPAIR marks whose READY is awaited, `marked` this member's own (R515), `savedRoles` and `savedTurn` what a replay job set aside
(R500). -/
structure Team where
  loaded : Bool := false
  loading : Option (Nat × Nat × Nat) := none
  reloading : Bool := false
  unloading : Option (Nat × Nat × Nat) := none
  ox : Nat := 0
  oy : Nat := 0
  cw : Nat := 1
  ch : Nat := 1
  role : Nat := 3
  nextRole : Option Nat := none
  turn : Nat := 0
  running : Bool := false
  stopped : Bool := false
  stranded : Bool := false
  step : Nat := 0
  attempt : Nat := 0
  startFrame : Nat := 0
  resTop : Nat := 0
  loadArea : List (Nat × Nat) := []
  model : Nat := 0
  bMax : Nat := 0
  dMax : Nat := 0
  pfTok : Nat := 0
  ctxMax : Nat := 0
  share : Nat := 64
  image : Image := {}
  plan : PlatePlan := {}
  bytes : TeamBytes := {}
  batch : List Entry := []
  leadSeed : Option Nat := none
  prepared : List Entry := []
  idle : Nat := 0
  pltVer : Nat := 0
  watchdog : Option Nat := none
  dynFault : Option Nat := none
  plateLost : Option Nat := none
  reloadBanks : Bool := false
  savedTurn : Option Nat := none
  savedRoles : Option (Nat × Nat) := none
  gone : List Nat := []
  runRank : Nat := 0
  ran : List (Nat × List SeqOut × Nat) := []
  dynNext : Option Nat := none
  readyWait : List (Nat × Nat) := []
  marked : Bool := false
  restored : List (Nat × Nat) := []
  sources : List LineFrom := []
  loadBad : Bool := false
  holdUntil : Nat := 0
  cut : Bool := false
  missing : List Nat := []
  runs : List Nat := []
  prepRole : Nat := 3
  promote : List (Nat × Nat) := []
  resetWait : Bool := false
  resetReq : Bool := false
  results : List (Nat × Bool × SliceMark) := []
  ready : List Nat := []
  decision : Option SliceVerdict := none
  outputs : List SeqOut := []
deriving DecidableEq, Repr

/-- Is an attempt of the team running whose check has not sampled its conditions yet (R510)? -/
def Team.unchecked (t : Team) : Bool := t.running && (t.step == 0 || t.step == 7)

/-- States of a request slot (Table DLR-4); a FREE slot is not listed. -/
inductive SlotSt where
  | queued | prefill | decode | refine | recover | ending
deriving DecidableEq, Repr

def SlotSt.code : SlotSt → Nat
  | .queued => 1
  | .prefill => 2
  | .decode => 3
  | .refine => 4
  | .recover => 5
  | .ending => 6

/-- A request slot (Table DLR-3). `next` is the first position not yet prefilled or recomputed, `seat` the seat team (R395),
`ndrafts` the entries in use in the draft area (R387), `delivered` how many tokens have been delivered,
`prompted` that the prompt stands in the token history (R546),
`discard` that its records are discarded (R548). -/
structure Slot where
  st : SlotSt
  cls : Nat
  waitf : Bool
  refine : Bool
  dpol : Nat
  cancel : Bool := false
  late : Bool := false
  d : Nat
  tenant : Nat
  team : Option Nat := none
  fn : Nat
  tag : Nat
  model : Nat
  delta : Nat
  seed : Nat
  temp : Nat
  topK : Nat
  topP : Nat
  deadline : Nat
  maxTokens : Nat
  promptLen : Nat
  promptAddr : Nat
  committed : Nat := 0
  tentative : Nat := 0
  generated : Nat := 0
  arrival : Nat
  histAddr : Nat := 0
  rpool : Nat := 0
  tpool : Nat := 0
  rslots : Nat := 0
  tslots : Nat := 0
  rnodes : Nat := 0
  sliceRank : Nat := 0
  sliceSize : Nat := 1
  lead : Nat := 0
  leadSlot : Nat := 0
  descIdx : Nat
  next : Nat := 0
  seat : Option Nat := none
  prompted : Bool := false
  ndrafts : Nat := 0
  delivered : Nat := 0
  discard : Bool := false
  result : Option Status := none
deriving DecidableEq, Repr

/-- A loaded model (Table DLR-2): golden offset and length, end tokens, tenant mask, layers × heads, the tenants' home pool
lists, the transit pool, deltas as (id, tenant, golden offset, length). -/
structure Model where
  off : Nat
  len : Nat
  ends : List Nat
  tenants : Nat
  ready : Bool
  deltas : List (Nat × Nat × Nat × Nat) := []
deriving DecidableEq, Repr

/-- A command being executed for a function: who asked (function, tag, index), the model, and the delta it writes, if it does; `bad` once
a packet of it has failed its CRC (R257). -/
structure GoldenJob where
  fn : Nat
  tag : Nat
  idx : Nat
  model : Nat
  delta : Option (Nat × Nat)
  src : Nat
  off : Nat
  len : Nat
  bad : Bool := false
deriving DecidableEq, Repr

/-- Dealer firmware's own state. `switching` is a firmware switchover: the image slot, the pair, and its teams that have yet to reach
a turn boundary (R421); `breaking` that the slice breaks once every running turn is discarded (R475); `beats` and `seen` the heartbeat words and what the partners last saw of them (R418). -/
structure Dealer where
  slots : List (Nat × Slot) := []
  models : List (Nat × Model) := []
  golden : List GoldenJob := []
  goldTop : Nat := 0
  beats : List (Nat × Nat) := []
  seen : List (Nat × Nat) := []
  stale : List (Nat × Nat) := []
  switching : Option (Nat × Nat × List Nat) := none
  roleTicks : List (Nat × Nat) := []
  eccTicks : List (Nat × Nat) := []
  mailbox : List (Nat × Nat) := []
  repairs : List Nat := []
  standing : List Nat := []
  cuts : List Nat := []
  breaking : Bool := false
deriving DecidableEq, Repr

end Sys2Proof.Machine
end

