-- ==== Sys2Proof/Machine/State.lean ====
section
/-! DEFINITION. The whole state of the block, its reset value, faults and refusals. -/

namespace Sys2Proof.Machine

/-- No command ends the machine with a fault: every error of the spec is recorded in the state (R154, R225, R540). -/
inductive Fault where
  /-- Raised by no command. It stands for an address that no map of the spec holds; every access of the model is checked before
  it is made, so no meaning answers with it. Safe. -/
  | noMemory
deriving DecidableEq, Repr

/-- Why a command has no meaning. -/
inductive Refusal where
  /-- Raised by an arm of `exec` whose row is not modelled. Safe: the machine stops where the hardware goes on. -/
  | notModelled (mnemonic : String)
deriving DecidableEq, Repr

/-- Everything the spec gives the device, with its reset value; a list by number holds what differs from reset. -/
structure State where
  /-- Commands that wait, first in, first out (log entry 7). -/
  pending : List Instr := []
  /-- Vaults, GDDR, data and instruction memories, control-plane SRAM: the local address space of Table REG-7 (R626). -/
  mem : Mem := []
  /-- Poisoned vault lines, by vault and line (R264, R270). -/
  vpoison : List Nat := []
  /-- Symbols and poison bits of vault lines that have failed since the line was written: 35 symbols, 3 bits (R259, R270). -/
  verr : List (Nat × List Nat × BitVec 3) := []
  /-- Logical cores by number, those that differ from reset (R135, R249). -/
  cores : List (Nat × CoreCell) := []
  /-- Clusters by number, those that differ from reset (R248, R246). -/
  clusters : List (Nat × Cluster) := []
  /-- Teams by number (R385, Tables DLR-14, DLR-15). -/
  teams : List (Nat × Team) := []
  /-- Traffic of the mesh (R228 to R233). -/
  mesh : Mesh := {}
  /-- Control registers by BAR0 offset, those that differ from reset (R7, R11, Table REG-4). -/
  regs : List (Nat × Nat) := []
  /-- Vault sites by number: repairs and test state (R273 to R281). -/
  sites : List (Nat × Site) := []
  /-- Requests that wait at the background port of a vault (R262). -/
  bgq : List (Nat × List BgReq) := []
  /-- What the background ports have done for transfers that go on (R225, R263). -/
  bgDone : List BgResult := []
  /-- GDDR regions by number: what their registers do not show (R290 to R298). -/
  regions : List (Nat × Region) := []
  /-- Poisoned GDDR sectors (R291, R295). -/
  gpoison : List Nat := []
  /-- Symbols of GDDR sectors that have failed since the sector was written: 68 symbols, data and check (R291). -/
  gerr : List (Nat × List Nat) := []
  /-- Flipped bits of the metadata words of ECC groups (R291). -/
  gword : List (Nat × Word) := []
  /-- Sector accesses that a controller has completed ahead of the transfer they belong to, and whether they failed (R293, R294). -/
  gacc : List (Nat × Bool) := []
  /-- The fabric: requests and the state of the ports (R427 to R458). -/
  fab : Fabric := {}
  /-- The plate manager (R358 to R377). -/
  plt : Plates := {}
  /-- The Dealer: request slots, models, heartbeats (R384 to R421). -/
  dlr : Dealer := {}
  /-- The host interface: functions and their interrupts (R534 to R547). -/
  hst : HostIf := {}
  /-- The determinism unit: proof and timing rings, replay job (R490 to R504). -/
  det : DetState := {}
  /-- The management plane: chains, images, Umpire (R557 to R580, R611, R612). -/
  mgt : Mgmt := {}
  /-- Clocks, power and test access (R583 to R602, R605 to R617). -/
  clk : ClockSt := {}
  /-- Values a snapshot latched, by register (R567, R568). -/
  shadows : List (Nat × Nat) := []
  /-- CORE windows that read from a copy: each core as it was when it stopped answering (R537, R625). -/
  windows : List (Nat × Core) := []
  /-- What the device has put out on rings, ports, chains and pins (log entry 51). -/
  outbox : List Out := []
  /-- Frame boundaries counted since reset (PWR_FREF, R258). -/
  fref : Nat := 0
  /-- Counter of the free values taken so far: the model's own (log entry 2). -/
  freeCount : Nat := 0
deriving DecidableEq, Repr

/-- The machine right after reset: every register at the reset value of its table (`regReset`, a value of a fuse where the table says
so), no core, cluster or team changed, nothing in memory, no command waiting (log entries 1, 6, 122). -/
def State.reset : State := {}

end Sys2Proof.Machine
end

