-- ==== Sys2Proof/Machine/Ops.lean ====
section
/-! DEFINITION. Named operations over cores and memory: landing of timed writes, opening and closing a bundle, faults of a
core, issue (R131 to R140, R149 to R156). -/

namespace Sys2Proof.Machine

/-! ## Free values -/

/-- `n` bytes of undefined value, and the counter after them (log entry 2). -/
def freeBytes (k : Nat) : Nat → List Byte
  | 0 => []
  | n + 1 => (Config.freeValue k).truncate 8 :: freeBytes (k + 1) n

/-! ## Registers (R7, R11) -/

/-- The value a register holds. -/
def State.reg (s : State) (a : Nat) : Nat :=
  match find? s.regs a with
  | some v => v
  | none => regReset a

/-- Change a register's value. -/
def State.setReg (s : State) (a v : Nat) : State := { s with regs := put s.regs a v }

/-- A field of a register. -/
def State.fld (s : State) (a lo len : Nat) : Nat := bitsOf (s.reg a) lo len

/-- Change a field of a register. -/
def State.setFld (s : State) (a lo len v : Nat) : State := s.setReg a (putBits (s.reg a) lo len v)

/-- Add to a counter. -/
def State.bump (s : State) (a n : Nat) : State := s.setReg a (s.reg a + n)

/-! ## Cores -/

/-- The cell of a core. -/
def State.cell (s : State) (n : Nat) : CoreCell := look {} s.cores n

/-- A logical core. -/
def State.core (s : State) (n : Nat) : Core := (s.cell n).cur

/-- Replace a core, keeping what it was before its bundle. -/
def State.setCore (s : State) (n : Nat) (c : Core) : State :=
  { s with cores := put s.cores n { s.cell n with cur := c } }

/-- Change a core. -/
def State.updCore (s : State) (n : Nat) (f : Core → Core) : State := s.setCore n (f (s.core n))

/-- Replace a core together with what it was before its bundle. -/
def State.setCell (s : State) (n : Nat) (x : CoreCell) : State := { s with cores := put s.cores n x }

/-- The cluster of a logical core (R240). -/
def clusterOf (n : Nat) : Nat := n / 64 / 8 * 8 + n % 64 / 8

/-- The logical cores of a cluster, row by row. -/
def clusterCores (c : Nat) : List Nat := (List.range 64).map (fun k => (c / 8 * 8 + k / 8) * 64 + (c % 8 * 8 + k % 8))

/-- A cluster as reset leaves it: its columns as the hard repair fuses say (R247). -/
def fusedCluster (c : Nat) : Cluster := { cols := (List.range 8).map (fun k => bitsOf (regReset (Reg.cluRepair c)) (4 * k) 4) }

/-- A cluster's state. -/
def State.cluster (s : State) (c : Nat) : Cluster := look (fusedCluster c) s.clusters c

/-- Change a cluster. -/
def State.updCluster (s : State) (c : Nat) (f : Cluster → Cluster) : State :=
  { s with clusters := upd (fusedCluster c) s.clusters c f }

/-- A team. -/
def State.team (s : State) (t : Nat) : Team := look {} s.teams t

/-- Change a team. -/
def State.updTeam (s : State) (t : Nat) (f : Team → Team) : State :=
  { s with teams := upd {} s.teams t f }

/-- The team a logical core belongs to, through its cluster (Table MSH-4). -/
def State.teamOfCore (s : State) (n : Nat) : Option Nat := (s.cluster (clusterOf n)).team

/-- The team record of a core; the default record where it has none. -/
def State.teamRec (s : State) (n : Nat) : Team :=
  match s.teamOfCore n with
  | some t => s.team t
  | none => {}

/-- Team coordinates of a logical core (R252). -/
def teamX (t : Team) (n : Nat) : Nat := n % 64 - 8 * t.ox
def teamY (t : Team) (n : Nat) : Nat := n / 64 - 8 * t.oy

/-- Team width and height in cores (R251). -/
def Team.width (t : Team) : Nat := 8 * t.cw
def Team.height (t : Team) : Nat := 8 * t.ch

/-- The logical core at team coordinates (R252). -/
def coreAt (t : Team) (tx ty : Nat) : Nat := (8 * t.oy + ty) * 64 + (8 * t.ox + tx)

/-- The logical cores of a team, by team rank. -/
def Team.cores (t : Team) : List Nat :=
  (List.range t.height).flatMap (fun ty => (List.range t.width).map (fun tx => coreAt t tx ty))

/-! ## Data memory -/

/-- Bytes of a core's data memory. -/
def State.dm (s : State) (n a len : Nat) : List Byte := s.mem.read (dmAddr n a) len

/-- A little-endian number in a core's data memory. -/
def State.dmNat (s : State) (n a len : Nat) : Nat := leNat (s.dm n a len)

/-- Does the span pass the end of data memory (R163)? -/
def pastDm (a len : Nat) : Bool := decide (65536 < a + len)

/-- Would a write to the span touch the resident area (R158)? -/
def inResident (c : Core) (a len : Nat) : Bool := decide (0 < len) && decide (a < c.resTop)

/-- Do two spans of bytes overlap? -/
def overlaps (a la b lb : Nat) : Bool :=
  decide (0 < la) && decide (0 < lb) && decide (a < b + lb) && decide (b < a + la)

/-! ## The timeline of a core (R137, R139) -/

/-- Is an entry after another of the same cycle: a capture after a write (log entry 125), a write after the writes of earlier-issued
instructions (R139)? -/
def Item.after (x y : Item) : Bool :=
  decide (y.cycle < x.cycle) ||
    (x.cycle == y.cycle &&
      (match x.act, y.act with
        | .cap _ _ _, _ => true
        | _, .cap _ _ _ => false
        | _, _ => decide (y.ord ≤ x.ord)))

/-- Insert an entry after every entry that it follows (R139). -/
def insertItem (x : Item) : List Item → List Item
  | [] => [x]
  | y :: t => if x.after y then y :: insertItem x t else x :: y :: t

/-- Schedule a write or a capture of an instruction with place `ord` in the issue order: four times its issue cycle plus its slot. -/
def Core.schedAs (c : Core) (ord cycle : Nat) (a : Landing) : Core :=
  { c with timeline := insertItem ⟨cycle, ord, a⟩ c.timeline }

/-- Schedule a write or a capture of an instruction that issues now. -/
def Core.sched (c : Core) (cycle : Nat) (a : Landing) : Core := c.schedAs (4 * c.now) cycle a

/-- Schedule a capture of `len` bytes in `cycle`, under tag `tag`. -/
def Core.schedCap (c : Core) (cycle tag addr len : Nat) : Core := c.sched cycle (.cap tag addr len)

/-- A scalar register; s0 reads as zero (Table ISA-2). -/
def Core.rs (c : Core) (r : BitVec 5) : Word := if r = 0#5 then 0#32 else c.s.get r.toFin

/-- A vector register. -/
def Core.rv (c : Core) (r : BitVec 4) : Vector Word 32 := c.v.get r.toFin

/-- Write a scalar register; s0 ignores writes. -/
def Core.writeS (c : Core) (r : BitVec 5) (x : Word) : Core :=
  if r = 0#5 then c else { c with s := c.s.set r.toNat x r.isLt }

/-- Write a vector register. -/
def Core.writeV (c : Core) (r : BitVec 4) (x : Vector Word 32) : Core :=
  { c with v := c.v.set r.toNat x r.isLt }

/-- One timed write or capture takes effect. -/
def land (n : Nat) (s : State) (l : Landing) : State :=
  match l with
  | .regS r x => s.updCore n (fun c => c.writeS r x)
  | .regV r x => s.updCore n (fun c => c.writeV r x)
  | .dmem _ a bs => { s with mem := s.mem.write (dmAddr n a) bs }
  | .imem a bs => { s with mem := s.mem.write (coreWindow n + 0x10000 + a) bs }
  | .cap tag a len =>
    s.updCore n (fun c => { c with caps := put c.caps tag (look [] c.caps tag ++ s.dm n a len) })

/-- Every timed write of core `n` visible in cycle `cyc` takes effect, in order. -/
def settle (n cyc : Nat) (s : State) : State :=
  let c := s.core n
  let due := c.timeline.takeWhile (fun x => decide (x.cycle ≤ cyc))
  let rest := c.timeline.dropWhile (fun x => decide (x.cycle ≤ cyc))
  due.foldl (fun s x => land n s x.act) (s.setCore n { c with timeline := rest })

/-- The capture buffer of a tag. -/
def Core.cap (c : Core) (tag : Nat) : List Byte := look [] c.caps tag

/-- Drop a capture buffer. -/
def Core.dropCap (c : Core) (tag : Nat) : Core := { c with caps := del c.caps tag }

/-- Take a fresh tag. -/
def Core.bumpTag (c : Core) : Core := { c with nextTag := c.nextTag + 1 }

/-! ## Core faults (Table ISA-6) -/

/-- The overlay id of the bank that holds a bundle (R156). -/
def Core.ovlOf (c : Core) (pc : Nat) : Nat := if pc < 512 then c.ovlA else c.ovlB

/-- Record a fault: the first of a turn fills the record, every other one counts (R156). -/
def Core.record (c : Core) (f : CoreFault) (slot pc cyc opd : Nat) (atIssue : Bool) : Core :=
  if c.fault.code = 0 then
    { c with fault := ⟨f.code, f.cls, slot, atIssue, pc, c.ovlOf pc, c.turn, cyc, opd⟩ }
  else { c with faultCnt := c.faultCnt + 1 }

/-- A fault detected after issue: recorded, the core stops, state stands (R154). -/
def faultAfter (n : Nat) (f : CoreFault) (slot pc cyc : Nat) (s : State) : State :=
  s.updCore n (fun c =>
    { c.record f slot pc cyc 0 false with exec := .halted, bundleOpen := false, wait := none, turnCyc := max c.turnCyc cyc })

/-- Record the faults of a bundle: its lowest slot's first (R156). -/
def Core.recordAll (c : Core) (pc cyc : Nat) : List (Nat × CoreFault × Nat) → Core
  | [] => c
  | (slot, f, opd) :: t => (c.record f slot pc cyc opd true).recordAll pc cyc t

/-- Place a fault among a bundle's faults by slot; a slot raises one fault (R165). -/
def placeFault (x : Nat × CoreFault × Nat) : List (Nat × CoreFault × Nat) → List (Nat × CoreFault × Nat)
  | [] => [x]
  | y :: t => if x.1 < y.1 then x :: y :: t else if x.1 = y.1 then y :: t else y :: placeFault x t

/-- The core as it was before its bundle issued. -/
def rollback (n : Nat) (s : State) : State :=
  let x := s.cell n
  { s with cores := put s.cores n { cur := x.before, before := x.before } }

/-! ## Tiles that become ready (R68, R69, R149, R172) -/

/-- The tile that a finished load makes; `none` when a trit-pair position holds 0b10 (R172). The Boolean is a media error of
a coded block. -/
def finishTile (c : Core) (ld : TileLoad) : Option (Tile × Bool) :=
  match ld.kind with
  | .quint off => some (tileOfQuints ((ld.bytes.drop (off % 32)).take 410) ld.bad, false)
  | .wide _ tpos => some (tileOfWide (ld.bytes.take 2048) tpos ld.bad, false)
  | .coded off =>
    let blk := ld.bytes.drop (off % 32)
    some (tileOfCoded blk ((ld.base.drop (deltaBase blk % 32)).take 410) ld.bad)
  | .pairs im => (tileOfPairs (c.cap ld.tag) im).map (fun t => (t, false))

/-- `n` vault lines from the one that holds byte `off`. -/
def linesFrom (off n : Nat) : List Nat := (List.range n).map (fun k => off / 32 + k)

/-- The vault lines behind a poison tile: the tile's or block's own, and the base tile's where the base tile is at fault (R31, R316). -/
def TileLoad.badLines (ld : TileLoad) : List Nat :=
  let own := ld.bytes.length / 32
  match ld.kind with
  | .quint off => linesFrom off own
  | .wide off _ => linesFrom off own
  | .coded off =>
    let blk := ld.bytes.drop (off % 32)
    let base := (ld.base.drop (deltaBase blk % 32)).take 410
    (if (tileOfCoded blk (zeroBytes 410) ld.bad).2 then linesFrom off own else []) ++
      (if blkKind blk == 2 && !base.all quintOk then linesFrom (deltaBase blk) (ld.base.length / 32) else [])
  | .pairs _ => []

/-- Is it a coded block? -/
def TileLoad.isCoded (ld : TileLoad) : Bool :=
  match ld.kind with
  | .coded _ => true
  | _ => false

/-- Change one tile load. -/
def Core.updTile (c : Core) (tag : Nat) (f : TileLoad → TileLoad) : Core :=
  { c with tiles := c.tiles.map (fun t => if t.tag = tag then f t else t) }

/-- Outstanding tile loads in a cycle, issued and not yet ready (R68). A ready tile that waits for the back buffer is none (R149). -/
def Core.outstandingAt (c : Core) (cyc : Nat) : Nat := (c.tiles.filter (fun t => !(t.served && decide (t.readyAt ≤ cyc)))).length

/-- The tile load whose ready cycle comes first. -/
def firstReady : List TileLoad → Option TileLoad
  | [] => none
  | t :: ts =>
    match firstReady ts with
    | none => if t.served then some t else none
    | some u => if t.served && decide (t.readyAt ≤ u.readyAt) then some t else some u

/-- The next tile to become ready. -/
def Core.nextReady (c : Core) : Option TileLoad := firstReady (c.tiles.filter (fun t => !t.due))

/-- A ready tile that meets a full back buffer waits instead of faulting where the section in which it became ready is loose: the
present one, or the one before it (R149). DEDUCED, log entry 15. -/
def tileWaits (c : Core) (ld : TileLoad) : Bool :=
  if ld.readyAt < c.sect.startFrame * 2048 then c.prevLoose else c.sect.loose

/-- A tile leaves the assembly path; `tileFreed` is the last cycle in which it made room for another tile load (R68). -/
def Core.dropTile (c : Core) (ld : TileLoad) : Core :=
  { (c.dropCap ld.tag) with
    tiles := c.tiles.filter (fun t => t.tag != ld.tag)
    tileFreed := if 2 ≤ c.outstandingAt (ld.readyAt - 1) then ld.readyAt else c.tileFreed }

/-- A tile enters the back buffer: its counts, and the lines at fault where it is poison (R68, R316). -/
def installTile (n : Nat) (ld : TileLoad) (s : State) : State :=
  let c := s.core n
  match finishTile c ld with
  | none => s.setCore n (c.dropTile ld)
  | some (t, media) =>
    let s1 := (s.bump Reg.burTileCnt (bit ld.isCoded)).bump Reg.burMediaCnt (bit (media && ld.isCoded))
    s1.setCore n { c.dropTile ld with
      back := some t, backReady := true, backAt := max ld.readyAt c.now
      poisonTile := c.poisonTile ++ (if t.poison then ld.badLines else []) }

/-- A tile becomes ready (R68, R69, R172). Where the back buffer is full it waits if the section is loose (R149) or if a bundle of the same
cycle may still swap (`swap`, R69); else it raises TILE_ORDER and does not enter. Trit pairs that hold 0b10 raise FMT_CODE. -/
def tileReady (n : Nat) (swap : Bool) (ld : TileLoad) (s : State) : State :=
  let s1 := settle n ld.readyAt s
  let c := s1.core n
  let waits := tileWaits c ld
  if c.backReady && !waits && swap then
    s1.setCore n (c.updTile ld.tag (fun t => { t with due := true }))
  else if c.backReady && !waits then faultAfter n .tileOrder 0 ld.pc ld.readyAt (s1.setCore n (c.dropTile ld))
  else if (finishTile c ld).isNone then faultAfter n .fmtCode 0 ld.pc ld.readyAt (s1.setCore n (c.dropTile ld))
  else if c.backReady then
    s1.setCore n (c.updTile ld.tag (fun t => { t with due := true, held := true }))
  else installTile n ld s1

/-- The tiles that become ready no later than cycle `cyc`, in order, before a bundle of that cycle issues. -/
def readyTiles (n cyc : Nat) : Nat → State → State
  | 0, s => s
  | k + 1, s =>
    match (s.core n).nextReady with
    | none => s
    | some ld => if ld.readyAt ≤ cyc then readyTiles n cyc k (tileReady n (ld.readyAt == cyc) ld s) else s

/-- After a bundle: a waiting tile takes an emptied back buffer (R69, R149); one that waited for a swap that did not come raises
TILE_ORDER. -/
def moveTiles (n : Nat) : Nat → State → State
  | 0, s => s
  | k + 1, s =>
    match firstReady ((s.core n).tiles.filter (fun t => t.due)) with
    | none => s
    | some ld =>
      let c := s.core n
      if !c.backReady then
        moveTiles n k (if (finishTile c ld).isNone then faultAfter n .fmtCode 0 ld.pc ld.readyAt (s.setCore n (c.dropTile ld))
          else installTile n ld s)
      else if ld.held then s
      else faultAfter n .tileOrder 0 ld.pc ld.readyAt (s.setCore n (c.dropTile ld))

/-- `moveTiles` with the fuel that suffices. -/
def moveWaiting (n : Nat) (s : State) : State := moveTiles n (s.core n).tiles.length s

/-- Faults detected at issue suppress the whole bundle: the core is as it was before it, its faults are recorded, it stops (R154). A tile
that waited for the bundle's swap raises TILE_ORDER in the same cycle, in slot 0, and is recorded first (R69, R156). CORE_STATUS.PC names
the suppressed bundle: DESIGN CHOICE, log entry 163. -/
def suppress (n : Nat) (fs : List (Nat × CoreFault × Nat)) (s : State) : State :=
  let c := s.core n
  (moveWaiting n (rollback n s)).updCore n (fun b =>
    { b.recordAll c.pc c.now fs with exec := .halted, pc := c.pc, now := c.now, turnCyc := c.now })

/-! ## Opening a bundle -/

/-- The next bundle at a LEND: the innermost level decides first (R212, R213). Levels are listed innermost first. -/
def loopNext (pc : Nat) (lc : Vector (BitVec 16) 3) : List LoopLevel → Vector (BitVec 16) 3 × List LoopLevel × Nat
  | [] => (lc, [], pc + 1)
  | l :: t =>
    if l.lend = pc then
      let i := t.length
      let n := (lc[i]?).getD 0#16
      if 1 < n.toNat then (lc.setIfInBounds i (n - 1#16), l :: t, l.start)
      else loopNext pc lc t
    else (lc, l :: t, pc + 1)

/-- Is the level's body left by a jump to `target`? -/
def LoopLevel.outside (l : LoopLevel) (target : Nat) : Bool := decide (target < l.start) || decide (l.lend < target)

/-- A taken branch closes every level whose body it leaves, and every level inside it (R214). -/
def closeLoops (target : Nat) : List LoopLevel → List LoopLevel
  | [] => []
  | l :: t =>
    let t' := closeLoops target t
    if t'.length < t.length || l.outside target then t' else l :: t

/-- The bundle after the one that issues: the target of a transfer, or what the loop levels give (R211, R212). -/
def Core.following (c : Core) : Vector (BitVec 16) 3 × List LoopLevel × Nat :=
  if c.jumped then (c.lc, c.loops, c.nextPc) else loopNext c.pc c.lc c.loops

/-- Does issue pass in sequence out of a bank after this bundle (R151)? A core at its END issues no further bundle. -/
def Core.runsOut (c : Core) : Bool :=
  c.exec != .atEnd && !c.jumped && (c.pc == 511 || c.pc == 1023) && c.following.2.2 == c.pc + 1

/-- Open the next bundle of core `n`: every timed write due in its cycle takes effect, and the tiles ready by then enter the back buffer. -/
def openBundle (n : Nat) (s : State) : State :=
  let c0 := s.core n
  let s1 := readyTiles n c0.nextIssue c0.tiles.length (settle n c0.nextIssue s)
  let b := s1.core n
  if b.exec ≠ .issuing then s1
  else
    s1.setCell n
      { before := b
        cur := { b with
          pc := b.nextPc, jumped := false
          now := b.nextIssue, nextIssue := b.nextIssue + 1, turnCyc := b.nextIssue
          bundleOpen := true, bundleSlot := 0, bundleStall := [], bundleFaults := []
          bundleCtl := false, bundleMov := false, bundleAddr := [] } }

/-- The word of a bundle's slot in instruction memory (R131, R151). -/
def State.slotWord (s : State) (n pc k : Nat) : Word := BitVec.ofNat 32 (leNat (s.mem.read (imAddr n pc + 4 * k) 4))

/-- What instruction memory holds at a bundle that no instruction of its slot may spell: ILLEGAL_OP, or BAD_OPERAND for a SECT of FORM 3
(R162, R202, R215). The commands name the instructions; this finds the words that no command can name. -/
def State.wordFaults (s : State) (n pc : Nat) : List (Nat × CoreFault × Nat) :=
  (List.range 4).flatMap (fun k =>
    match decodeSlot ⟨BitVec.ofNat 12 n, BitVec.ofNat 2 k, false, false⟩ 0 (s.slotWord n pc k) with
    | .instr _ => []
    | .illegal => [(k, CoreFault.illegalOp, 0)]
    | .badForm => [(k, CoreFault.badOperand, 3)])

/-- The slot whose instruction decides the next bundle (log entry 26). -/
def Core.ctlSlot (c : Core) : Nat := if c.bundleMov then 3 else if c.bundleCtl then 2 else 0

/-- The faults that show when the bundle is complete: words no command can name, and issue that would pass out of the bank (R151). -/
def bundleEndFaults (n : Nat) (s : State) : List (Nat × CoreFault × Nat) :=
  let c := s.core n
  let ws := s.wordFaults n c.pc
  if c.runsOut then placeFault (c.ctlSlot, .ovlOrder, 0) ws else ws

/-- The bundle has issued: the loop levels and the next bundle follow from it (R211 to R213), and a tile that waited for its swap moves. -/
def closeBundle (n : Nat) (s : State) : State :=
  moveWaiting n (s.updCore n (fun c =>
    { c with lc := c.following.1, loops := c.following.2.1, nextPc := c.following.2.2, jumped := true, bundleOpen := false }))

/-! ## Issue -/

/-- What one instruction does at issue: the data-memory bytes it reads, the other interlocks of a loose section that hold it (R149), its
fault conditions in the order of R165, and its effect. -/
structure OpSpec where
  reads : List (Nat × Nat) := []
  stall : List Interlock := []
  faults : List (Bool × CoreFault × Nat) := []
  eff : State

/-- The first condition that holds. -/
def firstFault : List (Bool × CoreFault × Nat) → Option (CoreFault × Nat)
  | [] => none
  | (b, f, o) :: t => if b then some (f, o) else firstFault t

/-- Data-memory spans that still await a vault line: lines queued for a load, and delivered lines not yet written. -/
def Core.awaited (c : Core) : List (Nat × Nat) :=
  (c.vq.flatMap (fun r =>
    match r.kind with
    | .load _ => r.lines.flatMap (fun l => l.spans.map (fun p => (p.2.1, p.2.2)))
    | _ => [])) ++
  (c.timeline.filterMap (fun x =>
    match x.act with
    | .dmem true a bs => if c.now < x.cycle then some (a, bs.length) else none
    | _ => none))

/-- The spans of `rs` that meet the interlock of R149. -/
def Core.awaits (c : Core) (rs : List (Nat × Nat)) : List Interlock :=
  (rs.filter (fun r => c.awaited.any (fun w => overlaps r.1 r.2 w.1 w.2))).map (fun r => .span r.1 r.2)

/-- Does the instruction complete its bundle? Slot 3 is the last slot. -/
def closesBundle (i : Issue) : Bool := i.last || i.slot == 3#2

/-- What the slots of a bundle have met so far is noted until the bundle is complete. -/
def noteSlot (i : Issue) (stall : List Interlock) (faults : List (Nat × CoreFault × Nat)) (t : State) : State :=
  t.updCore i.core.toNat (fun c => { c with bundleSlot := i.slot.toNat + 1, bundleStall := stall, bundleFaults := faults })

/-- End of an instruction's issue whose bundle has met neither an interlock nor a fault: the bundle has issued, or goes on. -/
def slotEnds (i : Issue) (t : State) : State := if closesBundle i then closeBundle i.core.toNat t else noteSlot i [] [] t

/-- End of one instruction's issue: `s` before its effect, `t` after it. A complete bundle stalls whole where a slot meets an interlock
(R149), else it is suppressed where a slot faults (R154), else it has issued. -/
def endSlot (i : Issue) (stall : List Interlock) (faults : List (Nat × CoreFault × Nat)) (s t : State) : State :=
  let n := i.core.toNat
  if closesBundle i then
    let all := (bundleEndFaults n t).foldl (fun l x => placeFault x l) faults
    if !stall.isEmpty then (rollback n s).updCore n (fun b => { b with exec := .interlock, stalledOn := stall })
    else if !all.isEmpty then suppress n all s
    else slotEnds i t
  else noteSlot i stall faults t

/-- The interlocks that the bundle has met with this instruction (R149): those of an instruction in its own slot of a loose section. -/
def Core.stallsWith (c : Core) (i : Issue) (cls : Nat) (sp : OpSpec) : List Interlock :=
  c.bundleStall ++ (if i.slot.toNat == cls && c.sect.loose then sp.stall ++ c.awaits sp.reads else [])

/-- The faults of the bundle with this instruction: ILLEGAL_OP in a slot of another class (Table ISA-1), else the first that holds (R165). -/
def Core.faultsWith (c : Core) (i : Issue) (cls : Nat) (sp : OpSpec) : List (Nat × CoreFault × Nat) :=
  match if i.slot.toNat == cls then firstFault sp.faults else some (.illegalOp, 0) with
  | some x => placeFault (i.slot.toNat, x) c.bundleFaults
  | none => c.bundleFaults

/-- Issue one instruction of unit class `cls` (Table ISA-1) in the bundle that is open. Nothing of an instruction in slot 3 takes effect
where its bundle stalls or faults: its effects reach beyond the core. -/
def issueIn (i : Issue) (cls : Nat) (spec : State → Core → OpSpec) (s : State) : State :=
  let c := s.core i.core.toNat
  let sp := spec s c
  let stall := c.stallsWith i cls sp
  let faults := c.faultsWith i cls sp
  let acts := i.slot.toNat == cls && (i.slot != 3#2 || (stall.isEmpty && faults.isEmpty))
  endSlot i stall faults s (if acts then sp.eff else s)

/-- Issue one instruction: the first of a bundle opens it, the next ones come in the order of their slots. A command that finds its core
not issuing, or out of that order, has nothing to act on (log entries 5 and 126). -/
def issueOp (i : Issue) (cls : Nat) (spec : State → Core → OpSpec) (s : State) : State :=
  let n := i.core.toNat
  let c0 := s.core n
  if i.first then
    if c0.exec ≠ .issuing || c0.bundleOpen then s
    else
      let s1 := openBundle n s
      if (s1.core n).exec ≠ .issuing then s1 else issueIn i cls spec s1
  else if c0.bundleOpen && decide (c0.bundleSlot ≤ i.slot.toNat) then issueIn i cls spec s
  else s

/-- An event that has nothing to act on leaves the state as it is (log entry 5). -/
def State.same (s : State) : State := s

end Sys2Proof.Machine
end

