-- ==== Sys2Proof/Machine/TableUnit.lean ====
section
/-! DEFINITION. The table unit: special values, error bounds and monotonicity of its functions (R105, R109, R116, R195, Table ERR-2). The
exact functions are computed in fixed point with 400 fraction bits, far beyond what a bound can tell apart. -/

namespace Sys2Proof.Machine

/-- The exact bits Table ERR-2 states for an input: special values; `none` where it states only a bound. -/
def tableSpecial (f : TableFn) (y : Word) : Option Word :=
  let neg := signOf y
  let zero := bitsOf y.toNat 0 31 == 0
  let posInf := y == infFp false
  let negInf := y == infFp true
  match f with
  | .relu => some (if neg then 0#32 else y)
  | .exp =>
    if zero then some 0x3F800000#32
    else if 0x42B17217 ≤ y.toNat && !neg then some (infFp false)
    else if neg && 0xC2CFF1B4 < y.toNat then some 0#32
    else none
  | .ln =>
    if zero then some (infFp true)
    else if neg then some (quietNaN y 0#32 0#32)
    else if posInf then some (infFp false)
    else if y == 0x3F800000#32 then some 0#32
    else none
  | .rcp =>
    if zero then some (infFp neg)
    else if 0x7E800000 < bitsOf y.toNat 0 31 then some (zeroFp neg)
    else none
  | .rsqrt =>
    if zero then some (infFp neg)
    else if neg then some (quietNaN y 0#32 0#32)
    else if posInf then some 0#32
    else none
  | .sigmoid => if posInf then some 0x3F800000#32 else if negInf then some 0#32 else none
  | .silu => if posInf then some y else if negInf then some (zeroFp true) else none
  | .geluTanh => if posInf then some y else if negInf then some (zeroFp true) else none
  | .softplus => if posInf then some y else if negInf then some 0#32 else none

/-! ## The exact functions in fixed point -/

/-- One, in fixed point. -/
def fxOne : Int := 2 ^ 400

/-- Product and quotient in fixed point. -/
def fxMul (a b : Int) : Int := a * b / 2 ^ 400
def fxDiv (a b : Int) : Int := a * 2 ^ 400 / b

/-- The value `± m × 2^e` in fixed point; every finite FP32 value is exact. -/
def fxOf (neg : Bool) (m : Nat) (e : Int) : Int := (if neg then -(m : Int) else m) * 2 ^ (e + 400).toNat

/-- The exponential series of a small argument, `n` terms in Horner form. -/
def expSeries (t : Int) : Nat → Nat → Int
  | 0, _ => fxOne
  | n + 1, k => fxOne + fxMul t (expSeries t n (k + 1)) / (k : Int)

/-- Square `n` times. -/
def fxSquares : Nat → Int → Int
  | 0, x => x
  | n + 1, x => fxSquares n (fxMul x x)

/-- e^x for |x| at most 300. -/
def fxExp (x : Int) : Int := fxSquares 12 (expSeries (x / 2 ^ 12) 100 1)

/-- The series of artanh, `n` terms from `z^(2k + 1) / (2k + 1)` on. -/
def atanhSeries (z2 : Int) : Nat → Nat → Int → Int
  | 0, _, _ => 0
  | n + 1, k, p => p / (2 * k + 1 : Nat) + atanhSeries z2 n (k + 1) (fxMul p z2)

/-- artanh z for |z| at most 1/3. -/
def fxAtanh (z : Int) : Int := atanhSeries (fxMul z z) 140 0 z

/-- The natural logarithm of a positive number. -/
def fxLn (v : Int) : Int :=
  let k := v.toNat.log2
  let m : Int := (v.toNat * 2 ^ 400 / 2 ^ k : Nat)
  ((k : Int) - 400) * (2 * fxAtanh (fxOne / 3)) + 2 * fxAtanh (fxDiv (m - fxOne) (m + fxOne))

/-- The integer square root of a number below 4^`n`, bit by bit. -/
def rootBits (v : Nat) : Nat → Nat → Nat
  | 0, r => r
  | n + 1, r => rootBits v n (if (r + 2 ^ n) * (r + 2 ^ n) ≤ v then r + 2 ^ n else r)

/-- Is an argument so large that the function has reached its asymptote? -/
def fxFar (x : Int) : Bool := decide (300 * fxOne < (x.natAbs : Int))

/-- 1 / (1 + e^−x). -/
def fxSigmoid (x : Int) : Int :=
  if fxFar x then (if x < 0 then 0 else fxOne) else fxDiv fxOne (fxOne + fxExp (-x))

/-- The argument of the logistic form of GELU_TANH: twice that of its tanh (Table ACC-5). -/
def geluArg (x : Int) : Int := 2 * 79788456 * (1000000 * x + 44715 * fxMul x (fxMul x x)) / (100000000 * 1000000)

/-- The exact function at `± m × 2^e`, in fixed point (Table ACC-5, R195). -/
def fxFn (f : TableFn) (neg : Bool) (m : Nat) (e : Int) : Int :=
  let x := fxOf neg m e
  match f with
  | .relu => max x 0
  | .exp => fxExp x
  | .ln => fxLn x
  | .rcp => (if neg then -1 else 1) * (2 ^ (800 - (e + 400)).toNat / (m : Int))
  | .rsqrt => (rootBits (2 ^ (1200 - (e + 400)).toNat / m) 640 0 : Nat)
  | .sigmoid => fxSigmoid x
  | .silu => if fxFar x then max x 0 else fxMul x (fxSigmoid x)
  | .geluTanh => if fxFar x then max x 0 else fxMul x (fxSigmoid (geluArg x))
  | .softplus => if fxFar x then max x 0 else fxLn (fxOne + fxExp x)

/-! ## Bounds (Table ERR-2) -/

/-- The bound at exact value `v`: the largest allowed distance. `mid` says that the input lies in [0.5, 2]. -/
def errBound (f : TableFn) (mid : Bool) (v : Int) : Int :=
  let a : Int := v.natAbs
  match f with
  | .relu => 0
  | .exp => if 2 ^ (400 - 126) ≤ a then a / 2 ^ 22 else 2 ^ (400 - 148)
  | .ln => if mid then 2 ^ (400 - 22) else a / 2 ^ 22
  | .rcp => a / 2 ^ 23
  | .rsqrt => a / 2 ^ 23
  | .sigmoid => if 2 ^ (400 - 100) ≤ a then min (2 ^ (400 - 23)) (a / 2 ^ 21) else 2 ^ (400 - 23)
  | .silu => a / 2 ^ 21 + 2 ^ (400 - 126)
  | .geluTanh => a / 2 ^ 20 + 2 ^ (400 - 126)
  | .softplus => a / 2 ^ 21 + 2 ^ (400 - 126)

/-- The exact function's nearest FP32 value at a finite input. -/
def nearestFn (f : TableFn) (y : Word) : Word :=
  match fpOf y with
  | .fin neg m e => roundFp (fxFn f neg m e < 0) (fxFn f neg m e).natAbs (-400)
  | _ => y

/-- Does result `x` lie within the bound at input `y` (Table ERR-2)? The nearest value does. -/
def meetsBound (f : TableFn) (y x : Word) : Bool :=
  (match fpOf x, fpOf y with
    | .fin sn sm se, .fin neg m e =>
      let v := fxFn f neg m e
      let mid := !neg && decide (0x3F000000 ≤ y.toNat) && decide (y.toNat ≤ 0x40000000)
      decide (((fxOf sn sm se - v).natAbs : Int) ≤ errBound f mid v)
    | _, _ => false) || x == nearestFn f y

/-! ## The ROM -/

/-- The result of a ROM at an input: special values come first. -/
def romValue (rom : Nat → Word → Word) (f : TableFn) (y : Word) : Word := (tableSpecial f y).getD (rom (tableFnCode f) y)

/-- Functions that R116 calls monotone; RSQRT falls. -/
def monotoneFns : List TableFn := [.exp, .ln, .sigmoid, .softplus, .rsqrt]

/-- Results of two neighbouring inputs, the lower first, in their order. NaN inputs and results are outside it. -/
def inOrder (rom : Nat → Word → Word) (f : TableFn) (lo hi : Word) : Bool :=
  let a := romValue rom f (if f = .rsqrt then hi else lo)
  let b := romValue rom f (if f = .rsqrt then lo else hi)
  isNaN a || isNaN b || decide (fpCmpKey a ≤ fpCmpKey b) || isNaN lo || isNaN hi

/-- A property of the numbers below `n`. -/
def allBelow (p : Nat → Bool) : Nat → Bool
  | 0 => true
  | n + 1 => p n && allBelow p n

/-- A ROM's results at one input lie within their bounds. -/
def romFits (rom : Nat → Word → Word) (y : Word) : Bool :=
  [TableFn.exp, .ln, .rcp, .rsqrt, .sigmoid, .silu, .geluTanh, .softplus].all (fun f =>
    meetsBound f y (rom (tableFnCode f) y) || (tableSpecial f y).isSome || isNaN y)

/-- A ROM's monotone functions at the positive input `n` and its neighbour, and at their negatives. -/
def romMonotone (rom : Nat → Word → Word) (n : Nat) : Bool :=
  monotoneFns.all (fun f =>
    inOrder rom f (BitVec.ofNat 32 n) (BitVec.ofNat 32 (n + 1)) &&
      inOrder rom f (BitVec.ofNat 32 (2 ^ 31 + n + 1)) (BitVec.ofNat 32 (2 ^ 31 + n)) &&
      (n != 0 || f == .rsqrt || inOrder rom f 0x80000000#32 0#32))

/-- A ROM that an implementation may have: within Table ERR-2 at every input, and monotone where R116 says so. -/
@[irreducible] def romAllowed (rom : Nat → Word → Word) : Bool :=
  allBelow (fun n => romFits rom (BitVec.ofNat 32 n)) (2 ^ 32) && allBelow (romMonotone rom) (2 ^ 31 - 1)

/-- The ROM's result where Table ERR-2 gives a bound only: `Config.tableUnit`, any ROM that R116 allows (log entry 3). -/
def romResult (f : TableFn) (y : Word) : Word :=
  if romAllowed Config.tableUnit then Config.tableUnit (tableFnCode f) y else nearestFn f y

/-- A table-unit function: a NaN returns itself, special values are exact, the rest are the ROM's bits (R116). -/
def tableUnit (f : TableFn) (y : Word) : Word :=
  if isNaN y then y
  else
    match tableSpecial f y with
    | some r => r
    | none => romResult f y

end Sys2Proof.Machine
end

