-- ==== Sys2Proof/Machine/Operands.lean ====
section
/-! DEFINITION. Operand forms of the core instructions: register pairs and blocks (R163), address registers (R136), results with
their latency and WRITE_CLASH (R137, R138), data-memory spans (R163), plate map entries and plate layout (R234, R355). -/

namespace Sys2Proof.Machine

/-- The register after `r` in a pair or block. -/
def Core.rs1 (c : Core) (r : BitVec 5) (k : Nat) : Word := c.rs (r + BitVec.ofNat 5 k)

/-- Is the register number a multiple of `n` (R163)? -/
def regAligned (r : BitVec 5) (n : Nat) : Bool := r.toNat % n == 0

/-- A nonzero field the instruction does not use (R162). -/
def unusedField (b : Bool) : Bool × CoreFault × Nat := (b, .illegalOp, 0)

/-- Is a write of scalar register `r` in cycle `cyc` already on the way (R138)? s0 ignores writes. -/
def Core.clashS (c : Core) (r : BitVec 5) (cyc : Nat) : Bool :=
  r != 0#5 && c.timeline.any (fun x => x.cycle == cyc && (match x.act with
    | .regS q _ => q == r
    | _ => false))

/-- Is a write of vector register `r` in cycle `cyc` already on the way (R138)? -/
def Core.clashV (c : Core) (r : BitVec 4) (cyc : Nat) : Bool :=
  c.timeline.any (fun x => x.cycle == cyc && (match x.act with
    | .regV q _ => q == r
    | _ => false))

/-- A scalar result readable `lat` cycles after issue (R137). -/
def Core.retS (c : Core) (r : BitVec 5) (x : Word) (lat : Nat) : Core := c.sched (c.now + lat) (.regS r x)

/-- A vector result readable `lat` cycles after issue (R137). -/
def Core.retV (c : Core) (r : BitVec 4) (x : Vector Word 32) (lat : Nat) : Core := c.sched (c.now + lat) (.regV r x)

/-- A data-memory store of slot `slot` of this bundle: written in c + 1, visible from c + 2 (Table ISA-3). -/
def Core.store (c : Core) (slot a : Nat) (bs : List Byte) : Core := c.schedAs (4 * c.now + slot) (c.now + 2) (.dmem false a bs)

/-- WRITE_CLASH of a scalar result (R138). -/
def clashSFault (c : Core) (r : BitVec 5) (lat : Nat) : Bool × CoreFault × Nat :=
  (c.clashS r (c.now + lat), .writeClash, 0)

/-- WRITE_CLASH of a vector result (R138). -/
def clashVFault (c : Core) (r : BitVec 4) (lat : Nat) : Bool × CoreFault × Nat :=
  (c.clashV r (c.now + lat), .writeClash, 0)

/-! ## Address registers (R136) -/

/-- The address an address register yields. -/
def addrOf (a : Dword) : Nat :=
  let n := a.toNat
  (bitsOf n 0 16 + bitsOf n 48 16 * bitsOf n 16 16) % 65536

/-- An address register after one advance; a COUNT of zero means 65,536. -/
def advanceAddr (a : Dword) : Dword :=
  let n := a.toNat
  let cnt := if bitsOf n 32 16 = 0 then 65536 else bitsOf n 32 16
  let ix := bitsOf n 48 16 + 1
  BitVec.ofNat 64 (putBits n 48 16 (if ix = cnt then 0 else ix))

/-- The next `m` addresses, and the register after them. -/
def takeAddrs : Nat → Dword → List Nat × Dword
  | 0, a => ([], a)
  | m + 1, a =>
    let r := takeAddrs m (advanceAddr a)
    (addrOf a :: r.1, r.2)

/-- An address register. -/
def Core.ra (c : Core) (r : BitVec 3) : Dword := c.a.get r.toFin

/-- Write an address register. -/
def Core.writeA (c : Core) (r : BitVec 3) (x : Dword) : Core :=
  { c with a := c.a.set r.toNat x r.isLt, bundleAddr := r.toNat :: c.bundleAddr }

/-- Another instruction of the bundle already uses the address register (R136). -/
def clashAFault (c : Core) (r : BitVec 3) : Bool × CoreFault × Nat :=
  (c.bundleAddr.contains r.toNat, .writeClash, 0)

/-! ## Data-memory spans -/

/-- MEM_RANGE of a span read (R163). -/
def rangeFault (a len : Nat) : Bool × CoreFault × Nat := (pastDm a len, .memRange, a)

/-- MEM_RANGE of a span written: past the end, or in the resident area (R158, R163). -/
def writeRangeFault (c : Core) (a len : Nat) : Bool × CoreFault × Nat :=
  (pastDm a len || inResident c a len, .memRange, a)

/-- MEM_ALIGN. -/
def alignFault (a n : Nat) : Bool × CoreFault × Nat := (a % n != 0, .memAlign, a)

/-- Vector lanes of a list, missing lanes zero. -/
def lanesOf (xs : List Word) : Vector Word 32 := Vector.ofFn (fun i => nth 0#32 xs i.val)

/-- Lanes as a list. -/
def laneList (v : Vector Word 32) : List Word := v.toList

/-- The bytes of 32 lanes, little-endian. -/
def laneBytes (v : Vector Word 32) : List Byte := v.toList.flatMap (fun x => leBytes 4 x.toNat)

/-- 32-bit words from bytes. -/
def wordsOf : Nat → List Byte → List Word
  | 0, _ => []
  | n + 1, bs => BitVec.ofNat 32 (leNat (bs.take 4)) :: wordsOf n (bs.drop 4)

/-- 16-bit numbers from bytes. -/
def halvesOf : Nat → List Byte → List Nat
  | 0, _ => []
  | n + 1, bs => leNat (bs.take 2) :: halvesOf n (bs.drop 2)

/-! ## Plates (R234, R354, R355) -/

/-- A plate map entry (Table ISA-27). -/
structure MapEntry where
  voff : Nat
  log2n : Nat
  kvw : Nat
  resvd : Bool
  wher : Nat
  gaddr : Nat
deriving DecidableEq, Repr

/-- Read a plate map entry's 16 bytes. -/
def mapEntryOf (bs : List Byte) : MapEntry :=
  let n := leNat bs
  ⟨bitsOf n 0 24, bitsOf n 24 4, bitsOf n 28 3 + 1, bitOf n 31 || bitsOf n 34 30 != 0, bitsOf n 32 2, bitsOf n 64 64⟩

/-- Number of parts minus 1 of a plate format (Table PLT-1). -/
def fmtParts (f : Nat) : Nat := bitsOf f 0 2

/-- b of a part (Table PLT-1). -/
def fmtB (f p : Nat) : Nat := bitsOf f (2 + 3 * p) 3 + 1

/-- Groups of 32 positions in a part (R355). -/
def plateGroups (log2n : Nat) : Nat := max 1 (2 ^ (log2n - 5))

/-- Byte offset of a part in its plate (R355). -/
def partBase (f w log2n p : Nat) : Nat :=
  ((List.range p).map (fun q => plateGroups log2n * 32 * fmtB f q * (1 + 4 * w))).sum

/-- Bytes of a whole plate (R355). -/
def plateBytes (f w log2n : Nat) : Nat := partBase f w log2n (fmtParts f + 1)

/-- The bytes of a token run in their plate, in the order of the token-major compact blocks of R331: for token `t` and block
`i`, the E8 byte and then the 4w payload bytes (R355). -/
def plateRun (f w log2n p t0 ntok : Nat) : List Nat :=
  let b := fmtB f p
  (List.range ntok).flatMap (fun k =>
    let t := t0 + k
    let u := t % 32
    let g := partBase f w log2n p + t / 32 * 32 * b * (1 + 4 * w)
    (List.range b).flatMap (fun i =>
      (g + 32 * i + u) :: (List.range (4 * w)).map (fun j => g + 32 * b + (u * b + i) * 4 * w + j)))

/-- Bytes of a token run in data memory (R331). -/
def runBytes (f w p ntok : Nat) : Nat := ntok * fmtB f p * (1 + 4 * w)

/-- The lines a run touches, in ascending line order within each group, E8 lines first (R356), each with the spans that move
between the line and data memory. `voff` is the plate's vault offset, `dm` the data-memory address. -/
def plateLines (f w log2n p t0 ntok voff dm : Nat) : List VLine :=
  let offs := plateRun f w log2n p t0 ntok
  let pairs := (List.range offs.length).map (fun k => (voff + nth 0 offs k, dm + k))
  let lns := ((List.range (plateBytes f w log2n / 32)).map (fun l => voff / 32 + l)).filter
    (fun l => pairs.any (fun q => q.1 / 32 == l))
  lns.map (fun l => ⟨l, (pairs.filter (fun q => q.1 / 32 == l)).map (fun q => (q.1 % 32, q.2, 1))⟩)

end Sys2Proof.Machine
end

