-- ==== Sys2Proof/Machine/Vector.lean ====
section
/-! DEFINITION. The vector unit: loads and stores, lane arithmetic, conversions, reductions, etch encode and decode, trit and
quint instructions (R191 to R198). -/

namespace Sys2Proof.Machine

/-- The vector unit is occupied (R134, Table ISA-14). -/
def vecBusy (c : Core) : Bool × CoreFault × Nat := (decide (c.now < c.vecFree), .unitBusy, 0)

/-- The V-class instruction occupies the vector unit for `n` cycles. -/
def Core.useVec (c : Core) (n : Nat) : Core := { c with vecFree := c.now + n }

/-- Add format events to the turn's pending copy (R64). -/
def Core.fmtEvent (c : Core) (e : FmtEvents) : Core := { c with fmtPend := c.fmtPend.add e }

/-! ## Loads and stores (R193) -/

/-- LDV: 128 bytes, or 64 bytes as BF16 into lane bits [31:16]; latency 3. -/
def execLdv (i : Issue) (vd : BitVec 4) (aN : BitVec 3) (h : Bool) (s : State) : Host.Outcome State Fault Refusal :=
  .next (issueOp i 1 (fun s c =>
    let a := addrOf (c.ra aN)
    let len := if h then 64 else 128
    let bs := s.dm i.core.toNat a len
    let x := if h then lanesOf ((halvesOf 32 bs).map bf16Widen) else lanesOf (wordsOf 32 bs)
    { reads := [(a, len)]
      faults := [vecBusy c, rangeFault a len, alignFault a (if h then 2 else 4), clashAFault c aN, clashVFault c vd 3]
      eff := s.setCore i.core.toNat (((c.writeA aN (advanceAddr (c.ra aN))).retV vd x 3).useVec 1) }) s)

/-- STV: 128 bytes, or lane bits [31:16] as 64 bytes without rounding. -/
def execStv (i : Issue) (vs : BitVec 4) (aN : BitVec 3) (h : Bool) (s : State) : Host.Outcome State Fault Refusal :=
  .next (issueOp i 1 (fun s c =>
    let a := addrOf (c.ra aN)
    let len := if h then 64 else 128
    let bs := if h then (laneList (c.rv vs)).flatMap (fun x => leBytes 2 (bitsOf x.toNat 16 16)) else laneBytes (c.rv vs)
    { faults := [vecBusy c, writeRangeFault c a len, alignFault a (if h then 2 else 4), clashAFault c aN]
      eff := s.setCore i.core.toNat (((c.writeA aN (advanceAddr (c.ra aN))).store 1 a bs).useVec 1) }) s)

/-- VBCS: every lane takes the scalar; latency 2. -/
def execVbcs (i : Issue) (vd : BitVec 4) (sA : BitVec 5) (s : State) : Host.Outcome State Fault Refusal :=
  .next (issueOp i 1 (fun s c =>
    { faults := [vecBusy c, clashVFault c vd 2]
      eff := s.setCore i.core.toNat ((c.retV vd (Vector.replicate 32 (c.rs sA)) 2).useVec 1) }) s)

/-- VEXT: one lane to a scalar register; latency 2. -/
def execVext (i : Issue) (sd : BitVec 5) (va : BitVec 4) (lane : BitVec 5) (s : State) : Host.Outcome State Fault Refusal :=
  .next (issueOp i 1 (fun s c =>
    { faults := [vecBusy c, clashSFault c sd 2]
      eff := s.setCore i.core.toNat ((c.retS sd ((c.rv va).get lane.toFin) 2).useVec 1) }) s)

/-! ## Lane arithmetic (R191, R192, Table ISA-19) -/

/-- Does the word leave every unused R-form field zero (R162)? -/
def unusedR (r : RForm) (vb vc f : Bool) : Bool × CoreFault × Nat :=
  unusedField ((vb && r.vb != 0#4) || (vc && r.vc != 0#4) || (f && r.f != 0#8))

/-- What a lane operation does at issue; `lat` is its latency and `ok` whether T is allowed. `g` gives a lane and how many POISON events it
raises. -/
def laneSpec (i : Issue) (r : RForm) (unused ok : Bool) (lat : Nat) (g : Word → Word → Word → Word × Nat) (s : State) (c : Core) : OpSpec :=
  let rs := (List.range 32).map (fun k =>
    g (nth 0#32 (laneList (c.rv r.va)) k) (nth 0#32 (laneList (c.rv r.vb)) k) (nth 0#32 (laneList (c.rv r.vc)) k))
  { faults := [unusedField unused, vecBusy c, (!ok, .badOperand, r.t.toNat), clashVFault c r.vd lat]
    eff := s.setCore i.core.toNat
      (((c.retV r.vd (lanesOf (rs.map Prod.fst)) lat).useVec 1).fmtEvent { poison := (rs.map Prod.snd).sum }) }

/-- A lane operation issues. -/
def laneOp (i : Issue) (r : RForm) (unused ok : Bool) (lat : Nat) (g : Word → Word → Word → Word × Nat) (s : State) : State :=
  issueOp i 1 (laneSpec i r unused ok lat g) s

/-- Latency of an arithmetic instruction by lane format (Table ISA-3): 2 for INT32, 4 for FP32 and BF16. -/
def fpLat (t : BitVec 2) : Nat := if t = 2#2 then 2 else 4

/-- Lift an FP32 operation to the lane format T (R191): BF16 operands are widened and results rounded. An INT32 operand 0x8000_0000
is an ordinary number here, as R55 wraps it: DEDUCED, log entry 167. -/
def byFmt (t : BitVec 2) (fp : Word → Word → Word → Word) (int : Word → Word → Word → Word) (a b c : Word) : Word × Nat :=
  if t = 0#2 then (fp a b c, 0)
  else if t = 1#2 then (toBf16Lane (fp (bf16Lane a) (bf16Lane b) (bf16Lane c)), 0)
  else (int a b c, 0)

/-- Two-operand instruction of any format: vc and F unused. -/
def binOp (i : Issue) (r : RForm) (fp int : Word → Word → Word) (s : State) : State :=
  laneOp i r (r.vc != 0#4 || r.f != 0#8) (r.t != 3#2) (fpLat r.t)
    (byFmt r.t (fun a b _ => fp a b) (fun a b _ => int a b)) s

def execVadd (i : Issue) (r : RForm) (s : State) : Host.Outcome State Fault Refusal :=
  .next (binOp i r fpAdd (fun a b => a + b) s)

def execVsub (i : Issue) (r : RForm) (s : State) : Host.Outcome State Fault Refusal :=
  .next (binOp i r fpSub (fun a b => a - b) s)

def execVmul (i : Issue) (r : RForm) (s : State) : Host.Outcome State Fault Refusal :=
  .next (binOp i r fpMul (fun a b => a * b) s)

/-- R192: fused multiply-add, one rounding in FP32. -/
def execVfma (i : Issue) (r : RForm) (s : State) : Host.Outcome State Fault Refusal :=
  .next (laneOp i r (r.f != 0#8) (r.t != 3#2) (fpLat r.t) (byFmt r.t fpFma (fun a b c => a * b + c)) s)

/-- Signed maximum and minimum of INT32 lanes. -/
def intMax (a b : Word) : Word := if a.toInt < b.toInt then b else a
def intMin (a b : Word) : Word := if b.toInt < a.toInt then b else a

def execVmax (i : Issue) (r : RForm) (s : State) : Host.Outcome State Fault Refusal :=
  .next (binOp i r fpMax intMax s)

def execVmin (i : Issue) (r : RForm) (s : State) : Host.Outcome State Fault Refusal :=
  .next (binOp i r fpMin intMin s)

/-- An INT32-only instruction (T must be 2), latency 2. -/
def intOp (i : Issue) (r : RForm) (f : Word → Word → Word) (s : State) : State :=
  laneOp i r (r.vc != 0#4 || r.f != 0#8) (r.t == 2#2) 2 (fun a b _ => (f a b, 0)) s

/-- Saturate an integer to INT32. -/
def satInt (x : Int) : Word :=
  if x < -(2 ^ 31) then 0x80000000#32 else if 2 ^ 31 - 1 < x then 0x7FFFFFFF#32 else BitVec.ofInt 32 x

def execVadds (i : Issue) (r : RForm) (s : State) : Host.Outcome State Fault Refusal :=
  .next (intOp i r (fun a b => satInt (a.toInt + b.toInt)) s)

def execVsubs (i : Issue) (r : RForm) (s : State) : Host.Outcome State Fault Refusal :=
  .next (intOp i r (fun a b => satInt (a.toInt - b.toInt)) s)

def execVand (i : Issue) (r : RForm) (s : State) : Host.Outcome State Fault Refusal :=
  .next (intOp i r (fun a b => a &&& b) s)

def execVor (i : Issue) (r : RForm) (s : State) : Host.Outcome State Fault Refusal :=
  .next (intOp i r (fun a b => a ||| b) s)

def execVxor (i : Issue) (r : RForm) (s : State) : Host.Outcome State Fault Refusal :=
  .next (intOp i r (fun a b => a ^^^ b) s)

def execVshl (i : Issue) (r : RForm) (s : State) : Host.Outcome State Fault Refusal :=
  .next (intOp i r (fun a b => a <<< (b.toNat % 32)) s)

def execVshr (i : Issue) (r : RForm) (s : State) : Host.Outcome State Fault Refusal :=
  .next (intOp i r (fun a b => a.sshiftRight (b.toNat % 32)) s)

/-- The condition F of VCMP on ordered keys; a NaN operand holds only for NE (R192). -/
def cmpKeys (f : Nat) (nan : Bool) (x y : Int) : Bool :=
  if f = 0 then !nan && x == y
  else if f = 1 then !nan && decide (x < y)
  else if f = 2 then !nan && decide (x ≤ y)
  else nan || x != y

/-- VCMP on one lane (R192): a poison operand gives 0x8000_0000 and POISON. -/
def cmpLane (t : BitVec 2) (f : Nat) (a b : Word) : Word × Nat :=
  let hold := fun (p : Bool) => if p then (0xFFFFFFFF#32, 0) else (0#32, 0)
  if t = 2#2 then hold (cmpKeys f false a.toInt b.toInt)
  else
    let x := if t = 1#2 then bf16Lane a else a
    let y := if t = 1#2 then bf16Lane b else b
    if isPoison x || isPoison y then (poisonInt, 1)
    else hold (cmpKeys f (isNaN x || isNaN y) (fpCmpKey x) (fpCmpKey y))

def execVcmp (i : Issue) (r : RForm) (s : State) : Host.Outcome State Fault Refusal :=
  .next (laneOp i r (r.vc != 0#4) (r.t != 3#2 && decide (r.f.toNat < 4)) (fpLat r.t)
    (fun a b _ => cmpLane r.t r.f.toNat a b) s)

/-- R192: copies the selected lane whole, for every T. -/
def execVsel (i : Issue) (r : RForm) (s : State) : Host.Outcome State Fault Refusal :=
  .next (laneOp i r (r.f != 0#8) (r.t != 3#2) 2 (fun a b c => (if c ≠ 0#32 then a else b, 0)) s)

/-- VCVT on one lane (R192): F 0 to 3. -/
def cvtLane (f : Nat) (a : Word) : Word × Nat :=
  if f = 0 then (toBf16Lane a, 0)
  else if f = 1 then (bf16Lane a, 0)
  else if f = 2 then (fpToInt a, if isPoison a then 1 else 0)
  else (intToFp a, 0)

def execVcvt (i : Issue) (r : RForm) (s : State) : Host.Outcome State Fault Refusal :=
  .next (laneOp i r (r.vb != 0#4 || r.vc != 0#4) (r.t == 0#2 && decide (r.f.toNat < 4)) 4
    (fun a _ _ => cvtLane r.f.toNat a) s)

/-- R195: table-unit function F; T must be FP32 or BF16; latency 8. -/
def execVfn (i : Issue) (r : RForm) (s : State) : Host.Outcome State Fault Refusal :=
  .next (laneOp i r (r.vb != 0#4 || r.vc != 0#4)
    ((r.t == 0#2 || r.t == 1#2) && (tableFnOf r.f.toNat).isSome) 8
    (fun a _ _ =>
      match tableFnOf r.f.toNat with
      | some f => if r.t = 1#2 then (toBf16Lane (tableUnit f (bf16Lane a)), 0) else (tableUnit f a, 0)
      | none => (0#32, 0)) s)

/-! ## Reductions (R194) -/

/-- One folding step: lane i takes op(lane i, lane i + s) for every i < s. -/
def foldStep (op : Word → Word → Word) (xs : List Word) (s : Nat) : List Word :=
  (List.range s).map (fun i => op (nth 0#32 xs i) (nth 0#32 xs (i + s)))

/-- The fixed fold order of R194: s = 16, 8, 4, 2, 1. -/
def foldLanes (op : Word → Word → Word) (xs : List Word) : Word :=
  nth 0#32 ([16, 8, 4, 2, 1].foldl (foldStep op) xs) 0

/-- Order of ARGMAX: NaN above every number, −0 below +0 (R194). -/
def argKey (t : BitVec 2) (x : Word) : Int :=
  if t = 2#2 then x.toInt else if isNaN x then 2 ^ 33 else fpKey x

/-- Index of the largest lane, ties to the lower lane. -/
def argMaxLane (t : BitVec 2) (xs : List Word) : Nat :=
  (List.range 32).foldl (fun best i =>
    if argKey t (nth 0#32 xs best) < argKey t (nth 0#32 xs i) then i else best) 0

/-- VRED's lanes and its POISON events (R194). -/
def redLanes (t : BitVec 2) (f : Nat) (raw : List Word) : List Word × Nat :=
  let xs := if t = 1#2 then raw.map bf16Lane else raw
  let zeros := List.replicate 31 0#32
  if t != 2#2 && xs.any isPoison then
    if f = 3 then (poison32 :: poisonInt :: List.replicate 30 0#32, 1) else (poison32 :: zeros, 0)
  else if f = 3 then
    let k := argMaxLane t xs
    (nth 0#32 xs k :: BitVec.ofNat 32 k :: List.replicate 30 0#32, 0)
  else
    let fp := if f = 0 then fpAdd else if f = 1 then fpMax else fpMin
    let int : Word → Word → Word := if f = 0 then (fun a b => a + b) else if f = 1 then intMax else intMin
    let op : Word → Word → Word := if t = 2#2 then int else if t = 1#2 then (fun a b => toBf16Lane (fp a b)) else fp
    (foldLanes op xs :: zeros, 0)

/-- R194: reduction over the lanes; latency 6 (INT32) or 12. -/
def execVred (i : Issue) (r : RForm) (s : State) : Host.Outcome State Fault Refusal :=
  .next (issueOp i 1 (fun s c =>
    let lat := if r.t = 2#2 then 6 else 12
    let x := redLanes r.t r.f.toNat (laneList (c.rv r.va))
    { faults := [unusedR r true true false, vecBusy c, (r.t == 3#2 || decide (3 < r.f.toNat), .badOperand, r.f.toNat),
        clashVFault c r.vd lat]
      eff := s.setCore i.core.toNat
        (((c.retV r.vd (lanesOf x.1) lat).useVec 1).fmtEvent { poison := x.2 }) }) s)

/-! ## Trits and quints (R196) -/

/-- The quint bytes 7q to 7q + 6 of va. -/
def quintBytes (v : Vector Word 32) (q : Nat) : List Byte := ((laneBytes v).drop (7 * q)).take 7

/-- VUNQ: unpacks quints to INT32 trits; latency 2. -/
def execVunq (i : Issue) (r : RForm) (s : State) : Host.Outcome State Fault Refusal :=
  .next (issueOp i 1 (fun s c =>
    let q := bitsOf r.f.toNat 0 5
    let bs := quintBytes (c.rv r.va) q
    let ts := (bs.flatMap (fun b => (List.range 5).map (quintTrit b))).take 32
    { faults := [unusedField (r.vb != 0#4 || r.vc != 0#4 || decide (31 < r.f.toNat)), vecBusy c,
        (r.t != 0#2 || decide (17 < q), .badOperand, q), (!bs.all quintOk, .fmtCode, q), clashVFault c r.vd 2]
      eff := s.setCore i.core.toNat ((c.retV r.vd (lanesOf (ts.map (BitVec.ofInt 32))) 2).useVec 1) }) s)

/-- VUTP: unpacks two trit-pair words; latency 2. -/
def execVutp (i : Issue) (r : RForm) (s : State) : Host.Outcome State Fault Refusal :=
  .next (issueOp i 1 (fun s c =>
    let cs := tritCodes ((laneBytes (c.rv r.va)).take 8)
    { faults := [unusedR r true true true, vecBusy c, (r.t != 0#2, .badOperand, r.t.toNat),
        (cs.any (fun x => x == 2), .fmtCode, 0), clashVFault c r.vd 2]
      eff := s.setCore i.core.toNat
        ((c.retV r.vd (lanesOf (cs.map (fun x => BitVec.ofInt 32 ((tritOf x).getD 0)))) 2).useVec 1) }) s)

/-- A trit-pair word from 16 lanes' signs. -/
def packSigns (xs : List Word) : Word :=
  BitVec.ofNat 32 (xs.foldr (fun x acc => tritCode x.toInt + 4 * acc) 0)

/-- VPKT: packs lane signs into two trit-pair words; latency 2. -/
def execVpkt (i : Issue) (r : RForm) (s : State) : Host.Outcome State Fault Refusal :=
  .next (issueOp i 1 (fun s c =>
    let xs := laneList (c.rv r.va)
    { faults := [unusedR r true true true, vecBusy c, (r.t != 0#2, .badOperand, r.t.toNat), clashVFault c r.vd 2]
      eff := s.setCore i.core.toNat
        ((c.retV r.vd (lanesOf [packSigns (xs.take 16), packSigns (xs.drop 16)]) 2).useVec 1) }) s)

/-! ## Etch encode and decode (R187, R197, R198) -/

/-- Entries an overflow list still has room for. -/
def listRoom (s : State) (n a : Nat) : Nat := 64 - ovfCount (s.dm n a 8)

/-- Append entries to the overflow list at `a`, and set FULL where a clip found it full (R187); the header's reserved bits are written as
zero (Table FMT-5). -/
def appendOvf (n a : Nat) (es : List OvfEntry) (full : Bool) (s : State) : State :=
  let h := s.dm n a 8
  let k := ovfCount h
  let m1 := s.mem.write (dmAddr n (a + 8 + 8 * k)) (es.flatMap ovfBytes)
  let h' := putBits (putBits 0 0 7 (k + es.length)) 7 1 (bit (ovfFull h || full))
  if es.isEmpty && !full then s
  else { s with mem := m1.write (dmAddr n a) (leBytes 8 h') }

/-- Write an encoded block and its list entries, and count its events (R187, R197). -/
def putEncoded (n dst ovf : Nat) (compact : Bool) (e : Encoded) (s : State) : State :=
  let s1 := if compact then s else appendOvf n ovf e.entries e.full s
  let s2 := { s1 with mem := s1.mem.write (dmAddr n dst) e.bytes }
  s2.updCore n (fun c => c.fmtEvent e.ev)

/-! ## Writes of a unit that writes in a later cycle (R139, R187) -/

/-- Memory as a unit sees it when it appends at the end of cycle `cyc`: with the writes of earlier-issued instructions of that cycle. -/
def State.withEarlier (s : State) (n ord cyc : Nat) : State :=
  ((s.core n).timeline.filter (fun x => decide (x.cycle ≤ cyc + 1) && decide (x.ord < ord))).foldl (fun (s : State) x =>
    match x.act with
    | .dmem _ a bs => { s with mem := s.mem.write (dmAddr n a) bs }
    | _ => s) s

/-- The bytes of `from` in the spans are written at the end of cycle `cyc`, in the place that `ord` has in the issue order. -/
def landSpans (n ord cyc : Nat) (spans : List (Nat × Nat)) (mem : Mem) (src : State) : State :=
  ({ src with mem := mem } : State).updCore n (fun c =>
    spans.foldl (fun c sp => c.schedAs ord (cyc + 1) (.dmem false sp.1 (src.dm n sp.1 sp.2))) c)

/-- The spans of an overflow list that appends changed. -/
def ovfSpans (n a : Nat) (before after : State) : List (Nat × Nat) :=
  let k0 := ovfCount (before.dm n a 8)
  let k1 := ovfCount (after.dm n a 8)
  if before.dm n a 8 = after.dm n a 8 then [] else [(a, 8), (a + 8 + 8 * k0, 8 * (k1 - k0))]

/-- A roll value of this core under the team seed (R120, R122). -/
def Core.roll (c : Core) (roll n : Nat) : Nat := rollValue c.teamSeed c.turn c.rank roll n

/-- VENC (R197): starts encoding 32 values; occupies the vector unit for 4 cycles and writes at the end of c + 15. -/
def execVenc (i : Issue) (r : RForm) (s : State) : Host.Outcome State Fault Refusal :=
  .next (issueOp i 1 (fun s c =>
    let sA : BitVec 5 := BitVec.ofNat 5 r.f.toNat
    let d := (c.rs sA).toNat
    let q := (c.rs1 sA 1).toNat
    let w := bitsOf d 16 3 + 1
    let cp := bitOf d 23
    let dst := bitsOf d 0 16
    let ovf := bitsOf q 16 16
    let xs := (laneList (c.rv r.va)).map (fun x => if r.t = 1#2 then bf16Lane x else x)
    let job : VencJob :=
      { xs := xs, chan := (List.range 32).foldr (fun k acc => bit (nth 0#32 (laneList (c.rv r.vb)) k != 0#32) + 2 * acc) 0
        dst := dst, w := w, outShift := bitsOf d 19 3, qstip := bitOf d 22, compact := cp, qroll := bitsOf q 0 16
        ovfAddr := ovf, blk := (c.rs1 sA 2).toNat, cnt := (c.rs1 sA 3).toNat, writeEnd := c.now + 15 }
    { reads := if cp then [] else [(ovf, 8)]
      faults := [unusedField (r.vd != 0#4 || r.vc != 0#4 || decide (31 < r.f.toNat)), vecBusy c,
        (!regAligned sA 4, .badOperand, 0), (r.t != 0#2 && r.t != 1#2, .badOperand, r.t.toNat),
        (!cp && bitsOf d 19 3 == 0, .badOperand, d),
        writeRangeFault c dst (blockBytes w cp), (!cp && (pastDm ovf 520 || inResident c ovf 520), .memRange, ovf),
        (!cp && dst % 4 != 0, .memAlign, dst), (!cp && ovf % 8 != 0, .memAlign, ovf),
        (!cp && decide (64 < ovfCount (s.dm i.core.toNat ovf 8)), .fmtCode, ovf)]
      eff := s.setCore i.core.toNat { c.useVec 4 with vencs := c.vencs ++ [job] } }) s)

/-- R197: a VENC writes its block and appends its list entries. -/
def execVencWrite (core : BitVec 12) (s : State) : Host.Outcome State Fault Refusal :=
  let n := core.toNat
  match (s.core n).vencs with
  | [] => .next s
  | j :: rest =>
    let s1 := settle n j.writeEnd (s.updCore n (fun c => { c with vencs := rest }))
    let ord := 4 * (j.writeEnd - 15) + 1
    let s2 := s1.withEarlier n ord j.writeEnd
    let c := s2.core n
    let room := if j.compact then 0 else listRoom s2 n j.ovfAddr
    let e := encodeBlock j.w j.outShift j.compact j.blk room j.xs (fun k => bitOf j.chan k)
      (fun k => if j.qstip then .stipple (c.roll j.qroll (j.cnt + j.blk * 32 + k)) else .nearest)
    let t := putEncoded n j.dst j.ovfAddr j.compact e s2
    .next (landSpans n ord j.writeEnd
      ((j.dst, e.bytes.length) :: (if j.compact then [] else ovfSpans n j.ovfAddr s2 t)) s1.mem t)

/-- VDEC (R198): decodes one block to FP32 lanes; latency 8. -/
def execVdec (i : Issue) (vd : BitVec 4) (sA : BitVec 5) (w : BitVec 3) (cp ol : Bool) (s : State) :
    Host.Outcome State Fault Refusal :=
  .next (issueOp i 1 (fun s c =>
    let n := i.core.toNat
    let d := (c.rs sA).toNat
    let a := bitsOf d 0 16
    let la := bitsOf d 16 16
    let blk := (c.rs1 sA 1).toNat
    let ww := w.toNat + 1
    let len := blockBytes ww cp
    let b := readBlock ww cp (s.dm n a len)
    let lst := readOvfList (s.dm n la 520)
    let es := if ol then (lst.getD []).filter (fun e => e.block == blk) else []
    let badSlot := b.outValid && b.e8 != 0 && b.e8 != 255 && es.any (fun e => e.lane == b.outLane)
    let r := decodeBlock ww b es
    { reads := (a, len) :: (if ol then [(la, 520)] else [])
      faults := [vecBusy c, (!regAligned sA 2, .badOperand, 0), (cp && ol, .badOperand, 0),
        rangeFault a len, (ol && pastDm la 520, .memRange, la),
        (!cp && a % 4 != 0, .memAlign, a), (ol && la % 8 != 0, .memAlign, la),
        (ol && (lst.isNone || badSlot), .fmtCode, la), clashVFault c vd 8]
      eff := s.setCore n (((c.retV vd (lanesOf r.1) 8).useVec 1).fmtEvent r.2) }) s)

end Sys2Proof.Machine
end

