-- ==== Sys2Proof/Machine/Plane.lean ====
section
/-! DEFINITION. The plane engine: modes, tile loads, tile swap, PLN and its row writes, the exception and channel tables
(R65 to R83, R93 to R97, R168 to R178). -/

namespace Sys2Proof.Machine

/-- The plane engine is occupied (R134, Table ISA-14). -/
def engBusy (c : Core) : Bool × CoreFault × Nat := (decide (c.now < c.engFree), .unitBusy, 0)

/-- R81 to R83, R168: MODE, a barrier of 6 cycles. A group that opens is OPEN to its check from the opening's issue, and one that a GSPL
frees until the GSPL has ended (log entry 159). -/
def execMode (i : Issue) (w k : BitVec 3) (xb : BitVec 2) (s : State) : Host.Outcome State Fault Refusal :=
  .next (issueOp i 0 (fun s c =>
    let w' := w.toNat + 1
    let k' := k.toNat
    { faults := [engBusy c, (k' == 0 || decide (5 < k') || xb == 3#2, .badOperand, 0),
        (c.groups.toList.any (fun g => (g.st == .opened || g.openIn c.now) && (g.w != w' || g.k != k')), .accFormat, 0)]
      eff := s.setCore i.core.toNat
        { c with mode := ⟨w', k', xb.toNat⟩, engFree := c.now + 6, nextIssue := max c.nextIssue (c.now + 6) } }) s)

/-! ## Tile loads -/

/-- The vault lines from byte `lo` to byte `hi`. -/
def lineRange (lo hi : Nat) : List Nat := (List.range (hi / 32 + 1 - lo / 32)).map (fun k => lo / 32 + k)

/-- Lines of a tile request: the second field of a span is 1 for a line of the base tile. -/
def tileLines (isBase : Nat) (ls : List Nat) : List VLine := ls.map (fun l => ⟨l, [(0, isBase, 32)]⟩)

/-- Bytes of a core's vault. -/
def State.vault (s : State) (n off len : Nat) : List Byte := s.mem.read (vaultBase n + off) len

/-- The lines of a coded block after its header line, from the header's bytes (R314): RAW spans 412 bytes, DELTA spans LEN
bytes and then the 410 bytes at BASE. A block of another kind is a media error and has no further line (R316). -/
def codedRest (off : Nat) (h : List Byte) : List VLine :=
  let body := fun (len : Nat) => (lineRange off (off + len - 1)).drop 1
  if blkKind h = 0 then tileLines 0 (body 412)
  else if blkKind h = 2 then
    tileLines 0 (body (max 12 (deltaLen h))) ++ tileLines 1 (lineRange (deltaBase h) (deltaBase h + 409))
  else []

/-- The first byte past a coded block and its base tile. -/
def codedEnd (off : Nat) (h : List Byte) : Nat :=
  if blkKind h = 0 then off + 412
  else if blkKind h = 2 then max (off + max 12 (deltaLen h)) (deltaBase h + 410)
  else off + 1

/-- How a new tile load shares its first line with the load ahead of it in the vault port's queue (R170, R314): the line is still to be
served; it was served in this cycle or later; or the load ahead is coded and its last line is not known yet. -/
inductive Sharing where
  | own
  | queued (tag : Nat)
  | served (ahead : TileLoad)
  | unknown (tag : Nat)
deriving DecidableEq, Repr

/-- Is it a plain tile? -/
def TileLoad.isQuint (ld : TileLoad) : Bool :=
  match ld.kind with
  | .quint _ => true
  | _ => false

/-- Where the port stands after the last line of a tile load: a coded one of which the header's line alone was fetched has held it (R314). -/
def TileLoad.portAfter (x : TileLoad) : Nat := x.lastAt + (if x.isCoded && x.bytes.length == 32 && x.base.isEmpty then 3 else 1)

/-- How a tile load of kind QUINT or CODED (`coded`) whose first line is `l` shares it. Two QUINT loads share (R170), and a CODED one shares
its header's line with the load ahead (R314). -/
def Core.sharing (c : Core) (coded : Bool) (l : Nat) : Sharing :=
  match c.vq.getLast? with
  | some r =>
    match c.tiles.find? (fun x => r.kind == .tile x.tag) with
    | some x =>
      if !coded && !x.isQuint then .own
      else if x.isCoded && x.bytes.isEmpty then .unknown x.tag
      else if r.lines.getLast?.map (fun y => y.line) == some l then .queued x.tag
      else .own
    | none => .own
  | none =>
    match c.tiles.find? (fun x => x.served && x.portAfter == c.portNext && decide (c.now ≤ x.lastAt) && x.lastLine == l) with
    | some x => if coded || x.isQuint then .served x else .own
    | none => .own

/-- The interlocks of a vault request (R149). -/
def Core.queueStall (c : Core) : List Interlock := if 8 ≤ c.vq.length then [.queue] else []

/-- The interlocks of a tile load (R149). -/
def Core.tileStall (c : Core) : List Interlock := if 2 ≤ c.outstandingAt c.now then [.outstanding] else []

/-! ## Lines of a tile -/

/-- What the tile path does with line `l` of a tile, served in cycle `t`: `isBase` marks a line of the base tile. -/
def TileLoad.take (ld : TileLoad) (l t : Nat) (isBase : Bool) (bytes : List Byte) (bad : Bool) : TileLoad :=
  { ld with
    base := if isBase then ld.base ++ bytes else ld.base
    bytes := if isBase then ld.bytes else ld.bytes ++ bytes
    bad := ld.bad || bad, lastLine := l, lastAt := t, lastBad := bad }

/-- The bytes of the line that came last. -/
def TileLoad.lastBytes (ld : TileLoad) : List Byte :=
  let all := if ld.base.isEmpty then ld.bytes else ld.base
  all.drop (all.length - 32)

/-- Extra cycles a DELTA block takes before its tile is ready (R315). A tile of which a line cannot be read keeps its schedule (R316): its header
is that of the vault's contents as written. -/
def codedDelay (peek : Nat → List Byte) (ld : TileLoad) : Nat :=
  match ld.kind with
  | .coded off =>
    let h := if ld.bad then peek off else ld.bytes.drop (off % 32)
    if blkKind h = 2 then ceilDiv (deltaNchg h) 64 else 0
  | _ => 0

/-- After the line that holds a coded block's header, the lines still to fetch (R314). A header that runs into the next line is read whole
(log entry 127): `peek` reads vault bytes. -/
def headerRest (peek : Nat → List Byte) (ld : TileLoad) : Option (List VLine) :=
  match ld.kind with
  | .coded off => if ld.bytes.length = 32 && ld.base.isEmpty then some (codedRest off (peek off)) else none
  | _ => none

/-- The request of a tile in the queue, with the lines a header names added; the port serves none of them before `t` + 3 (R314). -/
def extendReq (tag t : Nat) (ls : List VLine) : List VReq → List VReq
  | [] => []
  | r :: rs =>
    if r.kind = .tile tag then { r with lines := r.lines ++ ls, earliest := t + 3 } :: rs
    else r :: extendReq tag t ls rs

/-- The first vault line of a tile load. -/
def TileLoad.firstLine (ld : TileLoad) : Nat :=
  match ld.kind with
  | .quint o => o / 32
  | .wide o _ => o / 32
  | .coded o => o / 32
  | .pairs _ => 0

/-- The last line of coded tile `tag` is now known: the coded load behind it shares it, or reads its own header's line (R314). -/
def settleFollower (tag last : Nat) (c : Core) : Core :=
  match c.tiles.find? (fun y => y.follows == some tag) with
  | none => c
  | some y =>
    let shares := y.firstLine == last
    { c.updTile y.tag (fun x => { x with follows := none, sharedFrom := if shares then some tag else none }) with
      vq := if shares then c.vq.map (fun (r : VReq) => if r.kind = .tile y.tag then { r with lines := r.lines.drop 1 } else r)
        else c.vq }

/-- Give line `l`, served in cycle `t`, to a tile load, and end the load when it was its last. The port serves no line in the two cycles after
a header's, whatever the header names (R314). -/
def feedTile (peek : Nat → List Byte) (tag l t : Nat) (isBase : Bool) (bytes : List Byte) (bad : Bool) (c : Core) : Core :=
  let c1 := c.updTile tag (fun ld => ld.take l t isBase bytes bad)
  match c1.tiles.find? (fun ld => ld.tag == tag) with
  | none => c
  | some ld =>
    let rest : Option (List VLine) := if isBase then none else headerRest peek ld
    let c2 : Core := match rest with
      | some ls => settleFollower tag ((ls.getLast?.map (fun x => x.line)).getD l) { c1 with vq := extendReq tag t ls c1.vq }
      | none => c1
    let left := (c2.vq.filter (fun r => r.kind == .tile tag)).any (fun r => !r.lines.isEmpty)
    { (if left then c2 else c2.updTile tag (fun x => { x with served := true, readyAt := t + 4 + codedDelay peek x })) with
      portNext := if rest = some [] then max c2.portNext (t + 3) else c2.portNext
      vq := c2.vq.filter (fun r => !(r.kind == .tile tag && r.lines.isEmpty)) }

/-- Give the last line of tile `tag` to the load that shares it (R170). -/
def feedSharer (peek : Nat → List Byte) (tag l t : Nat) (bytes : List Byte) (bad : Bool) (c : Core) : Core :=
  match c.tiles.find? (fun ld => ld.sharedFrom == some tag) with
  | none => c
  | some x =>
    feedTile peek x.tag l t false bytes bad
      (c.updTile x.tag (fun ld => { ld with sharedFrom := none }))

/-- Is tile `tag` still waiting for lines? -/
def Core.tileOpen (c : Core) (tag : Nat) : Bool := c.tiles.any (fun ld => ld.tag == tag && !ld.served)

/-- R169, R170: TLD starts a tile fetch. -/
def execTld (i : Issue) (sA : BitVec 5) (src : BitVec 2) (tpos : BitVec 3) (s : State) : Host.Outcome State Fault Refusal :=
  .next (issueOp i 0 (fun s c =>
    let n := i.core.toNat
    let off := (c.rs sA).toNat % 2 ^ 24
    let h := s.vault n off 12
    let tag := c.nextTag
    let last := if src = 0#2 then off + 409 else if src = 1#2 then off + 2047 else codedEnd off h - 1
    let lines := if src = 2#2 then tileLines 0 [off / 32] else tileLines 0 (lineRange off last)
    let how := if src = 1#2 then .own else c.sharing (src == 2#2) (off / 32)
    let kind : TileKind :=
      if src = 0#2 then .quint off else if src = 1#2 then .wide off tpos.toNat else .coded off
    let ld : TileLoad :=
      { tag := tag, kind := kind, pc := c.pc, bytes := [], base := [], bad := false, served := false, readyAt := 0
        sharedFrom := match how with
          | .queued x => some x
          | _ => none
        follows := match how with
          | .unknown x => some x
          | _ => none }
    let mine := match how with
      | .queued _ => lines.drop 1
      | .served _ => lines.drop 1
      | _ => lines
    let c1 := { c.bumpTag with
      vq := c.vq ++ [{ kind := .tile tag, lines := mine, earliest := c.now, ord := 4 * c.now }], tiles := c.tiles ++ [ld] }
    { stall := c.queueStall ++ c.tileStall
      faults := [(src == 3#2 || decide (4 < tpos.toNat) || (src != 1#2 && tpos != 0#3), .badOperand, tpos.toNat),
        (decide (2 ^ 24 ≤ last), .memRange, off), (src == 1#2 && off % 32 != 0, .memAlign, off),
        (!c.queueStall.isEmpty, .vaultQueue, 0), (!c.tileStall.isEmpty, .tileOrder, 0)]
      eff := s.setCore n (match how with
        | .served x => feedTile (fun o => s.vault n o 12) tag (off / 32) x.lastAt false x.lastBytes x.lastBad c1
        | _ => c1) }) s)

/-- Schedule captures of `n` pieces of 32 bytes in consecutive cycles, the last piece `tail` bytes. -/
def schedPieces (tag addr : Nat) : Nat → Nat → Nat → Core → Core
  | 0, cycle, tail, c => c.schedCap cycle tag addr tail
  | k + 1, cycle, tail, c => schedPieces tag (addr + 32) k (cycle + 1) tail (c.schedCap cycle tag addr 32)

/-- R171: TLDM loads a tile in trit-pair form; ready in cycle c + 20. -/
def execTldm (i : Issue) (sA : BitVec 5) (layout : Bool) (s : State) : Host.Outcome State Fault Refusal :=
  .next (issueOp i 0 (fun s c =>
    let a := (c.rs sA).toNat % 65536
    let tag := c.nextTag
    let ld : TileLoad :=
      { tag := tag, kind := .pairs layout, pc := c.pc, bytes := [], base := [], bad := false, served := true
        readyAt := c.now + 20, sharedFrom := none }
    { reads := [(a, 512)]
      stall := c.tileStall
      faults := [rangeFault a 512, alignFault a 16, (!c.tileStall.isEmpty, .tileOrder, 0)]
      eff := s.setCore i.core.toNat
        (schedPieces tag a 15 (c.now + 1) 32 { c.bumpTag with tiles := c.tiles ++ [ld] }) }) s)

/-- The cycle of the next bundle a core can issue, where one is known. -/
def Core.nextCycle (c : Core) : Option Nat :=
  match c.exec, c.sectNext with
  | .issuing, _ => some c.nextIssue
  | .atSect, some x => x.start.map (fun t => max c.nextIssue t)
  | _, _ => none

/-- R68, R69, R172: the next tile becomes ready. Where a bundle of an earlier cycle has still to issue its cycle has not come yet: that
bundle's successor finds it (`openBundle`). -/
def execTileReady (core : BitVec 12) (s : State) : Host.Outcome State Fault Refusal :=
  let n := core.toNat
  let c := s.core n
  match c.nextReady with
  | none => .next s
  | some ld =>
    let early := c.bundleOpen || (match c.nextCycle with
      | some t => decide (t < ld.readyAt)
      | none => false)
    if early then .next s else .next (tileReady n (c.nextCycle == some ld.readyAt) ld s)

/-- TSW's exchange of the two buffers (R69, R174). -/
def Core.swapTiles (c : Core) : Core := { c with front := c.back, back := c.front, backReady := false }

/-- R174: TSW. -/
def execTsw (i : Issue) (s : State) : Host.Outcome State Fault Refusal :=
  .next (issueOp i 0 (fun s c =>
    { stall := if c.backReady then [] else [.tile]
      faults := [(!c.backReady || decide (c.now < c.presenting), .tileOrder, 0)]
      eff := s.setCore i.core.toNat c.swapTiles }) s)

/-! ## XLD and CLD (R177, R178) -/

/-- R177: XLD reads the 520 bytes of an overflow list in cycles c to c + 16. -/
def execXld (i : Issue) (sA : BitVec 5) (s : State) : Host.Outcome State Fault Refusal :=
  .next (issueOp i 0 (fun s c =>
    let a := (c.rs sA).toNat % 65536
    let tag := c.nextTag
    { reads := [(a, 520)]
      faults := [engBusy c, rangeFault a 520, alignFault a 8]
      eff := s.setCore i.core.toNat
        (schedPieces tag a 16 c.now 8
          { c.bumpTag with engFree := c.now + 17, xld := some ⟨tag, 0, c.now + 16, c.pc⟩ }) }) s)

/-- R178: CLD reads the 130 bytes of a channel list in cycles c to c + 4. -/
def execCld (i : Issue) (sA : BitVec 5) (s : State) : Host.Outcome State Fault Refusal :=
  .next (issueOp i 0 (fun s c =>
    let x := (c.rs sA).toNat
    let a := x % 65536
    let ch := if bitsOf x 16 16 = 0 then 65536 else bitsOf x 16 16
    let tag := c.nextTag
    { reads := [(a, 130)]
      faults := [engBusy c, rangeFault a 130, alignFault a 2]
      eff := s.setCore i.core.toNat
        (schedPieces tag a 4 c.now 2
          { c.bumpTag with engFree := c.now + 5, cld := some ⟨tag, ch, c.now + 4, c.pc⟩ }) }) s)

/-- R177: an XLD finishes and installs the table, or raises FMT_CODE and keeps it. -/
def execXldComplete (core : BitVec 12) (s : State) : Host.Outcome State Fault Refusal :=
  let n := core.toNat
  match (s.core n).xld with
  | none => .next s
  | some j =>
    let s1 := settle n j.doneCycle s
    let c := s1.core n
    let c1 := { c.dropCap j.tag with xld := none }
    match readOvfList (c.cap j.tag) with
    | some es => .next (s1.setCore n { c1 with xtab := es })
    | none => .next (faultAfter n .fmtCode 0 j.pc j.doneCycle (s1.setCore n c1))

/-- R178: a CLD finishes and installs the table, or raises FMT_CODE and keeps it. -/
def execCldComplete (core : BitVec 12) (s : State) : Host.Outcome State Fault Refusal :=
  let n := core.toNat
  match (s.core n).cld with
  | none => .next s
  | some j =>
    let s1 := settle n j.doneCycle s
    let c := s1.core n
    let c1 := { c.dropCap j.tag with cld := none }
    match readChanList (c.cap j.tag) j.channels with
    | some cs => .next (s1.setCore n { c1 with ctab := cs })
    | none => .next (faultAfter n .fmtCode 0 j.pc j.doneCycle (s1.setCore n c1))

/-! ## PLN (R72 to R80, R175, R176) -/

/-- Exceptions the engine budgets per vector (R78). -/
def xbCount (xb : Nat) (cb : Bool) : Nat := if cb || xb = 0 then 0 else if xb = 1 then 1 else 4

/-- First plane cycle of vector m (R78). -/
def planeCycle (w m : Nat) : Nat := if w = 1 then m / 4 else if w = 2 then m / 2 else if w ≤ 4 then m else 2 * m

/-- Cplane of Table PLN-2. -/
def planeCycles (w m : Nat) : Nat := if w = 1 then ceilDiv m 4 else if w = 2 then ceilDiv m 2 else if w ≤ 4 then m else 2 * m

/-- C of R78. -/
def plnCycles (w m xbe : Nat) : Nat := max (planeCycles w m) (ceilDiv (m * xbe) 4)

/-- s_m of R78. -/
def presentAt (w xbe m : Nat) : Nat := max (planeCycle w m) (m * xbe / 4)

/-- Schedule the S1 reads of a PLN's blocks: vector k in cycle c + s_k, under tag `tag + k`. -/
def schedBlocks (len w xbe tag : Nat) : Nat → List Nat → Core → Core
  | _, [], c => c
  | k, a :: t, c => schedBlocks len w xbe tag (k + 1) t (c.schedCap (c.now + presentAt w xbe k) (tag + k) a len)

/-- R175: PLN presents M vectors against the front tile. PLN_VEC_CNT and PLN_BUSY_CNT take all M vectors and C cycles as it issues: the
spec gives no cycle in which they advance (R84). DESIGN CHOICE, log entry 130. -/
def execPln (i : Issue) (g aN : BitVec 3) (sX : BitVec 5) (m1 rowOff : BitVec 6) (triple sw cb : Bool) (s : State) :
    Host.Outcome State Fault Refusal :=
  .next (issueOp i 0 (fun s c =>
    let n := i.core.toNat
    let m := m1.toNat + 1
    let md := c.mode
    let len := blockBytes md.w cb
    let ta := takeAddrs m (c.ra aN)
    let gr := c.groups.get g.toFin
    let xbe := xbCount md.xb cb
    let cyc := plnCycles md.w m xbe
    let x1 := (c.rs1 sX 1).toNat
    let blk := fun (k : Nat) => wrap (((c.rs sX).toNat : Int) + (k : Int) * sext x1 16) 32
    let sw1 := if sw then c.swapTiles else c
    let tile := sw1.front.getD Tile.zero
    let job : PlnJob :=
      { g := g.toNat, tile := tile, w := md.w, xb := xbe, compact := cb, triple := triple, jBlk := bitsOf x1 16 11
        ctab := c.ctab, xtab := c.xtab
        vecs := (List.range m).map (fun k =>
          ⟨gr.rowBase + rowOff.toNat + k, if cb then 0 else blk k, c.nextTag + k,
            c.now + presentAt md.w xbe k + 5 + (if md.w ≤ 4 then 0 else 1)⟩) }
    let c1 := { sw1.writeA aN ta.2 with
      engFree := c.now + cyc, presenting := c.now + cyc
      plns := c.plns ++ [job]
      groups := c.groups.set g.toNat { gr with nb := gr.nb + 1 } g.isLt
      plnVecCnt := c.plnVecCnt + m, plnBusyCnt := c.plnBusyCnt + cyc }
    let c2 := schedBlocks len md.w xbe c.nextTag 0 ta.1 c1
    { reads := ta.1.map (fun a => (a, len))
      stall := if sw && !c.backReady then [.tile] else []
      faults := [unusedField (cb && sX != 0#5), engBusy c, (!cb && !regAligned sX 2, .badOperand, 0),
        (triple && md.k == 1, .badOperand, 0),
        (ta.1.any (fun a => pastDm a len), .memRange, nth 0 ta.1 0),
        (!cb && ta.1.any (fun a => a % 4 != 0), .memAlign, nth 0 ta.1 0),
        (!gr.openIn c.now, .accState, 0), (decide (gr.rowCount < rowOff.toNat + m), .accRows, 0),
        (decide (gr.n ≤ gr.nb), .accSpill, 0), (decide (c.now < gr.busyUntil), .accBusy, 0),
        (sw && (!c.backReady || decide (c.now < c.presenting)), .tileOrder, 0),
        (!sw && c.front.isNone, .tileOrder, 0), clashAFault c aN]
      eff := s.setCore n { c2 with nextTag := c.nextTag + m } }) s)

/-! ## The block-float combine (R93 to R95) -/

/-- A contribution to a row: its exponent e and its integer x for each column. -/
structure Contribution where
  e : Int
  x : Nat → Int

/-- Rounding of a group's row event at a counter slot and column (R94). -/
def Core.rowRounding (c : Core) (g : Group) (slot col : Nat) : Rounding :=
  if g.stipple then .stipple (c.roll g.roll (g.rseq * 256 + slot * 64 + col)) else .nearest

/-- Clamp to a symmetric range; the flag says it clamped. -/
def clampSym (x lim : Int) : Int × Bool :=
  if lim < x then (lim, true) else if x < -lim then (-lim, true) else (x, false)

/-- A row of accumulator memory. -/
def Core.accRow (c : Core) (r : Nat) : AccRow := look {} c.acc r

/-- Add accumulator events to the turn's pending copy (R108). -/
def Core.accEvent (c : Core) (e : AccEvents) : Core := { c with accPend := c.accPend.add e }

/-- Settle a row's owed shift on its masked columns, counter slot 0 (R93); the flag says nonzero bits were discarded. -/
def settleRow (c : Core) (g : Group) (r : AccRow) : AccRow × Bool :=
  let den := 2 ^ r.owed
  let f := fun (k : Nat) (x : Int) => if bitOf g.mask k then roundQ (c.rowRounding g 0 k) x den else x
  ({ r with cols := (List.range 64).map (fun k => f k (nth 0 r.cols k)), owed := 0 },
    (onesOf 64 g.mask).any (fun k => inexact (nth 0 r.cols k) den))

/-- Add `d` to the shift every row of a group owes. -/
def oweShift (base count d : Nat) (acc : List (Nat × AccRow)) : List (Nat × AccRow) :=
  (List.range count).foldl (fun t k => upd {} t (base + k) (fun r => { r with owed := r.owed + d })) acc

/-- The exact sum of a row value and contributions in units of 2^l, as numerator and denominator. -/
def combineSum (row : Int) (l : Int) (col : Nat) (cs : List Contribution) : Int × Nat :=
  (cs.foldl (fun (d : Dyadic) k => d.plus ⟨k.x col, k.e⟩) ⟨row, l⟩).over l

/-- R93: one row write of group `gi`. A row write without a contribution leaves the row as it was, untripled, as R93's pseudocode has it,
though R35, R79 and Table PLN-1 have S6 write 3 times the row: DESIGN CHOICE, log entry 24. -/
def combineRow (c : Core) (gi : Fin 8) (row : Nat) (cs : List Contribution) (triple : Bool) : Core :=
  match cs with
  | [] => c
  | k0 :: ks =>
    let g := c.groups.get gi
    let top := ks.foldl (fun m k => max m k.e) k0.e
    let l' := top - (g.guard : Int)
    let raised := !g.empty && decide (g.lexp < l')
    let acc1 := if raised then oweShift g.rowBase g.rowCount (l' - g.lexp).toNat c.acc else c.acc
    let l := if g.empty then l' else max g.lexp l'
    let st := settleRow c g (look {} acc1 row)
    let upd1 := fun (k : Nat) =>
      let r0 := nth 0 st.1.cols k
      let r1 := if triple then 3 * r0 else r0
      let nd := combineSum r1 l k (k0 :: ks)
      let cl := clampSym (roundQ (c.rowRounding g 1 k) nd.1 nd.2) (2 ^ 31 - 1)
      (cl.1, cl.2, inexact nd.1 nd.2)
    let cols := onesOf 64 g.mask
    let outs := cols.map (fun k => (k, upd1 k))
    let sats := (outs.filter (fun p => p.2.2.1)).length
    let lossy := st.2 || outs.any (fun p => p.2.2.2)
    let newCols := outs.foldl (fun xs p => setNth xs p.1 p.2.1) st.1.cols
    ({ c with
      acc := put acc1 row { st.1 with cols := newCols }
      groups := c.groups.set gi.val { g with lexp := l, empty := false, rseq := g.rseq + 1 } gi.isLt }).accEvent
      { sat := sats, satFlag := decide (0 < sats), shift := bit lossy }

/-- The exact BF16 value as `m × 2^e` (R93). -/
def bf16Sig (v : Nat) : Int × Int :=
  let ex := bitsOf v 7 8
  let m : Int := if ex = 0 then bitsOf v 0 7 else (bitsOf v 0 7 + 128 : Nat)
  (if bitOf v 15 then -m else m, ((if ex = 0 then 1 else ex : Nat) : Int) - 134)

/-- The exceptions of a block in their fixed order (R77): the slot, then overflow entries by lane; an entry naming the slot
lane is skipped (R47). -/
def exceptionsOf (b : Block) (es : List OvfEntry) : List (Nat × Nat) :=
  let slot := if b.outValid && b.e8 != 0 then [(b.outLane, b.outVal)] else []
  slot ++ ((List.range 32).flatMap (fun lane =>
    ((es.filter (fun e => e.lane == lane && !(b.outValid && b.e8 != 0 && b.outLane == lane))).map
      (fun e => (e.lane, e.val)))))

/-- What a vector contributes to its row (R73 to R77): the contributions, a poison mark, exceptions applied and clipped. -/
structure VecWork where
  parts : List Contribution
  mark : Bool
  applied : Nat
  clipped : Nat
  poisonRead : Bool

/-- Stages S1 to S5 of one vector. R77 clears a clipped lane from X, a listed channel's lane too. DEDUCED, log entry 14. -/
def vecWork (t : Tile) (w xbe : Nat) (compact : Bool) (jBlk : Nat) (ctab : List Nat) (es : List OvfEntry) (b : Block) :
    VecWork :=
  if b.isPoison || es.any (fun e => bf16NonFinite e.val) then ⟨[], true, 0, 0, b.e8 != 255⟩
  else
    let xs := if compact then [] else exceptionsOf b es
    let used := xs.take xbe
    let spare := xs.drop xbe
    let chan := fun (i : Nat) => !compact && ctab.contains (32 * jBlk + i)
    let ex := fun (i : Nat) => used.any (fun p => p.1 == i) || chan i
    let clip := fun (i : Nat) => spare.find? (fun p => p.1 == i)
    let lane := fun (i : Nat) =>
      match clip i with
      | some p => if bitOf p.2 15 then -(qmax w : Int) else (qmax w : Int)
      | none => if ex i then 0 else levelOf w (nth 0 b.codes i)
    let main : List Contribution :=
      if b.e8 = 0 then []
      else [⟨stepExp w b.e8, fun o => ((List.range 32).map (fun i => t.trit i o * lane i)).sum⟩]
    let exc := used.map (fun p =>
      let m := bf16Sig p.2
      (⟨m.2, fun o => t.trit p.1 o * m.1⟩ : Contribution))
    ⟨main ++ exc, t.poison, used.length, spare.length, false⟩

/-- The next vector to be written, and the jobs without it. At w = 1 and 2 several rows are written at the end of one cycle, and the
spec gives no order among them: they take RSEQ values and raise the group exponent in ascending m. DESIGN CHOICE, log entry 129. -/
def popVec : List PlnJob → Option (PlnJob × PlnVec × List PlnJob)
  | [] => none
  | j :: t =>
    match j.vecs with
    | [] => popVec t
    | [v] => some (j, v, t)
    | v :: vs => some (j, v, { j with vecs := vs } :: t)

/-- R66, R93: stage S6 writes the next vector's row. -/
def execPlnRowWrite (core : BitVec 12) (s : State) : Host.Outcome State Fault Refusal :=
  let n := core.toNat
  match popVec (s.core n).plns with
  | none => .next s
  | some (j, v, rest) =>
    let s1 := settle n v.writeEnd s
    let c := s1.core n
    let b := readBlock j.w j.compact (c.cap v.tag)
    let es := if j.compact then [] else j.xtab.filter (fun e => e.block == v.blk)
    let wk := vecWork j.tile j.w j.xb j.compact j.jBlk j.ctab es b
    let c0 := { c.dropCap v.tag with plns := rest, plnXcpCnt := c.plnXcpCnt + wk.applied }
    let c1 := c0.fmtEvent { ovf := wk.clipped, poisonRead := wk.poisonRead }
    let c2 := if wk.mark then { c1 with acc := upd {} c1.acc v.row (fun r => { r with poison := true }) } else c1
    .next (s1.setCore n (combineRow c2 ⟨j.g % 8, Nat.mod_lt _ (by decide)⟩ v.row wk.parts j.triple))

/-! ## Dice bank (R122, R123, R199, R200) -/

/-- The dice-bank lane is occupied (Table ISA-14). -/
def diceBusy (c : Core) : Bool × CoreFault × Nat := (decide (c.now < c.diceFree), .unitBusy, 0)

/-- R199: SLD loads a sequence seed, seen by a DRAW from c + 1. -/
def execSld (i : Issue) (e : BitVec 6) (sA : BitVec 5) (s : State) : Host.Outcome State Fault Refusal :=
  .next (issueOp i 0 (fun s c =>
    let a := (c.rs sA).toNat % 65536
    { reads := [(a, 16)]
      faults := [diceBusy c, rangeFault a 16, alignFault a 16]
      eff := s.setCore i.core.toNat
        { c with seeds := put c.seeds e.toNat (s.dmNat i.core.toNat a 16), diceFree := c.now + 1 } }) s)

/-- R200: DRAW writes 32 roll values, readable at c + 12. -/
def execDraw (i : Issue) (e : BitVec 6) (seq idx : Bool) (vb : BitVec 4) (sA : BitVec 5) (vd : BitVec 4) (s : State) :
    Host.Outcome State Fault Refusal :=
  .next (issueOp i 0 (fun s c =>
    let lo := (c.rs sA).toNat
    let hi := (c.rs1 sA 1).toNat
    let base := lo + bitsOf hi 0 16 * 2 ^ 32
    let seed := if seq then look 0 c.seeds e.toNat else c.teamSeed
    let ctr := fun (k : Nat) => base + (if idx then (nth 0#32 (laneList (c.rv vb)) k).toNat else k)
    let x := lanesOf ((List.range 32).map (fun k =>
      BitVec.ofNat 32 (rollValue seed c.turn c.rank (bitsOf hi 16 16) (ctr k))))
    { faults := [unusedField ((!seq && e != 0#6) || (!idx && vb != 0#4)), diceBusy c,
        (!regAligned sA 2, .badOperand, 0), (seq && !listed c.seeds e.toNat, .badOperand, e.toNat), clashVFault c vd 12]
      eff := s.setCore i.core.toNat { c.retV vd x 12 with diceFree := c.now + 4, drawCnt := c.drawCnt + 32 } }) s)

end Sys2Proof.Machine
end

