-- ==== Sys2Proof/Machine/Group.lean ====
section
/-! DEFINITION. Accumulation groups: GOPN, GSPL, GRES, GCLS and the spill record (R85 to R100, R179 to R182). -/

namespace Sys2Proof.Machine

/-- The group port is occupied (R134, Table ISA-14). -/
def grpBusy (c : Core) : Bool × CoreFault × Nat := (decide (c.now < c.grpFree), .unitBusy, 0)

/-- A PLN that writes the group has not written its last row (R92). -/
def Core.plnPending (c : Core) (g : Nat) : Bool := c.plns.any (fun j => j.g == g)

/-- ACC_BUSY of a read or close of a group (R92). -/
def accBusyFault (c : Core) (g : BitVec 3) : Bool × CoreFault × Nat := (c.plnPending g.toNat, .accBusy, 0)

/-- Rows `base .. base + count - 1` belong to another OPEN group (R89, R100). -/
def Core.rowsTaken (c : Core) (g base count : Nat) : Bool :=
  (List.range 8).any (fun k =>
    let x := (c.groups[k]?).getD {}
    k != g && x.st == .opened && overlaps base count x.rowBase x.rowCount)

/-- W_k of R97. -/
def wideLimit (k : Nat) : Nat := if k ≤ 1 then 1 else if k = 2 then 2 else if k = 3 then 5 else if k = 4 then 10 else 25

/-- Nmax of R97. -/
def nMax (w k guard : Nat) : Nat := min 256 (2139095039 / ((32 * (2 ^ w - 1) + 1020) * wideLimit k * 2 ^ guard))

/-- Bytes of a spill record (R99). -/
def recordBytes (rows mask : Nat) : Nat := 16 + 6 * rows * popcount 64 mask

/-- Rows with their masked columns at zero, marks and owed shifts cleared where `marks`. -/
def zeroRows (base count mask : Nat) (marks : Bool) (acc : List (Nat × AccRow)) : List (Nat × AccRow) :=
  (List.range count).foldl (fun t k => upd {} t (base + k) (fun r =>
    { cols := (List.range 64).map (fun i => if bitOf mask i then 0 else nth 0 r.cols i)
      poison := if marks then false else r.poison, owed := 0 })) acc

/-- Replace a group. -/
def Core.setGroup (c : Core) (g : BitVec 3) (x : Group) : Core := { c with groups := c.groups.set g.toNat x g.isLt }

/-- R88, R89, R179: GOPN opens a group, its registers at issue and to a PLN from c + 2 on (R137). DEDUCED, log entry 159. -/
def execGopn (i : Issue) (g : BitVec 3) (sA : BitVec 5) (s : State) : Host.Outcome State Fault Refusal :=
  .next (issueOp i 0 (fun s c =>
    let x := (c.rs sA).toNat
    let y := (c.rs1 sA 1).toNat
    let mask := (c.rs1 sA 2).toNat + (c.rs1 sA 3).toNat * 2 ^ 32
    let base := bitsOf x 0 6
    let count := bitsOf x 6 7
    let guard := bitsOf x 13 4
    let n := bitsOf x 17 8 + 1
    let ra := bitsOf y 16 16
    let len := recordBytes count mask
    let gr := c.groups.get g.toFin
    let new : Group :=
      { st := .opened, rowBase := base, rowCount := count, mask := mask, guard := guard, n := n, stipple := bitOf x 25
        roll := bitsOf y 0 16, recAddr := ra, w := c.mode.w, k := c.mode.k, lexp := 0, empty := true, nb := 0, rseq := 0
        recHeld := false, openAt := c.now + 2, busyUntil := 0 }
    { faults := [grpBusy c, (!regAligned sA 4, .badOperand, 0),
        (mask == 0 || ra % 16 != 0 || pastDm ra len || decide (nMax c.mode.w c.mode.k guard < n), .badOperand, x),
        (inResident c ra len, .memRange, ra), (gr.st != .closed, .accState, 0),
        (count == 0 || decide (64 < base + count) || c.rowsTaken g.toNat base count, .accRows, x)]
      eff := s.setCore i.core.toNat
        { c.setGroup g new with acc := zeroRows base count mask true c.acc, grpFree := c.now + 2 } }) s)

/-! ## The spill record (R98 to R100, Table ACC-3) -/

/-- The header's 16 bytes. -/
def recordHeader (ls : Int) (empty : Bool) (rows cols poison : Nat) : List Byte :=
  leBytes 8 (wrap ls 9 + bit empty * 2 ^ 9 + rows * 2 ^ 16 + cols * 2 ^ 24) ++ leBytes 8 poison

/-- LS and POISON of a held record. -/
def recordLs (h : List Byte) : Int := sext (leAt h 0 8) 9
def recordPoison (h : List Byte) : Nat := leAt h 8 8

/-- The 48-bit values of a record. -/
def recordVals : Nat → List Byte → List Int
  | 0, _ => []
  | n + 1, bs => sext (leNat (bs.take 6)) 48 :: recordVals n (bs.drop 6)

/-- The poison marks of a group's rows as a bit mask. -/
def Core.marks (c : Core) (g : Group) : Nat :=
  (List.range g.rowCount).foldr (fun r acc => bit (c.accRow (g.rowBase + r)).poison + 2 * acc) 0

/-- What spilling one row gives: the new record values, values clamped, and whether bits were discarded. -/
structure SpillRow where
  vals : List Int
  sats : Nat
  lossy : Bool

/-- Spill one row (R98): settle its owed shift in slot 0, align both sides to `lc` in slot 2, add, clamp. -/
def spillRow (c : Core) (g : Group) (ls lc : Int) (row : Nat) (old : List Int) : SpillRow :=
  let st := settleRow c g (c.accRow row)
  let cols := onesOf 64 g.mask
  let f := fun (p : Nat × Nat) =>
    let rnd := c.rowRounding g 2 p.2
    let a : Int := if g.empty then 0 else nth 0 st.1.cols p.2
    let da := 2 ^ (lc - g.lexp).toNat
    let db := 2 ^ (lc - ls).toNat
    let b := nth 0 old p.1
    let aa := if g.empty then 0 else roundQ rnd a da
    let bb := if g.recHeld then roundQ rnd b db else 0
    let cl := clampSym (aa + bb) (2 ^ 47 - 1)
    (cl.1, cl.2, (!g.empty && inexact a da) || (g.recHeld && inexact b db))
  let outs := ((List.range cols.length).zip cols).map f
  ⟨outs.map Prod.fst, (outs.filter (fun p => p.2.1)).length, (!g.empty && st.2) || outs.any (fun p => p.2.2)⟩

/-- Spill the rows in ascending order; each advances RSEQ (R98). The number counts rows that discarded bits. -/
def spillRows (c : Core) (ls lc : Int) (ncols : Nat) : Nat → Nat → Group → List Int → List Int × Nat × Nat × Group
  | 0, _, g, _ => ([], 0, 0, g)
  | k + 1, row, g, old =>
    let r := spillRow c g ls lc row (old.take ncols)
    let t := spillRows c ls lc ncols k (row + 1) { g with rseq := g.rseq + 1 } (old.drop ncols)
    (r.vals ++ t.1, r.sats + t.2.1, bit r.lossy + t.2.2.1, t.2.2.2)

/-- R98, R180: GSPL adds a group's rows into its record and resets them. The spec does not say what GRP_STATE.LEXP reads while a group is
EMPTY: 0 after GOPN, the last exponent after GSPL and GRES RESET. DESIGN CHOICE, log entry 132. Its new state, NB, REC_HELD
and RSEQ show from its issue on: DESIGN CHOICE, log entry 160. -/
def execGspl (i : Issue) (g : BitVec 3) (free : Bool) (s : State) : Host.Outcome State Fault Refusal :=
  .next (issueOp i 0 (fun s c =>
    let n := i.core.toNat
    let gr := c.groups.get g.toFin
    let cols := popcount 64 gr.mask
    let h := s.dm n gr.recAddr 16
    let marks := c.marks gr
    let done := c.now + 4 + 3 * gr.rowCount
    let nothing := gr.empty && !gr.recHeld
    let ls := recordLs h
    let lc := if nothing then 0 else if gr.empty then ls else if gr.recHeld then max gr.lexp ls else gr.lexp
    let old := if gr.recHeld then recordVals (gr.rowCount * cols) (s.dm n (gr.recAddr + 16) (6 * gr.rowCount * cols))
      else List.replicate (gr.rowCount * cols) 0
    let sp := spillRows c ls lc cols gr.rowCount gr.rowBase gr old
    let poison := marks ||| (if gr.recHeld then recordPoison h else 0)
    let held := !nothing || marks != 0
    let out := if held then
        recordHeader lc false gr.rowCount cols poison ++ sp.1.flatMap (fun v => leBytes 6 (wrap v 48))
      else recordHeader 0 true 0 0 0
    let g' : Group :=
      { sp.2.2.2 with st := if free then .suspended else .opened, empty := true, nb := 0, recHeld := held
                      busyUntil := done, lexp := gr.lexp }
    { reads := if gr.recHeld then [(gr.recAddr, recordBytes gr.rowCount gr.mask)] else []
      faults := [grpBusy c, (gr.st != .opened, .accState, 0), accBusyFault c g]
      eff := s.setCore n
        ((({ c.setGroup g g' with
              acc := zeroRows gr.rowBase gr.rowCount gr.mask false c.acc, grpFree := done }).sched done
            (.dmem false gr.recAddr out)).accEvent
          { sat := sp.2.1, satFlag := decide (0 < sp.2.1), shift := sp.2.2.1 }) }) s)

/-- The fault conditions GRES shares (R100, R181). -/
def gresFaults (c : Core) (g : BitVec 3) : List (Bool × CoreFault × Nat) :=
  let gr := c.groups.get g.toFin
  [grpBusy c, (gr.st != .suspended, .accState, 0), (c.rowsTaken g.toNat gr.rowBase gr.rowCount, .accRows, 0),
    (gr.w != c.mode.w || gr.k != c.mode.k, .accFormat, 0)]

/-- R100: GRES RESET, the rows start at zero and the record stays. -/
def execGresReset (i : Issue) (g : BitVec 3) (s : State) : Host.Outcome State Fault Refusal :=
  .next (issueOp i 0 (fun s c =>
    let gr := c.groups.get g.toFin
    { faults := gresFaults c g
      eff := s.setCore i.core.toNat
        { c.setGroup g { gr with st := .opened, empty := true, nb := 0, openAt := c.now + 2 } with
          acc := zeroRows gr.rowBase gr.rowCount gr.mask true c.acc, grpFree := c.now + 2 } }) s)

/-- Smallest shift s with every |v| ≤ 2^(23 + s) (R100). -/
def reloadShift (vs : List Int) : Nat :=
  let top := (vs.map Int.natAbs).foldl max 0
  ((List.range 25).find? (fun k => decide (top ≤ 2 ^ (23 + k)))).getD 24

/-- Load record values into rows, rounded with slot 2 at each row's RSEQ (R100). -/
def reloadRows (c : Core) (sh ncols poison base : Nat) : Nat → Group → List Int → List (Nat × AccRow) →
    List (Nat × AccRow) × Nat × Group
  | 0, g, _, acc => (acc, 0, g)
  | k + 1, g, old, acc =>
    let r := g.rowCount - (k + 1)
    let cols := onesOf 64 g.mask
    let prs := (List.range cols.length).zip cols
    let den := 2 ^ sh
    let new := prs.foldl (fun xs p => setNth xs p.2 (roundQ (c.rowRounding g 2 p.2) (nth 0 old p.1) den))
      (look {} acc (base + r)).cols
    let lossy := prs.any (fun p => inexact (nth 0 old p.1) den)
    let t := reloadRows c sh ncols poison base k { g with rseq := g.rseq + 1 } (old.drop ncols)
      (put acc (base + r) { cols := new, poison := bitOf poison r, owed := 0 })
    (t.1, bit lossy + t.2.1, t.2.2)

/-- R100: GRES RELOAD, the record is loaded into the rows and marked empty in the group's state. Its fields of GRP_STATE and RSEQ
show from its issue on: DESIGN CHOICE, log entry 160. -/
def execGresReload (i : Issue) (g : BitVec 3) (s : State) : Host.Outcome State Fault Refusal :=
  .next (issueOp i 0 (fun s c =>
    let n := i.core.toNat
    let gr := c.groups.get g.toFin
    let cols := popcount 64 gr.mask
    let h := s.dm n gr.recAddr 16
    let vs := if gr.recHeld then recordVals (gr.rowCount * cols) (s.dm n (gr.recAddr + 16) (6 * gr.rowCount * cols))
      else List.replicate (gr.rowCount * cols) 0
    let sh := reloadShift vs
    let done := c.now + 4 + 3 * gr.rowCount
    let rl := reloadRows c sh cols (if gr.recHeld then recordPoison h else 0) gr.rowBase gr.rowCount gr vs
      (zeroRows gr.rowBase gr.rowCount gr.mask true c.acc)
    let g' : Group :=
      { rl.2.2 with st := .opened, empty := !gr.recHeld, nb := 0, recHeld := false, openAt := c.now, busyUntil := done
                    lexp := if gr.recHeld then recordLs h + sh else gr.lexp }
    { reads := if gr.recHeld then [(gr.recAddr, recordBytes gr.rowCount gr.mask)] else []
      faults := gresFaults c g ++ [accBusyFault c g]
      eff := s.setCore n
        (({ c.setGroup g g' with acc := rl.1, grpFree := done }).accEvent { shift := rl.2.1 }) }) s)

/-- R182: GCLS closes a group and discards its sums; the record's bytes stay. The spec does not say what GRP_CFG, GRP_AUX, GRP_MASK,
GRP_RSEQ and the other fields of GRP_STATE read once a group is CLOSED again: they keep their values (here and at EPI with CLOSE).
DESIGN CHOICE, log entry 131. -/
def execGcls (i : Issue) (g : BitVec 3) (s : State) : Host.Outcome State Fault Refusal :=
  .next (issueOp i 0 (fun s c =>
    let gr := c.groups.get g.toFin
    { faults := [grpBusy c, (gr.st == .closed, .accState, 0), accBusyFault c g]
      eff := s.setCore i.core.toNat { c.setGroup g { gr with st := .closed } with grpFree := c.now + 1 } }) s)

end Sys2Proof.Machine
end

