-- ==== Sys2Proof/Machine/Epilogue.lean ====
section
/-! DEFINITION. The epilogue: EPI and its row writes (R101 to R107, R183 to R190). -/

namespace Sys2Proof.Machine

/-- Read the 64-byte EPI descriptor (Table ISA-18). -/
def epiDescOf (bs : List Byte) : EpiDesc :=
  let n := leNat bs
  { outAddr := bitsOf n 0 16, outStride := bitsOf n 16 16, scaleAddr := bitsOf n 32 16, sideAddr := bitsOf n 48 16
    zAddr := bitsOf n 64 16, zStride := bitsOf n 80 16, sidevAddr := bitsOf n 96 16, sidevStride := bitsOf n 112 16
    qroll := bitsOf n 128 16, outShift := bitsOf n 144 3, ow := bitsOf n 148 3 + 1, zw := bitsOf n 152 3 + 1
    qcnt := bitsOf n 160 32, olistMask := bitsOf n 192 64, osideAddr := bitsOf n 256 16, osideStride := bitsOf n 272 16
    ovfAddr := bitsOf n 288 16, oblkBase := bitsOf n 304 16
    reservedZero := bitsOf n 147 1 == 0 && bitsOf n 151 1 == 0 && bitsOf n 155 5 == 0 && bitsOf n 320 192 == 0 }

/-- COUNT of a side table (R102). -/
def sideCount (h : List Byte) : Nat := bitsOf (leAt h 0 8) 0 7

/-- The entries of a side table: list position and 64 signed weights (R102). -/
def sideEntries : Nat → List Byte → List (Nat × List Int)
  | 0, _ => []
  | n + 1, bs =>
    (leAt bs 0 2, ((bs.drop 8).take 64).map (fun b => b.toInt)) :: sideEntries n (bs.drop 72)

/-- The side table of a core. -/
def sideTable (s : State) (n a : Nat) : List (Nat × List Int) :=
  let k := min 64 (sideCount (s.dm n a 8))
  sideEntries k (s.dm n (a + 8) (72 * k))

/-- Cycle cost of one row (R185, Table ACC-4). -/
def epiRowCost (w : EpiWord) (side : Nat) : Nat :=
  2 + (if w.side then 2 * side else 0) + (if w.bias then 3 else 2) +
  (if w.op = 0#2 then 0 else if w.zfmt = 2#2 then 3 else 2) + (if w.act = 0#4 then 0 else 2) +
  (if w.store = 2#2 then 6 else 2)

/-- Output bytes of one row (R187). -/
def epiOutBytes (w : EpiWord) (d : EpiDesc) : Nat :=
  if w.store = 0#2 then 256 else if w.store = 1#2 then 128 else if w.store = 2#2 then 2 * fullBytes d.ow else 16

/-- Bytes of one row of the fused operand (R104). -/
def epiZBytes (w : EpiWord) (d : EpiDesc) : Nat :=
  if w.zfmt = 0#2 then 256 else if w.zfmt = 1#2 then 128 else 2 * fullBytes d.zw

/-- The address ranges an EPI's rows and tables cover: written, read, and their alignments (R189). -/
def epiRows (rows base stride : Nat) : List Nat := (List.range rows).map (fun r => base + r * stride)

/-- R183 to R190: EPI starts reading a group out. R189 leaves two points open: with a side table of COUNT = 0 there is no largest position,
and the side values are checked as for position 0, 2 bytes a row; and an EPI of a group that is not OPEN has no rows to check, so that it
raises ACC_STATE alone. DESIGN CHOICE, log entries 134 and 135. -/
def execEpi (i : Issue) (w : EpiWord) (s : State) : Host.Outcome State Fault Refusal :=
  .next (issueOp i 1 (fun s c =>
    let n := i.core.toNat
    let da := (c.rs w.sd).toNat % 65536
    let d := epiDescOf (s.dm n da 64)
    let gr := c.groups.get w.g.toFin
    let rows := if gr.st == .opened then gr.rowCount else 0
    let etch := w.store == 2#2
    let cnt := sideCount (s.dm n d.sideAddr 8)
    let side := sideTable s n d.sideAddr
    let maxPos := (side.map Prod.fst).foldl max 0
    let cost := epiRowCost w (min 64 cnt)
    let lat := 6 + rows * cost
    let outs := epiRows rows d.outAddr d.outStride
    let zs := if w.op = 0#2 then [] else epiRows rows d.zAddr d.zStride
    let sv := if w.side then epiRows rows d.sidevAddr d.sidevStride else []
    let os := if etch then epiRows rows d.osideAddr d.osideStride else []
    let outLen := epiOutBytes w d
    let zLen := epiZBytes w d
    let svLen := 2 * (maxPos + 1)
    let sideOk := d.sideAddr % 8 == 0
    let osLen := 2 * popcount 64 d.olistMask
    let outAl := if w.store = 1#2 then 2 else 4
    let zAl := if w.zfmt = 1#2 then 2 else 4
    let scLen := if w.bias then 512 else 256
    { reads := (da, 64) :: (d.scaleAddr, scLen) :: ((if w.side then [(d.sideAddr, 8 + 72 * min 64 cnt)] else []) ++
        (if gr.recHeld then [(gr.recAddr, recordBytes gr.rowCount gr.mask)] else []) ++ zs.map (fun a => (a, zLen)) ++ sv.map (fun a => (a, svLen)) ++ (if etch then [(d.ovfAddr, 8)] else []))
      faults := [unusedField (w.reserved != 0#3 || (w.op == 0#2 && w.zfmt != 0#2)), vecBusy c, grpBusy c,
        (w.op == 3#2 || w.zfmt == 3#2 || decide (7 ≤ w.act.toNat) || da % 16 != 0 || (w.qstip && !etch), .badOperand, da),
        (pastDm da 64, .memRange, da),
        (!d.reservedZero || (etch && d.outShift == 0), .badOperand, da),
        (outs.any (fun a => pastDm a outLen || inResident c a outLen), .memRange, d.outAddr),
        (zs.any (fun a => pastDm a zLen), .memRange, d.zAddr),
        (pastDm d.scaleAddr scLen, .memRange, d.scaleAddr),
        (w.side && (pastDm d.sideAddr 8 || (sideOk && pastDm d.sideAddr (8 + 72 * cnt))), .memRange, d.sideAddr),
        (sideOk && sv.any (fun a => pastDm a svLen), .memRange, d.sidevAddr),
        (etch && (pastDm d.ovfAddr 520 || inResident c d.ovfAddr 520), .memRange, d.ovfAddr),
        (os.any (fun a => pastDm a osLen || inResident c a osLen), .memRange, d.osideAddr),
        (outs.any (fun a => a % outAl != 0), .memAlign, d.outAddr), (zs.any (fun a => a % zAl != 0), .memAlign, d.zAddr),
        (d.scaleAddr % 4 != 0, .memAlign, d.scaleAddr), (w.side && d.sideAddr % 8 != 0, .memAlign, d.sideAddr),
        (sv.any (fun a => a % 2 != 0), .memAlign, d.sidevAddr), (etch && d.ovfAddr % 8 != 0, .memAlign, d.ovfAddr),
        (os.any (fun a => a % 2 != 0), .memAlign, d.osideAddr),
        (gr.st != .opened, .accState, 0), accBusyFault c w.g, (w.qstip && d.qroll == gr.roll, .rollConflict, d.qroll),
        (w.side && (decide (64 < cnt) || side.any (fun e => e.2.any (fun x => decide (121 < x.natAbs)))), .fmtCode, d.sideAddr),
        (etch && decide (64 < ovfCount (s.dm n d.ovfAddr 8)), .fmtCode, d.ovfAddr)]
      eff := s.setCore n
        { c.setGroup w.g { gr with busyUntil := c.now + lat } with
          vecFree := c.now + lat, grpFree := c.now + lat
          epi := some { word := w, desc := d, rowCost := cost, issued := c.now, nextRow := 0 } } }) s)

/-- The merge stage on one column: row × 2^L + record × 2^Ls exactly, rounded once (R101, R103). -/
def mergeCol (g : Group) (row recd : Int) (ls : Int) : Word :=
  dyadicFp false (Dyadic.plus ⟨if g.empty then 0 else row, g.lexp⟩ ⟨if g.recHeld then recd else 0, ls⟩)

/-- The fused operand's 64 columns of row `r` (R104), and its format events. -/
def zRow (s : State) (n : Nat) (w : EpiWord) (d : EpiDesc) (r : Nat) : List Word × FmtEvents :=
  let a := d.zAddr + r * d.zStride
  if w.zfmt = 0#2 then (wordsOf 64 (s.dm n a 256), {})
  else if w.zfmt = 1#2 then ((halvesOf 64 (s.dm n a 128)).map bf16Widen, {})
  else
    let len := fullBytes d.zw
    let b0 := decodeBlock d.zw (readBlock d.zw false (s.dm n a len)) []
    let b1 := decodeBlock d.zw (readBlock d.zw false (s.dm n (a + len) len)) []
    (b0.1 ++ b1.1, b0.2.add b1.2)

/-- The fused operation (R101). -/
def fuse (op : BitVec 2) (y z : Word) : Word := if op = 1#2 then fpAdd y z else if op = 2#2 then fpMul y z else y

/-- The activation (Table ACC-5). -/
def activate (act : BitVec 4) (y : Word) : Word :=
  match tableFnOf act.toNat with
  | some f => tableUnit f y
  | none => y

/-- Stages merge to activation of one column (Table ACC-4, R186). A side-path product is exact, and only its sum rounds (R115). -/
def epiCol (w : EpiWord) (merged scale bias z : Word) (side : List (Word × Word)) : Word :=
  let y0 := side.foldl (fun y p => fpFma p.1 p.2 y) merged
  let y1 := fpFma y0 scale (if w.bias then bias else 0#32)
  if w.op = 0#2 then activate w.act y1
  else if w.order then fuse w.op (activate w.act y1) z
  else activate w.act (fuse w.op y1 z)

/-- The trit store on one column (R107): code, clamped, poison. -/
def tritCol (u : Word) (roll : Nat) : Nat × Nat × Nat :=
  match fpOf u with
  | .nan => (2, 0, 1)
  | .inf neg => (if neg then 3 else 1, 1, 0)
  | .fin neg m e =>
    let nd := Dyadic.over ⟨(m : Int), e + 32⟩ 0
    let clamped := decide (((2 ^ 32 : Nat) : Int) * nd.2 < nd.1)
    let hit := clamped || decide ((roll : Int) * nd.2 < nd.1)
    (if hit then (if neg then 3 else 1) else 0, bit clamped, 0)

/-- Write the masked columns of a row, `size` bytes each. -/
def putCols (n a size mask : Nat) (bytes : Nat → List Byte) (m : Mem) : Mem :=
  (onesOf 64 mask).foldl (fun m k => m.write (dmAddr n (a + size * k)) (bytes k)) m

/-- Requantise one half of a row into a block of the output tensor (R187, R188). -/
def epiBlock (n : Nat) (w : EpiWord) (d : EpiDesc) (mask r half : Nat) (ys : List Word) (s : State) : State :=
  let c := s.core n
  let blk := d.oblkBase + 2 * r + half
  let xs := (List.range 32).map (fun k =>
    if bitOf mask (32 * half + k) then nth 0#32 ys (32 * half + k) else 0#32)
  let e := encodeBlock d.ow d.outShift false blk (listRoom s n d.ovfAddr) xs
    (fun k => bitOf d.olistMask (32 * half + k))
    (fun k => if w.qstip then .stipple (c.roll d.qroll (d.qcnt + blk * 32 + k)) else .nearest)
  putEncoded n (d.outAddr + r * d.outStride + half * fullBytes d.ow) d.ovfAddr false e s

/-- Store one row (R187). -/
def epiStore (n : Nat) (w : EpiWord) (d : EpiDesc) (g : Group) (r : Nat) (ys : List Word) (s : State) : State :=
  let a := d.outAddr + r * d.outStride
  let y := fun (k : Nat) => nth 0#32 ys k
  if w.store = 0#2 then
    { s with mem := putCols n a 4 g.mask (fun k => leBytes 4 (y k).toNat) s.mem }
  else if w.store = 1#2 then
    { s with mem := putCols n a 2 g.mask (fun k => leBytes 2 (bf16Of (y k))) s.mem }
  else if w.store = 2#2 then
    let s1 := epiBlock n w d g.mask r 1 ys (epiBlock n w d g.mask r 0 ys s)
    let side := (onesOf 64 d.olistMask).flatMap (fun k =>
      leBytes 2 (bf16Of (if bitOf g.mask k then y k else 0#32)))
    { s1 with mem := s1.mem.write (dmAddr n (d.osideAddr + r * d.osideStride)) side }
  else
    let c := s.core n
    let ts := (List.range 64).map (fun k =>
      if bitOf g.mask k then tritCol (y k) (c.roll g.roll (g.rseq * 256 + 3 * 64 + k)) else (0, 0, 0))
    let word := ts.foldr (fun t acc => t.1 + 4 * acc) 0
    let clamps := (ts.map (fun t => t.2.1)).sum
    let s1 := { s with mem := s.mem.write (dmAddr n a) (leBytes 16 word) }
    s1.updCore n (fun c => (c.fmtEvent { poison := (ts.map (fun t => t.2.2)).sum }).accEvent
      { sat := clamps, clampFlag := decide (0 < clamps) })

/-- The spans a row's store writes (R187), of the state before it and after it. -/
def epiSpans (n : Nat) (w : EpiWord) (d : EpiDesc) (g : Group) (r : Nat) (before after : State) : List (Nat × Nat) :=
  let a := d.outAddr + r * d.outStride
  if w.store = 0#2 then (onesOf 64 g.mask).map (fun k => (a + 4 * k, 4))
  else if w.store = 1#2 then (onesOf 64 g.mask).map (fun k => (a + 2 * k, 2))
  else if w.store = 2#2 then
    [(a, 2 * fullBytes d.ow), (d.osideAddr + r * d.osideStride, 2 * popcount 64 d.olistMask)] ++ ovfSpans n d.ovfAddr before after
  else [(a, 16)]

/-- R101, R185: an EPI writes its next row. The last row closes the group when CLOSE is set (Table ACC-1). -/
def execEpiRowWrite (core : BitVec 12) (s : State) : Host.Outcome State Fault Refusal :=
  let n := core.toNat
  match (s.core n).epi with
  | none => .next s
  | some j =>
    let w := j.word
    let d := j.desc
    let cyc := j.issued + 5 + (j.nextRow + 1) * j.rowCost
    let ord := 4 * j.issued + 1
    let s0 := settle n cyc s
    let c := s0.core n
    let gi : Fin 8 := w.g.toFin
    let g := c.groups.get gi
    let r := j.nextRow
    let st := settleRow c g (c.accRow (g.rowBase + r))
    let h := s0.dm n g.recAddr 16
    let cols := onesOf 64 g.mask
    let recd := recordVals cols.length (s0.dm n (g.recAddr + 16 + 6 * cols.length * r) (6 * cols.length))
    let bad := st.1.poison || (g.recHeld && bitOf (recordPoison h) r)
    let z := if w.op = 0#2 then ([], {}) else zRow s0 n w d r
    let side := if w.side then sideTable s0 n d.sideAddr else []
    let sv := fun (pos : Nat) => bf16Widen (s0.dmNat n (d.sidevAddr + r * d.sidevStride + 2 * pos) 2)
    let colY := fun (k : Nat) =>
      if bad then poison32
      else
        let ix := (cols.filter (fun q => decide (q < k))).length
        epiCol w (mergeCol g (nth 0 st.1.cols k) (nth 0 recd ix) (recordLs h))
          (BitVec.ofNat 32 (s0.dmNat n (d.scaleAddr + 4 * k) 4))
          (BitVec.ofNat 32 (s0.dmNat n (d.scaleAddr + 256 + 4 * k) 4)) (nth 0#32 z.1 k)
          (side.map (fun e => (intToFp (BitVec.ofInt 32 (nth 0 e.2 k)), sv e.1)))
    let ys := (List.range 64).map (fun k => if bitOf g.mask k then colY k else 0#32)
    let sx := (s0.withEarlier n ord cyc).setCore n ((c.fmtEvent z.2).accEvent { shift := bit st.2 })
    let sy := epiStore n w d g r ys sx
    let s1 := landSpans n ord cyc (epiSpans n w d g r sx sy) s0.mem sy
    let last := decide (g.rowCount ≤ r + 1)
    .next (s1.updCore n (fun c =>
      { c with
        acc := put c.acc (g.rowBase + r) st.1
        groups := c.groups.set gi.val
          { g with rseq := g.rseq + 1, st := if last && w.close then .closed else g.st } gi.isLt
        epi := if last then none else some { j with nextRow := r + 1 } }))

end Sys2Proof.Machine
end

