-- ==== Sys2Proof/Machine/Control.lean ====
section
/-! DEFINITION. Branches and loops, sections, END, WAIT, loose-section release, overlay branch (R141 to R153, R211 to R216,
R220, R227). -/

namespace Sys2Proof.Machine

/-! ## Shared conditions -/

/-- The bank of a bundle index (R151). -/
def bankOf (b : Nat) : Nat := b / 512

/-- A bundle at an open level's LEND holds a transfer (R213). -/
def lendFault (c : Core) : Bool × CoreFault × Nat := (c.loops.any (fun l => l.lend == c.pc), .badOperand, 0)

/-- A slot-2 transfer beside a WAIT or OVB (R651). -/
def pairFaultS (c : Core) : Bool × CoreFault × Nat := (c.bundleMov, .badOperand, 0)

/-- A WAIT or OVB beside a slot-2 transfer (R651). The record names slot 3, the WAIT or OVB: DESIGN CHOICE, log
entry 162. -/
def pairFaultM (c : Core) : Bool × CoreFault × Nat := (c.bundleCtl, .badOperand, 0)

/-- A taken transfer to `target`; the next bundle issues no earlier than `lat` cycles after this one (R133). -/
def Core.jump (c : Core) (target lat : Nat) : Core :=
  { c with nextPc := target, jumped := true, nextIssue := max c.nextIssue (c.now + lat), bundleCtl := true
           loops := closeLoops target c.loops }

/-! ## Branches (R211) -/

/-- R211: unconditional branch; the next bundle issues in c + 3. -/
def execB (i : Issue) (target : BitVec 10) (s : State) : Host.Outcome State Fault Refusal :=
  .next (issueOp i 2 (fun s c =>
    { faults := [pairFaultS c, lendFault c,
        (bankOf target.toNat != bankOf c.pc, .ovlOrder, target.toNat)]
      eff := s.setCore i.core.toNat (c.jump target.toNat 3) }) s)

/-- The condition of BC (R211); `none` for COND 6 and 7. -/
def branchCond (cond : Nat) (x y : Word) : Option Bool :=
  if cond = 0 then some (x == y)
  else if cond = 1 then some (x != y)
  else if cond = 2 then some (decide (x.toInt < y.toInt))
  else if cond = 3 then some (decide (y.toInt ≤ x.toInt))
  else if cond = 4 then some (decide (x.toNat < y.toNat))
  else if cond = 5 then some (decide (y.toNat ≤ x.toNat))
  else none

/-- R211: conditional branch; the next bundle issues in c + 3, taken or not. -/
def execBc (i : Issue) (cond : BitVec 3) (sa sb : BitVec 5) (target : BitVec 10) (s : State) :
    Host.Outcome State Fault Refusal :=
  .next (issueOp i 2 (fun s c =>
    let k := branchCond cond.toNat (c.rs sa) (c.rs sb)
    { faults := [pairFaultS c, lendFault c, (k.isNone, .badOperand, cond.toNat),
        (bankOf target.toNat != bankOf c.pc, .ovlOrder, target.toNat)]
      eff := s.setCore i.core.toNat
        (if k = some true then c.jump target.toNat 3
         else { c with nextIssue := max c.nextIssue (c.now + 3), bundleCtl := true }) }) s)

/-- R211: branch to sa[9:0]. -/
def execBr (i : Issue) (sa : BitVec 5) (s : State) : Host.Outcome State Fault Refusal :=
  .next (issueOp i 2 (fun s c =>
    let t := (c.rs sa).toNat % 1024
    { faults := [pairFaultS c, lendFault c, (bankOf t != bankOf c.pc, .ovlOrder, t)]
      eff := s.setCore i.core.toNat (c.jump t 3) }) s)

/-- R212: opens the next loop level, or skips the body for a count of 0. Where a skipped body shares its LEND
with an enclosing level, the skip closes that level: DESIGN CHOICE, log entry 165. -/
def execLoop (i : Issue) (sA : BitVec 5) (lend : BitVec 10) (s : State) : Host.Outcome State Fault Refusal :=
  .next (issueOp i 2 (fun s c =>
    let e := lend.toNat
    let n := (c.rs sA).toNat % 65536
    { faults := [pairFaultS c,
        (decide (e ≤ c.pc) || bankOf e != bankOf c.pc || c.loops.any (fun l => decide (l.lend < e)), .badOperand, e),
        (n == 0 && (e == 511 || e == 1023), .ovlOrder, e),
        (decide (3 ≤ c.loops.length), .loopDepth, 0)]
      eff := s.setCore i.core.toNat
        (if n = 0 then { c.jump (e + 1) 3 with lc := c.lc.setIfInBounds c.loops.length 0#16 }
         else { c with lc := c.lc.setIfInBounds c.loops.length (BitVec.ofNat 16 n)
                       loops := ⟨c.pc + 1, e⟩ :: c.loops, bundleCtl := true
                       nextPc := c.pc + 1, jumped := true }) }) s)

/-! ## Sections (R142, R215) -/

/-- The first frame boundary after cycle `t`, in turn cycles. -/
def nextFrame (t : Nat) : Nat := (t / 2048 + 1) * 2048

/-- The first frame boundary at or after cycle `t`. -/
def frameFrom (t : Nat) : Nat := ceilDiv t 2048 * 2048

/-- A SECT of any form: issue waits at the next section's start (R142, R215). -/
def sectOp (i : Issue) (sF : BitVec 5) (usesF : Bool) (mk : Core → SectNext) (s : State) : State :=
  issueOp i 2 (fun s c =>
    { faults := [unusedField (!usesF && sF != 0#5), pairFaultS c, lendFault c]
      eff := s.setCore i.core.toNat { c with exec := .atSect, sectNext := some (mk c), bundleCtl := true } }) s

/-- R142: SECT.NEXT, the next section starts at the next frame boundary. -/
def execSectNext (i : Issue) (sF : BitVec 5) (id : BitVec 16) (s : State) : Host.Outcome State Fault Refusal :=
  .next (sectOp i sF false (fun c => ⟨id.toNat, some (nextFrame c.now), false, false, c.now⟩) s)

/-- R142: SECT.AT F, the next section starts at turn frame F, or late at the next boundary. -/
def execSectAt (i : Issue) (sF : BitVec 5) (id : BitVec 16) (s : State) : Host.Outcome State Fault Refusal :=
  .next (sectOp i sF true (fun c =>
    let f := (c.rs sF).toNat % 65536
    if c.now / 2048 < f then ⟨id.toNat, some (f * 2048), false, false, c.now⟩
    else ⟨id.toNat, some (nextFrame c.now), true, false, c.now⟩) s)

/-- R142: SECT.BAR, the next section starts at a barrier of the team. -/
def execSectBar (i : Issue) (sF : BitVec 5) (id : BitVec 16) (s : State) : Host.Outcome State Fault Refusal :=
  .next (sectOp i sF false (fun c => ⟨id.toNat, none, false, true, c.now⟩) s)

/-- The log entry of a section (R150). -/
def Sect.log (x : Sect) : SectLog := ⟨x.startFrame * 2048, x.id, x.late, x.stalled, x.loose, x.barrier, x.lost, x.looseAt⟩

/-- The cores of the team of core `n`. -/
def State.teamCores (s : State) (n : Nat) : List Nat := (s.teamRec n).cores

/-- A mesh error on a core (R233). -/
def meshError (n : Nat) (s : State) : State :=
  s.updCore n (fun c => { c with meshErr := true, meshErrCnt := c.meshErrCnt + 1 })

/-- Drop a flow from hop `h` on: its later link outputs, and the beats that lie beyond. -/
def Mesh.dropFrom (m : Mesh) (flow h : Nat) : Mesh :=
  { m with
    links := m.links.filter (fun l => !(l.flow == flow && decide (h ≤ l.hop)))
    beats := m.beats.filter (fun b => !(b.flow == flow && decide (h < b.hops))) }

/-- The link use at the cores `ns` that comes first before cycle `before`: the earliest cycle, then the earliest input. -/
def firstUse (ns : List Nat) (before : Nat) : List LinkUse → Option LinkUse
  | [] => none
  | u :: us =>
    let ok := ns.contains u.node && decide (u.cycle < before)
    match firstUse ns before us with
    | none => if ok then some u else none
    | some v =>
      if ok && (decide (u.cycle < v.cycle) || (u.cycle == v.cycle && decide (u.input ≤ v.input))) then some u else some v

/-- R233: the link uses of a team's cores before a cycle pass in the order of their cycles. Where several beats need one
output in one cycle, the one from the earliest input passes; each other is dropped and counted. -/
def resolveLinks (ns : List Nat) (before : Nat) : Nat → State → State
  | 0, s => s
  | k + 1, s =>
    match firstUse ns before s.mesh.links with
    | none => s
    | some u =>
      let rest := s.mesh.links.erase u
      let lost := rest.filter (fun l => l.node == u.node && l.dir == u.dir && l.cycle == u.cycle)
      let s1 := { s with mesh := lost.foldl (fun m l => m.dropFrom l.flow l.hop) { s.mesh with links := rest } }
      resolveLinks ns before k (lost.foldl (fun s _ => meshError u.node s) s1)

/-- `resolveLinks` with the fuel that suffices. -/
def passLinks (ns : List Nat) (before : Nat) (s : State) : State := resolveLinks ns before s.mesh.links.length s

/-- Partials that a core of a run should have had before cycle `cyc` and has not (R232, R233). -/
def State.missedBy (s : State) (n cyc : Nat) : Nat :=
  let t := s.teamRec n
  ((s.mesh.reds.filter (fun r => r.core == n)).map (fun r =>
    let p := (if r.vertical then teamY t n else teamX t n) - r.lo
    ((List.range r.beats).filter (fun j => !r.got.contains j && decide (r.issued + 1 + j + 4 * p < cyc))).length)).sum

/-- Partials a core still misses are errors of R233, once per beat. -/
def missedPartials (n : Nat) (s : State) : State :=
  let mine := s.mesh.reds.filter (fun r => r.core == n)
  let missed := (mine.map (fun r => r.beats - r.got.length)).sum
  let s := { s with mesh := { s.mesh with reds := s.mesh.reds.filter (fun r => r.core != n) } }
  if missed = 0 then s
  else s.updCore n (fun c => { c with meshErr := true, meshErrCnt := c.meshErrCnt + missed })

/-- A new section starts on a core in turn cycle `start` (R142). -/
def startSection (n : Nat) (x : SectNext) (start stall : Nat) (s : State) : State :=
  (missedPartials n (passLinks (s.teamCores n) start s)).updCore n (fun c =>
    { c with
      exec := .issuing, sectNext := none, wait := none
      sectLog := c.sectLog ++ [c.sect.log]
      prevLoose := c.sect.loose, turnCyc := max c.turnCyc start
      sect := { id := x.id, startFrame := start / 2048, late := x.late, barrier := x.barrier, stalled := decide (0 < stall)
                lost := stall }
      stall := c.stall + stall
      lateCnt := c.lateCnt + (if x.late then 1 else 0)
      nextIssue := max c.nextIssue start })

/-- The barrier a core waits at. -/
def Core.atBar (c : Core) : Option SectNext :=
  match c.exec, c.sectNext with
  | .atSect, some x => if x.barrier then some x else none
  | _, _ => none

/-- R142: the section a core's SECT named starts. A barrier resolves when every core of the team has issued a SECT.BAR;
ids that differ raise SECT_ORDER on every core that issued one. Each core records the cycle of its own SECT.BAR:
DESIGN CHOICE, log entry 164. -/
def execSectionStart (core : BitVec 12) (s : State) : Host.Outcome State Fault Refusal :=
  let n := core.toNat
  let c := s.core n
  match c.exec, c.sectNext with
  | .atSect, some x =>
    if x.barrier then
      let cores := s.teamCores n
      let bars := cores.filterMap (fun k => (s.core k).atBar.map (fun y => (k, y)))
      if bars.any (fun p => p.2.id != x.id) then
        .next (bars.foldl (fun s p => faultAfter p.1 .sectOrder 2 (s.core p.1).pc (s.core p.1).now s) s)
      else if bars.length = cores.length then
        let last := (bars.map (fun p => p.2.issued)).foldl max 0
        let start := frameFrom (last + 512)
        .next (bars.foldl (fun s p => startSection p.1 p.2 start 0 s) s)
      else .next s
    else
      match x.start with
      | some t => .next (startSection n x t 0 s)
      | none => .next s
  | _, _ => .next s

/-- R143, R216: END ends the core's part of the turn and closes every loop level (R214). -/
def execEndTurn (i : Issue) (s : State) : Host.Outcome State Fault Refusal :=
  .next (issueOp i 2 (fun s c =>
    { faults := [pairFaultS c, lendFault c]
      eff := (s.setCore i.core.toNat
        { c with exec := .atEnd, loops := [], bundleCtl := true, sectLog := c.sectLog ++ [c.sect.log] }) }) s)

/-! ## Waits (R145 to R147, R227) -/

/-- WAIT of either mode (R227). -/
def waitOp (i : Issue) (q : BitVec 3) (sA : BitVec 5) (id : BitVec 16) (align : Bool) (s : State) : State :=
  issueOp i 3 (fun s c =>
    let target := (c.rs sA).toNat
    let limit := (c.rs1 sA 1).toNat
    { faults := [pairFaultM c, lendFault c, (!regAligned sA 2, .badOperand, 0),
        (limit == 0, .badOperand, limit), (decide ((c.dq.get q.toFin).posted < target), .badOperand, target),
        (!align && id != 0#16, .badOperand, id.toNat)]
      eff := s.setCore i.core.toNat
        { c with exec := .atWait, bundleMov := true
                 sect := { c.sect with loose := c.sect.loose || !align, looseAt := if c.sect.loose || align then c.sect.looseAt else c.now }
                 wait := some ⟨q.toNat, target, c.now + limit, align, id.toNat, c.now⟩ } }) s

/-- R145, R227: WAIT.ALIGN. -/
def execWaitAlign (i : Issue) (q : BitVec 3) (sA : BitVec 5) (id : BitVec 16) (s : State) : Host.Outcome State Fault Refusal :=
  .next (waitOp i q sA id true s)

/-- R145, R227: WAIT.LOOSE; the rest of the section is loose. -/
def execWaitLoose (i : Issue) (q : BitVec 3) (sA : BitVec 5) (id : BitVec 16) (s : State) : Host.Outcome State Fault Refusal :=
  .next (waitOp i q sA id false s)

/-- R145, R146: the condition of a WAIT came to hold in turn cycle `cyc` (or held at issue); issue resumes. A condition that came to hold
after the expiry cycle came too late: the timeout has expired, and the core raises WAIT_TIMEOUT; in the expiry cycle the condition wins
(R21, R147). -/
def execWaitResume (core : BitVec 12) (cyc : Nat) (s : State) : Host.Outcome State Fault Refusal :=
  let n := core.toNat
  let c := s.core n
  match c.exec, c.wait with
  | .atWait, some w =>
    if ((c.dq[w.q]?).getD {}).done < w.target then .next s
    else if w.expiry < cyc then .next (faultAfter n .waitTimeout 3 c.pc w.expiry s)
    else if w.align then
      let start := nextFrame (max cyc w.issued)
      .next (startSection n ⟨w.id, some start, false, false, w.issued⟩ start (start - nextFrame w.issued) s)
    else
      let lost := max cyc w.issued - w.issued
      .next (s.setCore n
        { c with exec := .issuing, wait := none, nextIssue := max c.nextIssue (max cyc w.issued + 1), turnCyc := max c.turnCyc cyc
                 stall := c.stall + lost
                 sect := { c.sect with stalled := c.sect.stalled || decide (0 < lost), lost := c.sect.lost + lost } })
  | _, _ => .next s

/-- R147: the timeout expires before the condition holds; a condition that holds wins (R21). -/
def execWaitTimeout (core : BitVec 12) (s : State) : Host.Outcome State Fault Refusal :=
  let n := core.toNat
  let c := s.core n
  match c.exec, c.wait with
  | .atWait, some w =>
    if ((c.dq[w.q]?).getD {}).done < w.target then
      .next (faultAfter n .waitTimeout 3 c.pc w.expiry s)
    else .next s
  | _, _ => .next s

/-! ## Loose-section interlocks (R149) -/

/-- Is an overlay load into `bank` unfinished: lines queued, or not yet written? -/
def Core.ovldInto (c : Core) (bank : Nat) : Bool :=
  c.vq.any (fun r => r.kind == .overlay && r.lines.any (fun l => l.spans.any (fun p => p.2.1 / 8192 == bank))) ||
  c.timeline.any (fun x => decide (c.now < x.cycle) && (match x.act with
    | .imem a _ => a / 8192 == bank
    | _ => false))

/-- The latest cycle that an entry of the timeline makes `f` wait for. -/
def Core.lastItem (c : Core) (f : Landing → Bool) : Nat :=
  ((c.timeline.filter (fun x => f x.act)).map (fun x => x.cycle)).foldl max 0

/-- The first cycle in which fewer than two tile loads are outstanding, once it is known. -/
def Core.roomAt (c : Core) : Option Nat :=
  if c.outstandingAt c.tileFreed < 2 then some c.tileFreed
  else
    let known := ((c.tiles.filter (fun t => t.served)).map (fun t => t.readyAt)).filter (fun k => decide (c.outstandingAt k < 2))
    known.foldl (fun m k => some (min k (m.getD k))) none

/-- The first cycle in which an interlock has cleared; `none` while what it waits for has not come yet (R149). -/
def Core.clearAt (c : Core) : Interlock → Option Nat
  | .span a len =>
    if (c.vq.any (fun r => match r.kind with
      | .load _ => r.lines.any (fun l => l.spans.any (fun p => overlaps a len p.2.1 p.2.2))
      | _ => false)) then none
    else some (c.lastItem (fun x => match x with
      | .dmem true b bs => overlaps a len b bs.length
      | _ => false))
  | .tile => if c.backReady then some c.backAt else none
  | .outstanding => c.roomAt
  | .queue => if c.vq.length < 8 then some c.vqFreed else none
  | .overlay bank =>
    if c.vq.any (fun r => r.kind == .overlay && r.lines.any (fun l => l.spans.any (fun p => p.2.1 / 8192 == bank))) then none
    else some (c.lastItem (fun x => match x with
      | .imem a _ => a / 8192 == bank
      | _ => false))

/-- The first cycle in which every interlock has cleared. -/
def Core.clearAll (c : Core) : List Interlock → Option Nat
  | [] => some 0
  | l :: ls =>
    match c.clearAt l, c.clearAll ls with
    | some x, some y => some (max x y)
    | _, _ => none

/-- R149: a bundle that met interlocks issues in the first cycle in which all of them have cleared, which is turn cycle `cyc`; every stalled
cycle counts in CORE_STALL (R146). -/
def execLooseInterlockRelease (core : BitVec 12) (cyc : Nat) (s : State) : Host.Outcome State Fault Refusal :=
  let n := core.toNat
  let c := s.core n
  match c.exec, c.clearAll c.stalledOn with
  | .interlock, some t =>
    let lost := t - c.nextIssue
    .next (if cyc ≠ c.nextIssue + lost then s else s.setCore n
      { c with exec := .issuing, stalledOn := [], nextIssue := c.nextIssue + lost, stall := c.stall + lost, turnCyc := max c.turnCyc cyc
               sect := { c.sect with stalled := c.sect.stalled || decide (0 < lost), lost := c.sect.lost + lost } })
  | _, _ => .next s

/-! ## Overlay branch (R153, R220) -/

/-- R153, R220: control passes to a bundle of the other bank 40 cycles later. -/
def execOvb (i : Issue) (target : BitVec 10) (s : State) : Host.Outcome State Fault Refusal :=
  .next (issueOp i 3 (fun s c =>
    let t := target.toNat
    let late := c.ovldInto (bankOf t)
    { stall := if late then [.overlay (bankOf t)] else []
      faults := [pairFaultM c, lendFault c, (bankOf t == bankOf c.pc, .ovlOrder, t), (late, .ovlOrder, t)]
      eff := s.setCore i.core.toNat
        { c with nextPc := t, jumped := true, nextIssue := max c.nextIssue (c.now + 40), loops := [], bundleMov := true } }) s)

end Sys2Proof.Machine
end

