-- ==== Sys2Proof/Machine/MeshOps.lean ====
section
/-! DEFINITION. The static mesh: MSND, MBC, MRED and the arrival of beats and partials (R144, R228 to R233, R253). -/

namespace Sys2Proof.Machine

/-! ## Routes and link outputs -/

/-- Directions of link outputs: 0 toward x − 1, 1 toward x + 1, 2 toward y − 1, 3 toward y + 1. -/
def dirTo (n m : Nat) : Nat := if m + 1 = n then 0 else if n + 1 = m then 1 else if m < n then 2 else 3

/-- The input a beat enters the next router by, in R233's order: x-negative carries beats toward +x, and so on. -/
def inputOf (dir : Nat) : Nat := if dir = 1 then 0 else if dir = 0 then 1 else if dir = 3 then 2 else 3

/-- A core's own injection. -/
def inputLocal : Nat := 4

/-- The cores a route visits after `n`, along x first, then along y (R228). -/
def stepsX : Nat → Nat → Int → List Nat
  | 0, _, _ => []
  | k + 1, n, d => (if 0 < d then n + 1 else n - 1) :: stepsX k (if 0 < d then n + 1 else n - 1) d

def stepsY : Nat → Nat → Int → List Nat
  | 0, _, _ => []
  | k + 1, n, d => (if 0 < d then n + 64 else n - 64) :: stepsY k (if 0 < d then n + 64 else n - 64) d

/-- The cores from the sender on, one per hop. -/
def route (n : Nat) (dx dy : Int) : List Nat :=
  let xs := stepsX dx.natAbs n dx
  xs ++ stepsY dy.natAbs (xs.getLast?.getD n) dy

/-- The link outputs one flow takes: hop `k` in cycle `inject + 1 + 2k` (R229, R233). -/
def linkUses (flow inject : Nat) : Nat → Nat → Nat → List Nat → List LinkUse
  | _, _, _, [] => []
  | hop, n, input, m :: ms =>
    ⟨n, dirTo n m, inject + 1 + 2 * hop, input, flow, hop⟩ :: linkUses flow inject (hop + 1) m (inputOf (dirTo n m)) ms

/-- Put one flow on the mesh: its beats, then its link outputs. `path` lists the cores after the sender. -/
def inject (n cycle : Nat) (path : List Nat) (bs : List Beat) (s : State) : State :=
  let f := s.mesh.nextId
  { s with mesh := { s.mesh with
    nextId := f + 1, beats := s.mesh.beats ++ bs.map (fun b => { b with flow := f })
    links := s.mesh.links ++ linkUses f cycle 0 n inputLocal path } }

/-- Schedule the reads of `b` beats from `src`: beat j in cycle c + 1 + j. -/
def schedBeats (tag src : Nat) : Nat → Nat → Core → Core
  | 0, _, c => c
  | k + 1, j, c => schedBeats tag src k (j + 1) (c.schedCap (c.now + 1 + j) tag (src + 32 * j) 32)

/-! ## Operands (R228) -/

/-- The operands of MSND, MBC and MRED: SRC, DST, the count of beats, two bytes of destination (R228). -/
structure MeshArgs where
  src : Nat
  dst : Nat
  beats : Nat
  b0 : Nat
  b1 : Nat

/-- The operands in the pair sA and sA + 1 (R228). -/
def meshArgs (c : Core) (sA : BitVec 5) : MeshArgs :=
  let lo := (c.rs sA).toNat
  let hi := (c.rs1 sA 1).toNat
  ⟨bitsOf lo 0 16, bitsOf lo 16 16, bitsOf hi 16 4 + 1, bitsOf hi 0 8, bitsOf hi 8 8⟩

/-- The fault conditions of a mesh instruction; `bad` are its own operand conditions. -/
def meshFaults (c : Core) (sA : BitVec 5) (a : MeshArgs) (bad : Bool) : List (Bool × CoreFault × Nat) :=
  [(decide (c.now < c.meshFree), .unitBusy, 0), (!regAligned sA 2 || bad, .badOperand, a.b0 + 256 * a.b1),
    rangeFault a.src (32 * a.beats), writeRangeFault c a.dst (32 * a.beats),
    alignFault a.src 32, alignFault a.dst 32, (c.sect.loose, .meshLoose, 0)]

/-- The core after a mesh instruction: its port taken for the beats, their reads scheduled under a fresh tag. -/
def Core.meshIssue (c : Core) (a : MeshArgs) (links : Nat) : Core :=
  schedBeats c.nextTag a.src a.beats 0
    { c.bumpTag with meshFree := c.now + a.beats, meshBeatCnt := c.meshBeatCnt + a.beats * links }

/-- Beats of one flow to several destinations: each a core, its hops. -/
def beatsTo (n : Nat) (c : Core) (a : MeshArgs) (j : Nat) (ds : List (Nat × Nat)) : List Beat :=
  ds.map (fun d =>
    { flow := 0, hops := d.2, src := n, dst := d.1, issued := c.now, kind := .write (a.dst + 32 * j)
      capTag := c.nextTag, capOff := 32 * j, data := none, arrive := c.now + 2 + 2 * d.2 + j, tag := c.sect.startFrame })

/-- R229: MSND sends beats to one core. -/
def execMsnd (i : Issue) (sA : BitVec 5) (s : State) : Host.Outcome State Fault Refusal :=
  .next (issueOp i 3 (fun s c =>
    let n := i.core.toNat
    let t := s.teamRec n
    let a := meshArgs c sA
    let dx := sext a.b0 8
    let dy := sext a.b1 8
    let tx : Int := (teamX t n : Nat) + dx
    let ty : Int := (teamY t n : Nat) + dy
    let out := decide (tx < 0) || decide ((t.width : Int) ≤ tx) || decide (ty < 0) || decide ((t.height : Int) ≤ ty)
    let dst := coreAt t tx.toNat ty.toNat
    let path := route n dx dy
    { reads := [(a.src, 32 * a.beats)]
      faults := meshFaults c sA a (out || (dx == 0 && dy == 0))
      eff := (List.range a.beats).foldl
        (fun s j => inject n (c.now + 1 + j) path (beatsTo n c a j [(dst, path.length)]) s)
        (s.setCore n (c.meshIssue a 1)) }) s)

/-- R231: MBC broadcasts beats along a team row (axis 0) or column (axis 1), coordinates LO to HI. -/
def execMbc (i : Issue) (sA : BitVec 5) (axis : Bool) (s : State) : Host.Outcome State Fault Refusal :=
  .next (issueOp i 3 (fun s c =>
    let n := i.core.toNat
    let t := s.teamRec n
    let a := meshArgs c sA
    let p := if axis then teamY t n else teamX t n
    let size := if axis then t.height else t.width
    let up := route n (if axis then 0 else ((a.b1 - p : Nat) : Int)) (if axis then ((a.b1 - p : Nat) : Int) else 0)
    let down := route n (if axis then 0 else -((p - a.b0 : Nat) : Int)) (if axis then -((p - a.b0 : Nat) : Int) else 0)
    let dsts := fun (path : List Nat) => (List.range path.length).map (fun k => (nth 0 path k, k + 1))
    let send := fun (path : List Nat) (j : Nat) (s : State) =>
      if path.isEmpty then s else inject n (c.now + 1 + j) path (beatsTo n c a j (dsts path)) s
    { reads := [(a.src, 32 * a.beats)]
      faults := meshFaults c sA a
        (decide (a.b1 < a.b0) || decide (p < a.b0) || decide (a.b1 < p) || decide (size ≤ a.b1))
      eff := (List.range a.beats).foldl (fun s j => send down j (send up j s))
        (s.setCore n (c.meshIssue a (bit (!up.isEmpty) + bit (!down.isEmpty)))) }) s)

/-- The next core of a reduction run. -/
def nextOfRun (n : Nat) (vertical : Bool) : Nat := if vertical then n + 64 else n + 1

/-- Send a partial that was formed at the end of cycle `formed` to the next core of its run (R232). -/
def sendPartial (n formed dst lo hi beat tag issued capTag capOff : Nat) (vertical fp : Bool) (data : Option (List Byte))
    (s : State) : State :=
  let m := nextOfRun n vertical
  inject n (formed + 1) [m]
    [{ flow := 0, hops := 1, src := n, dst := m, issued := issued, kind := .partialSum dst lo hi beat vertical fp
       capTag := capTag, capOff := capOff, data := data, arrive := formed + 4, tag := tag }] s

/-- R232: MRED joins an ordered reduction along a run. -/
def execMred (i : Issue) (sA : BitVec 5) (axis fmt : Bool) (s : State) : Host.Outcome State Fault Refusal :=
  .next (issueOp i 3 (fun s c =>
    let n := i.core.toNat
    let t := s.teamRec n
    let a := meshArgs c sA
    let p := if axis then teamY t n else teamX t n
    let size := if axis then t.height else t.width
    let s1 := s.setCore n (c.meshIssue a (bit (p != a.b1)))
    { reads := [(a.src, 32 * a.beats)]
      faults := meshFaults c sA a
        (decide (a.b1 ≤ a.b0) || decide (p < a.b0) || decide (a.b1 < p) || decide (size ≤ a.b1))
      eff :=
        if p = a.b0 then
          (List.range a.beats).foldl
            (fun s j => sendPartial n (c.now + 1 + j) a.dst a.b0 a.b1 j c.sect.startFrame c.now c.nextTag (32 * j) axis
              (!fmt) none s) s1
        else
          { s1 with mesh := { s1.mesh with reds := s1.mesh.reds ++
              [⟨n, c.now, a.dst, a.b0, a.b1, a.beats, axis, !fmt, c.nextTag, []⟩] } } }) s)

/-! ## Arrival -/

/-- The earliest beat on its way to core `n`. -/
def earliest (n : Nat) : List Beat → Option Beat
  | [] => none
  | b :: bs =>
    match earliest n bs with
    | none => if b.dst = n then some b else none
    | some x => if b.dst = n && decide (b.arrive ≤ x.arrive) then some b else some x

/-- The next beat that reaches core `n`, after the link uses before its arrival have passed. -/
def nextBeat : Nat → Nat → State → State × Option Beat
  | 0, _, s => (s, none)
  | k + 1, n, s =>
    match earliest n s.mesh.beats with
    | none => (s, none)
    | some b =>
      let s1 := passLinks (s.teamCores n) b.arrive s
      if s1.mesh.beats.contains b then (s1, some b) else nextBeat k n s1

/-- Remove one beat. -/
def Mesh.remove (m : Mesh) (b : Beat) : Mesh := { m with beats := m.beats.erase b }

/-- Lane by lane: FP32 addition, or INT32 addition that wraps (R232). -/
def addLanes (fp : Bool) (x y : List Byte) : List Byte :=
  let ws := (wordsOf 8 x).zip (wordsOf 8 y)
  ws.flatMap (fun p => leBytes 4 (if fp then fpAdd p.1 p.2 else p.1 + p.2).toNat)

/-- The MRED of core `n` that a partial matches (R232): the same run, format and cycle. Only the root has a use for DST. -/
def matching (n : Nat) (t : Team) (lo hi beat : Nat) (vertical fp : Bool) (arrive : Nat) (rs : List RedJob) :
    Option RedJob :=
  rs.find? (fun r =>
    let p := (if vertical then teamY t n else teamX t n) - lo
    r.core == n && r.lo == lo && r.hi == hi && r.vertical == vertical && r.fp == fp &&
      decide (beat < r.beats) && !r.got.contains beat && r.issued + 1 + beat + 4 * p == arrive)

/-- A reduction partial is folded with the core's own beat: the root writes it, another core sends it on. -/
def foldPartial (n : Nat) (b : Beat) (dst lo hi beat : Nat) (vertical fp : Bool) (data : List Byte) (s : State) : State :=
  match matching n (s.teamRec n) lo hi beat vertical fp b.arrive s.mesh.reds with
  | none => meshError n s
  | some r =>
    let s1 := settle n b.arrive s
    let own := (((s1.core n).cap r.capTag).drop (32 * beat)).take 32
    let sum := addLanes fp data own
    let r' := { r with got := beat :: r.got }
    let s2 := { s1 with mesh := { s1.mesh with
      reds := (s1.mesh.reds.map (fun x => if x = r then r' else x)).filter (fun x => decide (x.got.length < x.beats)) } }
    let p := if vertical then teamY (s.teamRec n) n else teamX (s.teamRec n) n
    if p = hi then s2.updCore n (fun c => c.schedAs (4 * (b.arrive + 1) + 4) (b.arrive + 2) (.dmem false (r.dst + 32 * beat) sum))
    else sendPartial n b.arrive dst lo hi beat b.tag r.issued r.capTag (32 * beat) vertical fp (some sum) s2

/-- R229 to R233, R144: the next beat or partial reaches a core. A core that has stopped takes none (R154); one whose section
started in another frame drops it and raises MESH_SYNC. -/
def execMeshBeatArrival (core : BitVec 12) (s : State) : Host.Outcome State Fault Refusal :=
  let n := core.toNat
  match nextBeat s.mesh.beats.length n s with
  | (s, none) => .next s
  | (s, some b) =>
    let s1 := settle b.src (b.issued + 1 + b.capOff / 32) { s with mesh := s.mesh.remove b }
    let data := match b.data with
      | some d => d
      | none => (((s1.core b.src).cap b.capTag).drop b.capOff).take 32
    let c := s1.core n
    if c.exec = .halted || c.exec = .idle then .next s1
    else if c.sect.startFrame ≠ b.tag then
      .next (faultAfter n .meshSync 3 c.pc b.arrive (s1.updCore n (fun c => { c with syncDrop := true })))
    else
      match b.kind with
      | .write dst => .next (s1.updCore n (fun c => c.schedAs (4 * b.arrive + 4) (b.arrive + 1) (.dmem false dst data)))
      | .partialSum dst lo hi beat vertical fp => .next (foldPartial n b dst lo hi beat vertical fp data s1)

end Sys2Proof.Machine
end

