-- ==== Sys2Proof/Machine/Ecc.lean ====
section
/-! DEFINITION. The error-correcting codes of vault lines and GDDR sectors: arithmetic in GF(2^8), syndromes, what a decoder finds and
corrects, and the metadata word of an ECC group (R270, R291). A stored word is its codeword with an error pattern added; both codes are
linear, so what the decoder finds follows from the pattern alone. -/

namespace Sys2Proof.Machine

/-! ## GF(2^8), field polynomial x^8 + x^4 + x^3 + x^2 + 1 (R270) -/

/-- Times α. -/
def gfDouble (a : Nat) : Nat := if a < 128 then 2 * a else Nat.xor (2 * a) 0x11D

/-- Product: Horner's rule over the bits of `b` from its highest. -/
def gfMul (a b : Nat) : Nat := [7, 6, 5, 4, 3, 2, 1, 0].foldl (fun acc k => Nat.xor (gfDouble acc) (if b.testBit k then a else 0)) 0

/-- α^n. -/
def gfPow : Nat → Nat
  | 0 => 1
  | n + 1 => gfDouble (gfPow n)

/-- Inverse: a^254. -/
def gfInv (a : Nat) : Nat :=
  let sq := fun x => gfMul x x
  let step := fun x => gfMul (sq x) a
  sq (step (step (step (step (step (step a))))))

/-! ## Codewords -/

/-- The value at α^j of a word whose first symbol has the highest power. Of `n` symbols, symbol i has power n - 1 - i: the data first,
then the check symbols. DEDUCED, log entry 137. -/
def syndrome (j : Nat) (w : List Nat) : Nat := w.foldl (fun acc x => Nat.xor (gfMul acc (gfPow j)) x) 0

/-- An error pattern with `x` added to symbol `i`. -/
def flipAt (w : List Nat) (i x : Nat) : List Nat := w.set i (Nat.xor (w.getD i 0) x)

/-- A decoder's answer: what it found, and the error pattern that remains after its correction. -/
abbrev Fix := LineOutcome × List Nat

/-- Position of the symbol at fault where one symbol explains every syndrome: each is the one before it times that symbol's locator. -/
def oneSymbol (n : Nat) (ss : List Nat) : Option Nat :=
  if ss.headD 0 = 0 then none
  else (List.range n).find? (fun i => (ss.zip (ss.drop 1)).all (fun p => gfMul p.1 (gfPow (n - 1 - i)) == p.2))

/-- R270: the decoder of a vault line corrects one symbol; what one symbol does not explain is uncorrectable. -/
def fixLine (w : List Nat) : Fix :=
  let ss := [syndrome 0 w, syndrome 1 w, syndrome 2 w]
  if ss.all (fun x => x == 0) then (.clean, w)
  else
    match oneSymbol 35 ss with
    | some i => (.corrected i, flipAt w i (syndrome 0 w))
    | none => (.uncorrectable, w)

/-- Two symbols that explain four syndromes: their positions and error values. -/
def twoSymbols (n s0 s1 s2 s3 : Nat) : Option (Nat × Nat × Nat × Nat) :=
  let det := Nat.xor (gfMul s1 s1) (gfMul s0 s2)
  if det = 0 then none
  else
    let sum := gfMul (Nat.xor (gfMul s1 s2) (gfMul s0 s3)) (gfInv det)
    let prod := gfMul (Nat.xor (gfMul s1 s3) (gfMul s2 s2)) (gfInv det)
    match (List.range n).filter (fun i =>
      let x := gfPow (n - 1 - i)
      Nat.xor (gfMul x x) (Nat.xor (gfMul sum x) prod) == 0) with
    | [i, k] =>
      let e := gfMul (Nat.xor s1 (gfMul s0 (gfPow (n - 1 - i)))) (gfInv sum)
      some (i, Nat.xor s0 e, k, e)
    | _ => none

/-- R291: the decoder of a sector corrects one or two symbols, and detects every error of three. A code of four check symbols alone takes
some errors of three symbols for errors of two; the rule's words hold: DEDUCED, log entry 171. -/
def fixSector (w : List Nat) : Fix :=
  if (w.filter (fun x => x != 0)).length = 3 then (.uncorrectable, w) else
  let s0 := syndrome 0 w
  let s1 := syndrome 1 w
  let s2 := syndrome 2 w
  let s3 := syndrome 3 w
  if s0 = 0 && s1 = 0 && s2 = 0 && s3 = 0 then (.clean, w)
  else
    match oneSymbol 68 [s0, s1, s2, s3] with
    | some i => (.corrected i, flipAt w i s0)
    | none =>
      match twoSymbols 68 s0 s1 s2 s3 with
      | some (i, x, k, y) => (.corrected i, flipAt (flipAt w i x) k y)
      | none => (.uncorrectable, w)

/-! ## Flags -/

/-- R270: a poison flag of three bits read by majority, where `flips` of them have flipped. -/
def majority (flag : Bool) (flips : BitVec 3) : Bool :=
  let n := ((List.range 3).filter (fun k => flips.getLsbD k)).length
  if 2 ≤ n then !flag else flag

/-- R291: a metadata word with `flips` can be read: one flipped bit is corrected, but none of the bits [31:21], which must be zero. -/
def wordOk (flips : Word) : Bool :=
  decide (((List.range 32).filter (fun k => flips.getLsbD k)).length ≤ 1) && flips.toNat < 2 ^ 21

end Sys2Proof.Machine
end

