-- ==== Sys2Proof/Machine/Vault.lean ====
section
/-! DEFINITION. Vaults: sites and their repair state, coordinates of a line, the error log, line reads and writes with poison,
corrections and uncorrectable lines (R241, R242, R259 to R279, R284). -/

namespace Sys2Proof.Machine

/-! ## Sites (R240 to R242) -/

/-- A site by its column and row: row × 64 + column. -/
def siteAt (col row : Nat) : Nat := row * 64 + col

/-- State of the cluster column of a logical core (Table MSH-1). -/
def State.colState (s : State) (lid : Nat) : Nat := nth 8 (s.cluster (clusterOf lid)).cols (lid % 8)

/-- The physical row on which a logical core runs (R241, R242). -/
def State.siteRow (s : State) (lid : Nat) : Nat :=
  let y := lid / 64
  if s.colState lid = y % 8 then 9 * (y / 8) + 8 else 9 * (y / 8) + y % 8

/-- Vaults are numbered by the logical core they serve; 4096 + its site is the vault of a reserve that stands idle. -/
def idleVault (site : Nat) : Nat := 4096 + site

/-- The logical core that a vault serves. -/
def vaultLid (v : Nat) : Option Nat := if v < 4096 then some v else none

/-- The site of a vault. -/
def State.siteOf (s : State) (v : Nat) : Nat := if v < 4096 then siteAt (v % 64) (s.siteRow v) else v - 4096

/-- The logical core on a site; `none` for an idle or failed site. -/
def State.lidOf (s : State) (site : Nat) : Option Nat :=
  let col := site % 64
  let row := site / 64
  let cy := row / 9
  let st := nth 8 (s.cluster (cy * 8 + col / 8)).cols (col % 8)
  let j := if row % 9 = 8 then st else row % 9
  if 8 ≤ j then none
  else if row % 9 ≠ 8 && st == j then none
  else some ((8 * cy + j) * 64 + col)

/-- The vault at a site; `none` at a failed site that a reserve stands in for, which is held in reset with its clock stopped (R242). -/
def State.vaultAt (s : State) (site : Nat) : Option Nat :=
  match s.lidOf site with
  | some n => some n
  | none => if site / 64 % 9 = 8 then some (idleVault site) else none

/-- A site's vault state. -/
def State.site (s : State) (n : Nat) : Site := look {} s.sites n

/-- Change a site's vault state. -/
def State.updSite (s : State) (n : Nat) (f : Site → Site) : State := { s with sites := upd {} s.sites n f }

/-- Cluster of a site. -/
def siteCluster (site : Nat) : Nat := site / 64 / 9 * 8 + site % 64 / 8

/-! ## Lines (R260) -/

/-- Bank, line in the row and data row of a line. -/
def lineBank (l : Nat) : Nat := l % 4
def lineInRow (l : Nat) : Nat := l / 4 % 16
def lineRow (l : Nat) : Nat := l / 64 % 8192

/-- Hard-repair entries that a vault left manufacturing with, as (bank, row or column, spare): of the fuses those that name a part of the
vault and leave 16 spare rows and 2 spare columns of every bank free (R275). -/
def factoryRows (site : Nat) : List (Nat × Nat × Nat) :=
  (Config.factoryRows site).filter (fun e => decide (e.1 < 4) && decide (e.2.1 < 8192) && decide (e.2.2 < 48))
def factoryCols (site : Nat) : List (Nat × Nat × Nat) :=
  (Config.factoryCols site).filter (fun e => decide (e.1 < 4) && decide (e.2.1 < 560) && decide (e.2.2 < 6))

/-- The spare row that replaces a data row, if one does: soft entries first (R276), then the hard ones, the field's before the factory's. -/
def State.spareOf (s : State) (site bank row : Nat) : Option Nat :=
  (((s.site site).softRows ++ (s.site site).liveRows ++ factoryRows site).find? (fun e => e.1 == bank && e.2.1 == row)).map
    (fun e => e.2.2)

/-- The key of a vault line in the lists of poison flags and stored errors. -/
def poisonKey (v line : Nat) : Nat := v * 2 ^ 19 + line

/-- The errors stored in a line since it was last written: its 35 symbols, none where the list is empty, and its poison bits. -/
def State.storedErr (s : State) (v line : Nat) : List Nat × BitVec 3 := look ([], 0#3) s.verr (poisonKey v line)

/-- Drop a line's stored errors: it is written. -/
def State.mend (s : State) (v line : Nat) : State := { s with verr := del s.verr (poisonKey v line) }

/-- Symbols and poison bits fail, beside what has failed before. -/
def failOnto (e : LineErr) (old : List Nat × BitVec 3) : List Nat × BitVec 3 :=
  (e.syms.foldl (fun w x => flipAt w (x.1.toNat % 35) x.2.toNat) (if old.1.isEmpty then List.replicate 35 0 else old.1), old.2 ^^^ e.flag)

/-- Symbols and poison bits of a stored line fail. -/
def State.strike (s : State) (v line : Nat) (e : LineErr) : State :=
  if e = {} then s else { s with verr := put s.verr (poisonKey v line) (failOnto e (s.storedErr v line)) }

/-- The same of a copy of it. -/
def LineCopy.strike (x : LineCopy) (e : LineErr) : LineCopy := if e = {} then x else { x with err := failOnto e x.err }

/-- Does a line read as poisoned: the majority of its three poison bits (R270)? -/
def State.poisoned (s : State) (v line : Nat) : Bool :=
  majority (s.vpoison.contains (poisonKey v line)) (s.storedErr v line).2

/-- Set a line's poison flag: its three bits are written, so that none of them has failed. -/
def State.poison (s : State) (v line : Nat) : State :=
  let k := poisonKey v line
  let e := s.storedErr v line
  let s1 := if e.2 = 0#3 then s
    else { s with verr := if e.1.isEmpty then del s.verr k else put s.verr k (e.1, 0#3) }
  if s1.vpoison.contains k then s1 else { s1 with vpoison := k :: s1.vpoison }

/-- Clear a line's poison flag. -/
def State.unpoison (s : State) (v line : Nat) : State :=
  { s with vpoison := s.vpoison.filter (fun k => k != poisonKey v line) }

/-- Where a line's data is kept. An idle reserve's vault has no local address (Table REG-7): its data lies above all of them (log entry
138). -/
def lineAddr (v line : Nat) : Nat := (if v < 4096 then vaultBase v else 2 ^ 48 + v * 2 ^ 24) + 32 * line

/-- The 32 data bytes that a line was written with. -/
def State.vline (s : State) (v line : Nat) : List Byte := s.mem.read (lineAddr v line) 32

/-- R270: stored bytes are read through the code: what the decoder finds, and the bytes it gives. -/
def readCode (e : List Nat) (bytes : List Byte) : LineOutcome × List Byte :=
  if e.isEmpty then (.clean, bytes) else ((fixLine e).1, (bytes.zip (fixLine e).2).map (fun p => p.1 ^^^ BitVec.ofNat 8 p.2))

/-- A line is read through its code. -/
def State.vread (s : State) (v line : Nat) : LineOutcome × List Byte := readCode (s.storedErr v line).1 (s.vline v line)

/-- A line as it is stored, and as a copy of it reads. -/
def State.lineCopy (s : State) (v line : Nat) : LineCopy := ⟨s.vline v line, s.vpoison.contains (poisonKey v line), s.storedErr v line⟩
def LineCopy.poisoned (x : LineCopy) : Bool := majority x.flag x.err.2
def LineCopy.read (x : LineCopy) : LineOutcome × List Byte := readCode x.err.1 x.bytes

/-- Does a copy fail: its poison flag is set, or its code finds an error it cannot correct (R272)? -/
def LineCopy.bad (x : LineCopy) : Bool := x.poisoned || x.read.1 == .uncorrectable

/-- Store a line as a copy has it. -/
def State.setLine (s : State) (v line : Nat) (x : LineCopy) : State :=
  let k := poisonKey v line
  { s with
    mem := s.mem.write (lineAddr v line) x.bytes
    verr := if x.err = ([], 0#3) then del s.verr k else put s.verr k x.err
    vpoison := if x.flag then (if s.vpoison.contains k then s.vpoison else k :: s.vpoison) else s.vpoison.filter (fun j => j != k) }

/-- Is a request's act the scrubber's write-back? -/
def BgAct.isBack : BgAct → Bool
  | .back _ => true
  | _ => false

/-- A write that reaches a line drops the scrubber's write-back that waits for it (R274). -/
def State.dropBack (s : State) (v line : Nat) : State :=
  { s with bgq := s.bgq.map (fun (q : Nat × List BgReq) =>
      if q.1 = v then (q.1, q.2.filter (fun r => !(r.line == line && r.act.isBack))) else q) }

/-- Merge masked bytes into a line's bytes (R264). -/
def mergeBytes : Nat → List Byte → List Byte → List Byte
  | _, [], _ => []
  | _, o :: os, [] => o :: os
  | m, o :: os, b :: bs => (if m % 2 = 1 then b else o) :: mergeBytes (m / 2) os bs

/-- Is every byte of the line masked? -/
def wholeMask (mask : Nat) : Bool := mask % 2 ^ 32 == 2 ^ 32 - 1

/-- Does a line fail: its poison flag is set, or its code finds an error it cannot correct (R272)? -/
def State.lineBad (s : State) (v line : Nat) : Bool := s.poisoned v line || (s.vread v line).1 == .uncorrectable

/-- R264: write a line under a byte mask. The check symbols are computed anew, so no stored error remains. A full mask clears the poison
flag; a merge with a line that fails sets it. -/
def State.writeLine (s : State) (v line : Nat) (mask : Nat) (bytes : List Byte) : State :=
  let s1 := { s with mem := s.mem.write (lineAddr v line) (mergeBytes mask (s.vread v line).2 bytes) }
  let s2 := (s1.mend v line).dropBack v line
  if wholeMask mask then s2.unpoison v line
  else if s.lineBad v line then s2.poison v line
  else s2

/-! ## The error log and counters (R271, R272, R284, Table VLT-11) -/

/-- Codes of VLT_LOG.PATH. -/
inductive VPath where
  | core | tile | overlay | walker | background | scrub | selfTest
deriving DecidableEq, Repr

def VPath.code : VPath → Nat
  | .core => 0
  | .tile => 1
  | .overlay => 2
  | .walker => 3
  | .background => 4
  | .scrub => 5
  | .selfTest => 6

/-- Write one entry into a log ring of `n` entries (a power of two): head in bits [k-1:0], entries written in the
field above it, the overwritten flag at bit `ovf` (R284, R533). -/
def State.logEntry (s : State) (head n countLo ovf : Nat) (slot : Nat → Nat) (entry : Nat) : State :=
  let h := s.reg head
  let at_ := h % n
  let cnt := bitsOf h countLo (Nat.log2 n + 1)
  let full := decide (n ≤ cnt)
  let h1 := putBits h 0 (Nat.log2 n) ((at_ + 1) % n)
  let h2 := putBits h1 countLo (Nat.log2 n + 1) (if full then n else cnt + 1)
  (s.setReg (slot at_) entry).setReg head (if full then putBits h2 ovf 1 1 else h2)

/-- One VLT_LOG entry (Table VLT-11). `symbol` is 0x3F for none or several. Lines from 524,288 are those of the spare rows, used or not. -/
def State.logSite (s : State) (site : Nat) (lid : Option Nat) (line symbol kind path : Nat) : State :=
  let sp := if line < 524288 then (s.spareOf site (lineBank line) (lineRow line)) else some (line / 64 - 8192)
  s.logEntry Reg.vltLogHead 64 8 16 Reg.vltLog
    (site % 64 + site / 64 * 2 ^ 6 + lineBank line * 2 ^ 13 + (sp.getD (lineRow line)) * 2 ^ 15 +
      lineInRow line * 2 ^ 28 + symbol * 2 ^ 32 + kind * 2 ^ 38 + path * 2 ^ 40 + bit sp.isSome * 2 ^ 43 +
      lid.getD 0 * 2 ^ 48 + bit lid.isSome * 2 ^ 60 + s.reg Reg.glbTicks * 2 ^ 64)

/-- A row that corrects errors on CE_ROW_LIMIT separate scrub passes, or holds an uncorrectable line, is due for repair
(R277). -/
def State.weaken (s : State) (site row : Nat) : State :=
  s.updSite site (fun x => if x.weak.contains row then x else { x with weak := x.weak ++ [row] })

/-- A core's own counter of a vault event; an idle reserve has none. -/
def State.updLid (s : State) (v : Nat) (f : Core → Core) : State := if v < 4096 then s.updCore v f else s

/-- A corrected line of a vault (R271, R277). -/
def State.vaultCorrected (s : State) (v line symbol : Nat) (path : VPath) : State :=
  let site := s.siteOf v
  let row := lineBank line * 8192 + lineRow line
  let s1 := ((s.updLid v (fun c => { c with vltCe := c.vltCe + 1 })).bump Reg.vltCeCnt 1).logSite
    site (vaultLid v) line symbol 0 path.code
  let x := s1.site site
  let old := (x.ceRows.find? (fun e => e.1 == row)).getD (row, 0, x.pass + 1)
  let n := if old.2.1 = 0 || old.2.2 != x.pass then old.2.1 + 1 else old.2.1
  let s2 := s1.updSite site (fun x => { x with ceRows := (row, n, x.pass) :: x.ceRows.filter (fun e => e.1 != row) })
  if s1.fld Reg.vltCtrl 8 4 ≤ n then s2.weaken site row else s2

/-- An uncorrectable or poisoned line of a vault (R272, R277). -/
def State.vaultUncorrectable (s : State) (v line : Nat) (poisoned : Bool) (path : VPath) : State :=
  let site := s.siteOf v
  let s1 := ((s.updLid v (fun c => { c with vltUe := c.vltUe + 1 })).bump Reg.vltUeCnt 1).logSite
    site (vaultLid v) line 0x3F (if poisoned then 2 else 1) path.code
  s1.weaken site (lineBank line * 8192 + lineRow line)

/-- The counters and log of a read that found a copy of a line (R271, R272). -/
def State.copyRead (s : State) (v line : Nat) (x : LineCopy) (path : VPath) : State :=
  if x.bad then s.vaultUncorrectable v line x.poisoned path
  else
    match x.read.1 with
    | .corrected sym => s.vaultCorrected v line sym path
    | _ => s

/-- The counters and log of one line read. -/
def State.lineRead (s : State) (v line : Nat) (path : VPath) : State := s.copyRead v line (s.lineCopy v line) path

end Sys2Proof.Machine
end

