-- ==== Sys2Proof/Machine/Report.lean ====
section
/-! DEFINITION. Status codes, what the device puts out, the fault log, and the rejection of a host access (R506, R532, R540,
R554). -/

namespace Sys2Proof.Machine

/-- The 8-bit code of a status (Table HST-15). -/
def statusCode : Status → Nat
  | .ok => 0
  | .eArg => 1
  | .eRange => 2
  | .eAlign => 3
  | .eState => 4
  | .eBusy => 5
  | .eNoroom => 6
  | .eLate => 7
  | .ePerm => 8
  | .eTopology => 9
  | .eDeadline => 0xA
  | .eMedia => 0xB
  | .eFault => 0xC
  | .eCancelled => 0xD
  | .eUnsupported => 0xE
  | .eTimeout => 0xF

/-- The first check that fails. -/
def firstCheck : List (Bool × Status) → Option Status
  | [] => none
  | (b, st) :: t => if b then some st else firstCheck t

/-- Put something out. -/
def State.emit (s : State) (o : Out) : State := { s with outbox := s.outbox ++ [o] }

/-- A function's state at the endpoint. -/
def State.fn (s : State) (f : Nat) : Fn := look {} s.hst.fns f

/-- Change a function's state. -/
def State.updFn (s : State) (f : Nat) (g : Fn → Fn) : State :=
  { s with hst := { s.hst with fns := upd {} s.hst.fns f g } }

/-- Does IDE hold traffic back (R539)? -/
def State.ideBlocks (s : State) : Bool := s.fld Reg.hstCfg 16 1 == 1 && s.fld Reg.hstLink 9 2 != 1

/-- Signal an MSI-X vector of a function; a message is a memory request of the device (R539, R547). -/
def State.msi (s : State) (f v : Nat) : State :=
  if (s.fn f).busMaster && !s.ideBlocks && !s.hst.perst then s.emit (.msi f v) else s

/-- R540: record a rejected access of function `f`: `bar` 0 for BAR0, 1 for BAR2, 2 for BAR4. -/
def State.reject (s : State) (f : Nat) (st : Status) (bar off : Nat) (read : Bool) : State :=
  let s1 := if s.fld (Reg.fnAccErr f) 11 1 = 1 then s
    else (s.setReg (Reg.fnAccErr f)
      (statusCode st + bar * 2 ^ 8 + bit read * 2 ^ 10 + 2 ^ 11 + off % 2 ^ 48 * 2 ^ 16)).msi f 2
  (s1.bump (Reg.fnAccCnt f) 1).bump Reg.hstRejCnt 1

/-! ## The checks before an owning chapter's own (R537, R539, R598) -/

/-- The block of a BAR0 offset (Table REG-4); 16 and above are CORE windows and shadows. -/
def blockOf (off : Nat) : Nat := off / 0x100000

/-- Is the device in the rest state? -/
def State.resting (s : State) : Bool := s.fld Reg.pwrStatus 0 2 == 2

/-- Is a core between two turns of its team, or of no team (R522)? -/
def State.inGap (s : State) (n : Nat) : Bool :=
  match s.teamOfCore n with
  | some k => !(s.team k).running
  | none => true

/-- Cores whose stand-in runs (R522): the reserve is tested since their team came to a gap, or it is filled. -/
def State.standIns (s : State) : List Nat := s.dlr.standing ++ s.dlr.repairs.filter s.inGap

/-- Is a team paused for field repair (R522)? -/
def State.fieldPause (s : State) (k : Nat) : Bool := s.standIns.any (fun n => s.teamOfCore n == some k)

/-- Is a team paused: for field repair, or from a team reset until its next attempt starts (R615)? -/
def State.teamPaused (s : State) (n : Nat) : Bool := s.fieldPause n || s.fld (Reg.dlrTeamRst n) 0 1 == 1

/-- Is the block of an offset served from its shadow copy now (R537, R625)? -/
def State.shadowServed (s : State) (off : Nat) : Bool :=
  match blockOf off with
  | 0x4 => s.dlr.switching.isSome
  | 0xB => s.fld Reg.umpStatus 0 2 == 2
  | b =>
    if 16 ≤ b && b < 32 then
      (let n := (off - 0x1000000) / 0x1000
       (s.cluster (clusterOf n)).dom != .run || (s.teamOfCore n).any (fun k =>
         s.fieldPause k || (s.team k).stopped || s.fld (Reg.dlrTeamRst k) 0 1 == 1))
    else false

/-- Does the rest state turn away a write to the block (R598)? -/
def State.restBlocks (s : State) (off : Nat) : Bool := s.resting && !([0x2, 0x3, 0xA, 0xB, 0xE].contains (blockOf off))

/-- The checks that a write of BAR0 meets before those of its own chapter: IDE, the writer, the shadow copy, the rest state. -/
def State.barChecks (s : State) (fn : BitVec 6) (off : Nat) : List (Bool × Status) :=
  [(s.ideBlocks, .ePerm), (fn != 0#6, .ePerm), (s.shadowServed off, .eBusy), (s.restBlocks off, .eState)]

/-- While PERST# or POR# is low the link is down and an access is dropped with it (R609, R610). -/
def State.linkDown (s : State) : Bool := s.hst.perst || s.clk.por

/-- R540: a host write of BAR0 is rejected with its first failing check, or carried out. -/
def State.hostWrite (s : State) (fn : BitVec 6) (off : Nat) (checks : List (Bool × Status)) (f : State → State) : State :=
  if s.linkDown then s
  else
    match firstCheck (s.barChecks fn off ++ checks) with
    | some st => s.reject fn.toNat st 0 off false
    | none => f s

/-- What a fault record says beside its tick, turn and serial (Table FLT-6). -/
structure FaultInfo where
  src : Nat
  code : Nat := 0
  cls : Nat := 0
  action : Nat := 0
  team : Option Nat := none
  loc : Nat := 0
  aux : Nat := 0
  naff : Nat := 0
  first : Nat := 0xFFFF
deriving DecidableEq, Repr

/-- R532: write one fault record and raise the fault notification. -/
def State.logFault (s : State) (f : FaultInfo) : State :=
  let t := s.team (f.team.getD 0)
  let turn := if f.team.isSome then t.turn else 0
  let att := if f.team.isSome then t.attempt else 0
  let e := s.reg Reg.glbTicks % 2 ^ 64 + turn % 2 ^ 64 * 2 ^ 64 + f.src * 2 ^ 128 + f.code % 256 * 2 ^ 136 + f.cls * 2 ^ 144 +
    f.action * 2 ^ 146 + att % 4 * 2 ^ 150 + f.team.getD 0 % 64 * 2 ^ 152 + bit f.team.isSome * 2 ^ 158 +
    f.loc % 2 ^ 16 * 2 ^ 160 + f.aux % 2 ^ 16 * 2 ^ 176 + f.naff % 2 ^ 13 * 2 ^ 192 + f.first % 2 ^ 16 * 2 ^ 208 +
    s.reg Reg.fltSerial % 2 ^ 32 * 2 ^ 224
  (((s.logEntry Reg.fltLogHead 256 8 17 Reg.fltLog e).bump Reg.fltSerial 1).setFld Reg.fltStatus 0 1 1).msi 0 3

/-- Fault sources of Table FLT-1. -/
def srcCore : Nat := 1
def srcVaultUe : Nat := 2
def srcWeightMedia : Nat := 3
def srcDma : Nat := 4
def srcMesh : Nat := 5
def srcOutPoison : Nat := 6
def srcPlateLost : Nat := 7
def srcDynNet : Nat := 8
def srcTurnTimeout : Nat := 9
def srcSliceVote : Nat := 0xA
def srcSiteFail : Nat := 0xB
def srcClusterLost : Nat := 0xC
def srcRegion : Nat := 0xD
def srcPort : Nat := 0xE
def srcChain : Nat := 0xF
def srcDealer : Nat := 0x10
def srcUmpire : Nat := 0x11
def srcGolden : Nat := 0x12

/-- A request slot; `none` when it is FREE. -/
def State.slot? (s : State) (n : Nat) : Option Slot := find? s.dlr.slots n

/-- Change a request slot that is not FREE. -/
def State.updSlot (s : State) (n : Nat) (f : Slot → Slot) : State :=
  match s.slot? n with
  | none => s
  | some x => { s with dlr := { s.dlr with slots := put s.dlr.slots n (f x) } }

/-- Does an in-service team run or hold a turn of this device? -/
def State.teamLoaded (s : State) (t : Nat) : Bool := (s.team t).loaded

/-- Is any team loaded? -/
def State.anyTeam (s : State) : Bool := s.teams.any (fun t => t.2.loaded)

end Sys2Proof.Machine
end

