-- ==== Sys2Proof/Machine/VaultPort.lean ====
section
/-! DEFINITION. The core's vault port and the plate walker: VLD, VST, OVLD, PWK, PWK.S and the lines the port serves (R140,
R152, R217 to R219, R235 to R238, R263, R264, R314, R355, R356). -/

namespace Sys2Proof.Machine

/-! ## Requests (R140) -/

/-- Consecutive lines of a request: `n` lines from vault offset `off`, each whole, with memory from `dm` upward. -/
def wholeLines (off dm n : Nat) : List VLine :=
  (List.range n).map (fun k => ⟨off / 32 + k, [(0, dm + 32 * k, 32)]⟩)

/-- Queue one request. -/
def Core.queue (c : Core) (kind : VKind) (ls : List VLine) (earliest : Nat) : Core :=
  { c with vq := c.vq ++ [⟨kind, ls, earliest, 4 * c.now + 3⟩] }

/-- A ninth request (R140). -/
def queueFull (c : Core) : Bool := decide (8 ≤ c.vq.length)

/-- Would a store to the vault span overlap the area the team load filled (R218)? -/
def inLoadArea (t : Team) (off len : Nat) : Bool := t.loadArea.any (fun a => overlaps off len a.1 a.2)

/-- R217: VLD queues vault lines for data memory. -/
def execVld (i : Issue) (sA : BitVec 5) (s : State) : Host.Outcome State Fault Refusal :=
  .next (issueOp i 3 (fun s c =>
    let off := (c.rs sA).toNat % 2 ^ 24
    let x := (c.rs1 sA 1).toNat
    let dm := x % 65536
    let n := bitsOf x 16 8 + 1
    { stall := c.queueStall
      faults := [(!regAligned sA 2, .badOperand, 0), (decide (2 ^ 24 < off + 32 * n), .memRange, off),
        writeRangeFault c dm (32 * n), alignFault off 32, alignFault dm 32, (queueFull c, .vaultQueue, 0)]
      eff := s.setCore i.core.toNat (c.queue (.load false) (wholeLines off dm n) c.now) }) s)

/-- R217, R218: VST queues data-memory lines for the vault. In a loose section it waits for source bytes that still await a
vault line (R149). -/
def execVst (i : Issue) (sA : BitVec 5) (s : State) : Host.Outcome State Fault Refusal :=
  .next (issueOp i 3 (fun s c =>
    let off := (c.rs sA).toNat % 2 ^ 24
    let x := (c.rs1 sA 1).toNat
    let dm := x % 65536
    let n := bitsOf x 16 8 + 1
    { reads := [(dm, 32 * n)]
      stall := c.queueStall
      faults := [(!regAligned sA 2, .badOperand, 0),
        (decide (2 ^ 24 < off + 32 * n) || inLoadArea (s.teamRec i.core.toNat) off (32 * n), .memRange, off),
        rangeFault dm (32 * n), alignFault off 32, alignFault dm 32, (queueFull c, .vaultQueue, 0)]
      eff := s.setCore i.core.toNat (c.queue .store (wholeLines off dm n) c.now) }) s)

/-- R152, R219: OVLD queues an overlay for the bank that is not executing. CORE_OVL takes the id at issue:
DESIGN CHOICE, log entry 161. -/
def execOvld (i : Issue) (sA : BitVec 5) (s : State) : Host.Outcome State Fault Refusal :=
  .next (issueOp i 3 (fun s c =>
    let off := (c.rs sA).toNat % 2 ^ 24
    let x := (c.rs1 sA 1).toNat
    let n := x % 1024
    let bank := 1 - bankOf c.pc
    let id := bitsOf x 16 16
    { stall := c.queueStall
      faults := [(!regAligned sA 2 || n % 2 != 0 || decide (n < 2) || decide (512 < n), .badOperand, n),
        (decide (2 ^ 24 < off + 16 * n), .memRange, off), alignFault off 32, (queueFull c, .vaultQueue, 0),
        (c.ovldInto bank, .ovlOrder, bank)]
      eff := s.setCore i.core.toNat
        { c.queue .overlay (wholeLines off (bank * 8192) (n / 2)) c.now with
          ovlA := if bank = 0 then id else c.ovlA
          ovlB := if bank = 0 then c.ovlB else id } }) s)

/-! ## The plate walker (R235 to R237) -/

/-- The operands of a PWK. -/
structure PwkArgs where
  map : Nat
  dm : Nat
  t0 : Nat
  ntok : Nat
  part : Nat

/-- Read the operands from their register pair (R235). -/
def pwkArgs (c : Core) (sA : BitVec 5) : PwkArgs :=
  let lo := (c.rs sA).toNat
  let hi := (c.rs1 sA 1).toNat
  ⟨bitsOf lo 0 16, bitsOf lo 16 16, bitsOf hi 0 12, bitsOf hi 12 13, bitsOf hi 25 7⟩

/-- The walker's view of the last PWK issued (Table ATT-7), and its counters. -/
def Core.walked (c : Core) (e : MapEntry) (p : PwkArgs) (stream write : Bool) : Core :=
  { c with
    walkStatus := e.wher + bit stream * 2 ^ 2 + bit write * 2 ^ 3 + p.part * 2 ^ 4
    walkFree := c.now + 2
    pwkVltCnt := c.pwkVltCnt + bit (!stream)
    pwkStrCnt := c.pwkStrCnt + bit stream
    pwkTokCnt := c.pwkTokCnt + p.ntok }

/-- The fault conditions a PWK of either mode shares, in the order of R165: `busy` and `bad` are the queue's own, `vault` those of the
vault span, range and then alignment. -/
def pwkFaults (c : Core) (sA : BitVec 5) (e : MapEntry) (p : PwkArgs) (busy bad stream write : Bool) (vault : Bool × Bool) :
    List (Bool × CoreFault × Nat) :=
  let f := c.pwkFmt.toNat
  let len := runBytes f e.kvw p.part p.ntok
  [(decide (c.now < c.walkFree) || busy, .unitBusy, 0),
    (!regAligned sA 2 || p.ntok == 0 || decide (4096 < p.ntok) || bad, .badOperand, p.ntok),
    rangeFault p.map 16, alignFault p.map 16,
    (e.wher == 0 || e.wher == 3 || (e.wher == 2 && !stream) || e.resvd || decide (2 ^ e.log2n < p.t0 + p.ntok) ||
      decide (fmtParts f < p.part), .badOperand, e.wher),
    (if write then rangeFault p.dm len else writeRangeFault c p.dm len), (vault.1, .memRange, e.voff),
    alignFault p.dm 4, (vault.2, .memAlign, e.voff)]

/-- R236: PWK in vault mode is one vault request, its first line no earlier than c + 2. -/
def execPwk (i : Issue) (q : BitVec 3) (write : Bool) (sA : BitVec 5) (s : State) : Host.Outcome State Fault Refusal :=
  .next (issueOp i 3 (fun s c =>
    let n := i.core.toNat
    let p := pwkArgs c sA
    let e := mapEntryOf (s.dm n p.map 16)
    let f := c.pwkFmt.toNat
    let ls := plateLines f e.kvw e.log2n p.part p.t0 p.ntok e.voff p.dm
    let last := ls.foldl (fun m l => max m (32 * l.line + 32)) 0
    { reads := (p.map, 16) :: (if write then [(p.dm, runBytes f e.kvw p.part p.ntok)] else [])
      stall := c.queueStall
      faults := unusedField (q != 0#3) :: pwkFaults c sA e p false false false write
          (decide (2 ^ 24 < last) || (write && ls.any (fun l => inLoadArea (s.teamRec n) (32 * l.line) 32)),
            e.voff % 32 != 0) ++
        [(queueFull c, .vaultQueue, 0)]
      eff := s.setCore n
        ((c.queue (if write then .store else .load true) ls (c.now + 2)).walked e p false write) }) s)

/-- R237: PWK in stream mode posts one GET or PUT against the plate's home copy. -/
def execPwkS (i : Issue) (q : BitVec 3) (write : Bool) (sA : BitVec 5) (s : State) : Host.Outcome State Fault Refusal :=
  .next (issueOp i 3 (fun s c =>
    let n := i.core.toNat
    let p := pwkArgs c sA
    let e := mapEntryOf (s.dm n p.map 16)
    let dq := c.dq.get q.toFin
    let d : DmaDesc :=
      { idx := dq.posted, kind := if write then 1 else 0, cls := 1, dmAddr := p.dm
        bytes := runBytes c.pwkFmt.toNat e.kvw p.part p.ntok
        gaddr := e.gaddr, first := 0, blocks := 0
        plate := some ⟨e.kvw, e.log2n, p.part, p.t0, p.ntok⟩, done := false }
    { reads := [(p.map, 16)]
      faults := pwkFaults c sA e p (decide (64 ≤ (dq.descs.filter (fun d => !d.done)).length)) (dq.posted == 2 ^ 32 - 1) true write
        (false, false)
      eff := s.setCore n
        { c.walked e p true write with
          dq := c.dq.set q.toNat { dq with posted := dq.posted + 1, descs := dq.descs ++ [d] } q.isLt } }) s)

/-! ## Descriptors of a DMA queue (R224, R225) -/

/-- A queue of a core. -/
def Core.dqueue (c : Core) (q : Nat) : DmaQueue := (c.dq[q]?).getD {}

/-- Replace a queue. -/
def Core.setQueue (c : Core) (q : Nat) (x : DmaQueue) : Core := { c with dq := c.dq.setIfInBounds q x }

/-- Change one descriptor. -/
def Core.updDesc (c : Core) (q idx : Nat) (f : DmaDesc → DmaDesc) : Core :=
  c.setQueue q { c.dqueue q with descs := (c.dqueue q).descs.map (fun d => if d.idx = idx then f d else d) }

/-- Drop the completed descriptors at the head of a queue: DONE counts them (R224). -/
def DmaQueue.advance : List DmaDesc → Nat → Nat × List DmaDesc
  | [], k => (k, [])
  | d :: ds, k => if d.done then DmaQueue.advance ds (k + 1) else (k, d :: ds)

/-- R224, R225: a descriptor completes; the failure with the lowest posting index is recorded. -/
def Core.endDesc (c : Core) (q idx : Nat) (st : Status) : Core :=
  let x := c.dqueue q
  let err := if st = .ok then x.err
    else
      match x.err with
      | some (k, old) => if idx < old then some (statusCode st, idx) else some (k, old)
      | none => some (statusCode st, idx)
  let r := DmaQueue.advance (x.descs.map (fun d => if d.idx = idx then { d with done := true } else d)) x.done
  c.setQueue q { x with err := err, done := r.1, descs := r.2 }

/-! ## A line is served (R140, R218, R263, R264, R272, R314) -/

/-- The first cycle at or after `t` outside the refresh window (R140). -/
def portCycle (t : Nat) : Nat := if t % 2048 < 64 then t - t % 2048 + 64 else t

/-- The eight words of an overlay line that cannot be read (Table VLT-3). -/
def badOverlay : List Byte := (List.range 8).flatMap (fun _ => leBytes 4 0xFC000000)

/-- The background port's first write of a line in cycle `t` or a later one, if it made one (R263). -/
def State.bgWroteAt (s : State) (n line t : Nat) : Option BgWrite :=
  (s.site (s.siteOf n)).bgWrote.find? (fun w => w.line == line && decide (t ≤ w.cycle))

/-- What a core port finds of a line in cycle `t`, with `err` failed in it: a core-port access of a cycle comes before the background port's
(Table VLT-2). -/
def State.lineBefore (s : State) (n line t : Nat) (err : LineErr) : LineCopy :=
  ((s.bgWroteAt n line t).elim (s.lineCopy n line) BgWrite.old).strike err

/-- A core port reads a line in cycle `t`: the counters and log, whether the line fails, and its bytes. -/
def State.coreRead (s : State) (n line t : Nat) (err : LineErr) (path : VPath) : State × Bool × List Byte :=
  let x := s.lineBefore n line t err
  let s1 := if (s.bgWroteAt n line t).isSome then s else s.strike n line err
  (s1.copyRead n line x path, x.bad, x.read.2)

/-- A background write that meets a core write of the same cycle is dropped: VLT_BG_LOST_CNT counts, and the transfer it belongs to fails
with E_MEDIA (Table VLT-2), a descriptor also where it has ended; a dropped write-back of the scrubber is not counted (R274). -/
def State.loseBg (s : State) (w : BgWrite) : State :=
  if w.owner = .scrub then s
  else
    let s1 := s.bump Reg.vltBgLostCnt 1
    let s2 := { s1 with
      bgDone := s1.bgDone.map (fun (r : BgResult) => if r.owner == w.owner && r.off == w.off then { r with st := .eMedia } else r) }
    match w.owner with
    | .dma m q idx =>
      s2.updCore m (fun c => if (c.dqueue q).descs.any (fun d => d.idx == idx && !d.done) then c else c.endDesc q idx .eMedia)
    | _ => s2

/-- A background write of a later cycle goes onto a line that the core port has written; the scrubber's write-back is dropped (R274). -/
def State.bgAgain (s : State) (n : Nat) (w : BgWrite) : State :=
  if w.owner = .scrub then s
  else
    let s1 := s.writeLine n w.line w.mask w.bytes
    s1.updSite (s.siteOf n) (fun x => { x with bgWrote := x.bgWrote ++ [{ w with old := s.lineCopy n w.line }] })

/-- A core port writes a line in cycle `t`. A merge reads the line first (R264, R271). -/
def State.coreStore (s : State) (n line mask : Nat) (bytes : List Byte) (t : Nat) (err : LineErr) : State :=
  let x := s.lineBefore n line t err
  let mine := fun (w : BgWrite) => w.line == line && decide (t ≤ w.cycle)
  let notes := (s.site (s.siteOf n)).bgWrote.filter mine
  let s1 := (s.setLine n line x).updSite (s.siteOf n) (fun x => { x with bgWrote := x.bgWrote.filter (fun w => !mine w) })
  let s2 := (notes.filter (fun w => w.cycle == t)).foldl State.loseBg s1
  let s3 := if wholeMask mask then s2 else s2.copyRead n line x .core
  let s4 := (s3.writeLine n line mask bytes).updCore n (fun c => { c with coreWrite := some ⟨line, t, x⟩ })
  (notes.filter (fun w => decide (t < w.cycle))).foldl (fun s w => s.bgAgain n w) s4

/-- The core port has come to cycle `t`: it meets no background write of an earlier one. -/
def State.passNotes (s : State) (n t : Nat) : State :=
  if (s.site (s.siteOf n)).bgWrote.isEmpty then s
  else s.updSite (s.siteOf n) (fun x => { x with bgWrote := x.bgWrote.filter (fun w => decide (t ≤ w.cycle)) })

/-- Serve line `l` of a request in cycle `t`; `ord` places the request in the issue order (R139), `err` is what has failed in the stored
line (log entry 137). -/
def serveLine (n ord : Nat) (k : VKind) (l : VLine) (err : LineErr) (t : Nat) (s : State) : State :=
  match k with
  | .store =>
    let s1 := settle n t s
    let mask := (l.spans.map (fun sp => (2 ^ sp.2.2 - 1) * 2 ^ sp.1)).sum
    let put1 := fun (acc : List Byte) (sp : Nat × Nat × Nat) =>
      acc.take sp.1 ++ s1.dm n sp.2.1 sp.2.2 ++ acc.drop (sp.1 + sp.2.2)
    s1.coreStore n l.line mask (l.spans.foldl put1 (zeroBytes 32)) t err
  | .load walker =>
    let r := s.coreRead n l.line t err (if walker then .walker else .core)
    let bad := r.2.1
    let c := r.1.core n
    let s2 := if bad then { r.1 with freeCount := r.1.freeCount + 32 } else r.1
    let got := fun (sp : Nat × Nat × Nat) =>
      ((if bad then freeBytes r.1.freeCount 32 else r.2.2).drop sp.1).take sp.2.2
    s2.setCore n
      { l.spans.foldl (fun c sp => c.schedAs ord (t + 3) (.dmem true sp.2.1 (got sp))) c with
        ueLines := c.ueLines ++ (if bad then [l.line] else []) }
  | .overlay =>
    let r := s.coreRead n l.line t err .overlay
    let bad := r.2.1
    let c := r.1.core n
    r.1.setCore n
      { l.spans.foldl (fun c sp =>
          c.schedAs ord (t + 3) (.imem sp.2.1 (if bad then badOverlay else (r.2.2.drop sp.1).take sp.2.2))) c with
        ueLines := c.ueLines ++ (if bad then [l.line] else []) }
  | .tile tag =>
    let r := s.coreRead n l.line t err .tile
    let bad := r.2.1
    let c0 := r.1.core n
    let peek := fun (o : Nat) => s.vault n o 12
    let c := feedTile peek tag l.line t (l.spans.any (fun sp => sp.2.1 == 1)) r.2.2 bad
      { c0 with ueLines := c0.ueLines ++ (if bad then [l.line] else []) }
    r.1.setCore n (if c.tileOpen tag then c else feedSharer peek tag l.line t r.2.2 bad c)

/-- R140: the port serves the next line of the first request, one line per cycle, none in the refresh window. -/
def execVaultLineServed (core : BitVec 12) (err : LineErr) (s : State) : Host.Outcome State Fault Refusal :=
  let n := core.toNat
  let c := s.core n
  match c.vq with
  | [] => .next s
  | r :: rest =>
    match r.lines with
    | [] => .next (s.setCore n { c with vq := rest })
    | l :: ls =>
      let t := portCycle (max c.portNext r.earliest)
      let keep := match r.kind with
        | .tile _ => true
        | _ => !ls.isEmpty
      let c1 := { c with
        vq := if keep then { r with lines := ls } :: rest else rest
        portNext := t + 1, vltLineCnt := c.vltLineCnt + 1 }
      let s1 := serveLine n r.ord r.kind l err t ((s.setCore n c1).passNotes n t)
      .next (if 8 ≤ c.vq.length && decide ((s1.core n).vq.length < 8) then s1.updCore n (fun c => { c with vqFreed := t + 1 }) else s1)

end Sys2Proof.Machine
end

