-- ==== Sys2Proof/Machine/CoreRegs.lean ====
section
/-! DEFINITION. The registers of a CORE window as views of the core, the flags a turn commits, and the capture image (R64, R84, R108,
R130, R161, R239, R503, Tables FMT-8 to FMT-9, PLN-7 to PLN-9, ACC-7 to ACC-11, ERR-4, ISA-8 to ISA-13, ISA-28 to ISA-30, ATT-6,
ATT-7, VLT-12, DET-10). -/

namespace Sys2Proof.Machine

/-! ## Flags and counters that commit with the turn (R64, R108) -/

/-- FMT_STICKY bits of a set of events (Table FMT-9). -/
def FmtEvents.flags (e : FmtEvents) : BitVec 4 :=
  BitVec.ofNat 4 (bit (decide (0 < e.ufl)) + 2 * bit (decide (0 < e.sat)) + 4 * bit (decide (0 < e.ovf)) +
    8 * bit (decide (0 < e.poison) || e.poisonRead))

/-- The pending changes commit. -/
def Core.commitFlags (c : Core) : Core :=
  { c with fmt := c.fmt.add c.fmtPend, fmtSticky := c.fmtSticky ||| c.fmtPend.flags, fmtPend := {}
           accCnt := c.accCnt.add c.accPend, accPend := {} }

/-- The pending changes are dropped. -/
def Core.dropFlags (c : Core) : Core := { c with fmtPend := {}, accPend := {} }

/-! ## Views -/

/-- Is an overlay load in progress: lines queued, or not yet written (R152)? -/
def Core.ovldBusy (c : Core) : Bool :=
  c.vq.any (fun r => r.kind == .overlay) || c.timeline.any (fun x => decide (c.now < x.cycle) && (match x.act with
    | .imem _ _ => true
    | _ => false))

/-- CORE_STATUS (Table ISA-9). -/
def Core.statusReg (c : Core) : Nat :=
  execCode c.exec + bit c.sect.loose * 8 + c.pc / 512 % 2 * 16 +
    bit c.ovldBusy * 32 + c.vq.length % 16 * 64 + c.pc % 1024 * 2 ^ 10

/-- CORE_SECT (Table ISA-10). -/
def Core.sectReg (c : Core) : Nat :=
  c.sect.id % 2 ^ 16 + c.sect.startFrame % 1024 * 2 ^ 16 + bit c.sect.late * 2 ^ 26 + bit c.sect.stalled * 2 ^ 27 +
    bit c.sect.barrier * 2 ^ 28

/-- PLN_MODE and PLN_STATUS (Tables PLN-8, PLN-9). -/
def Core.modeReg (c : Core) : Nat := c.mode.w - 1 + c.mode.k * 16 + c.mode.xb * 256
def Core.planeReg (c : Core) : Nat :=
  bit c.backReady + 2 * bit (c.front.any Tile.poison) + 4 * bit (c.back.any Tile.poison) + c.outstandingAt c.now % 4 * 8 +
    c.ctab.length % 128 * 2 ^ 8 + c.xtab.length % 128 * 2 ^ 16

/-- Group registers (Tables ACC-9 to ACC-11). Only an OPEN group owns rows (Table ACC-1). -/
def Group.cfgReg (g : Group) : Nat :=
  g.rowBase % 64 + g.rowCount % 128 * 2 ^ 6 + (g.w - 1) % 8 * 2 ^ 13 + g.k % 8 * 2 ^ 16 + bit g.stipple * 2 ^ 19 +
    g.guard % 16 * 2 ^ 20 + (g.n - 1) % 256 * 2 ^ 24
def Group.auxReg (g : Group) : Nat := g.roll % 2 ^ 16 + g.recAddr / 16 % 2 ^ 12 * 2 ^ 16
def Core.groupReg (c : Core) (g : Group) : Nat :=
  wrap g.lexp 9 + bit g.empty * 2 ^ 9 + groupStCode g.st * 2 ^ 10 + g.nb % 512 * 2 ^ 12 + bit g.recHeld * 2 ^ 21 +
    bit (g.st == .opened && (List.range g.rowCount).any (fun r => (look {} c.acc (g.rowBase + r)).poison)) * 2 ^ 22

/-- A word of a group's block of 32 bytes. -/
def Core.groupWord (c : Core) (g off : Nat) : Nat :=
  let x := (c.groups[g]?).getD {}
  match off with
  | 0x0 => x.cfgReg
  | 0x4 => x.auxReg
  | 0x8 => c.groupReg x
  | 0xC => x.rseq
  | 0x10 => x.mask
  | _ => 0

/-- A word of a queue's block of 16 bytes (Tables ISA-28, ISA-29). -/
def DmaQueue.word (q : DmaQueue) (off : Nat) : Nat :=
  match off with
  | 0x0 => q.posted
  | 0x4 => q.done
  | 0x8 => (q.err.map (fun e => e.1 + e.2 % 2 ^ 16 * 2 ^ 16)).getD 0
  | _ => 0

/-- Queues that recorded a failure (Table ISA-30). -/
def Core.dqErrMask (c : Core) : Nat :=
  ((List.range 8).map (fun q => bit ((c.dq[q]?).getD {}).err.isSome * 2 ^ q)).sum

/-- MOV_STATUS (Table ISA-30). -/
def Core.movReg (c : Core) : Nat :=
  c.loops.length % 4 + bit c.meshErr * 4 + bit c.syncDrop * 8 + c.dqErrMask * 16

/-- The loaded entries of the sequence-seed table. -/
def Core.seedMap (c : Core) : Nat := ((List.range 64).map (fun j => bit (listed c.seeds j) * 2 ^ j)).sum

/-- The fault record's registers (Tables ISA-12, ISA-13). -/
def FaultRec.infoReg (f : FaultRec) : Nat := f.code + f.cls * 2 ^ 8 + f.slot * 2 ^ 10 + bit f.atIssue * 2 ^ 12
def FaultRec.pcReg (f : FaultRec) : Nat := f.bundle % 1024 + f.ovl % 2 ^ 16 * 2 ^ 16

/-- The turn cycle that has come: that of a core's last bundle, or that of the last frame boundary where that is later. -/
def State.elapsed (s : State) (n : Nat) : Nat :=
  let c := s.core n
  if c.inTurn then max c.turnCyc ((s.fref - (s.teamRec n).startFrame) * 2048) else c.turnCyc

/-- CORE_TURN_CYC: the turn cycle that has come; it holds at END (Table ISA-8). -/
def State.liveCycle (s : State) (n : Nat) : Nat :=
  if (s.core n).exec = .atEnd then (s.core n).turnCyc else s.elapsed n

/-- Beats of a core's mesh instructions that cycle `t` has not yet seen on their first link: those that wait to leave, and those of its
reductions whose partial is still to come (R229, R231, R232). -/
def State.beatsToLeave (s : State) (n t : Nat) : Nat :=
  (s.mesh.links.filter (fun u => u.node == n && u.input == inputLocal && u.hop == 0 && decide (t ≤ u.cycle))).length +
  ((s.mesh.reds.filter (fun r => r.core == n)).map (fun r =>
    let p := (if r.vertical then teamY (s.teamRec n) n else teamX (s.teamRec n) n) - r.lo
    if r.lo + p = r.hi then 0
    else ((List.range r.beats).filter (fun j => !r.got.contains j && decide (t ≤ r.issued + 3 + j + 4 * p))).length)).sum

/-- A core as its live registers show it (R84, R161, R239): its turn cycle, the tile loads outstanding, and the mesh beats and errors
that have come by then. A core at its END keeps CORE_TURN_CYC alone. -/
def State.liveCore (s : State) (n : Nat) : Core :=
  let t := s.elapsed n
  let s1 := passLinks (s.teamCores n) t s
  let c := s1.core n
  let missed := s1.missedBy n t
  { c with
    turnCyc := s.liveCycle n, now := max c.now t, meshErr := c.meshErr || decide (0 < missed), meshErrCnt := c.meshErrCnt + missed
    meshBeatCnt := c.meshBeatCnt - s1.beatsToLeave n t }

/-- The value of the register at an offset of a CORE window. -/
def Core.reg (c : Core) (off : Nat) : Nat :=
  match off with
  | 0x000 => c.statusReg
  | 0x004 => c.sectReg
  | 0x008 => c.stall
  | 0x010 => c.lateCnt
  | 0x018 => c.turnCyc
  | 0x01C => c.ovlA % 2 ^ 16 + c.ovlB % 2 ^ 16 * 2 ^ 16
  | 0x020 => c.fault.infoReg
  | 0x024 => c.fault.pcReg
  | 0x028 => c.fault.turn
  | 0x030 => c.fault.cyc
  | 0x034 => c.fault.opd
  | 0x038 => c.faultCnt
  | 0x0C0 => c.fmtSticky.toNat
  | 0x0C8 => c.fmt.sat
  | 0x0D0 => c.fmt.ufl
  | 0x0D8 => c.fmt.ovf
  | 0x0E0 => c.fmt.poison
  | 0x100 => c.modeReg
  | 0x104 => c.planeReg
  | 0x108 => c.plnVecCnt
  | 0x110 => c.plnBusyCnt
  | 0x118 => c.plnXcpCnt
  | 0x140 => bit c.accCnt.satFlag + 2 * bit c.accCnt.clampFlag
  | 0x148 => c.accCnt.sat
  | 0x150 => c.accCnt.shift
  | 0x280 => 1 + bit c.seedLoaded * 16 + c.seeds.length % 128 * 32
  | 0x288 => c.turn
  | 0x290 => c.drawCnt
  | 0x298 => c.seedMap
  | 0x380 => c.movReg
  | 0x388 => c.meshErrCnt
  | 0x390 => c.vltLineCnt
  | 0x398 => c.meshBeatCnt
  | 0x3C0 => c.vltCe
  | 0x3C8 => c.vltUe
  | 0x3D0 => c.walkStatus
  | 0x3D8 => c.pwkVltCnt
  | 0x3E0 => c.pwkStrCnt
  | 0x3E8 => c.pwkTokCnt
  | 0x3F0 => c.pwkFmt.toNat
  | _ =>
    if 0x160 ≤ off ∧ off < 0x260 then c.groupWord ((off - 0x160) / 0x20) ((off - 0x160) % 0x20)
    else if 0x300 ≤ off ∧ off < 0x380 then ((c.dq[(off - 0x300) / 0x10]?).getD {}).word (off % 0x10)
    else 0

/-! ## The capture image (Table DET-10) -/

/-- One tile buffer's mask, 64 rows of 4 bytes. -/
def tileBytes (t : Option Tile) (neg : Bool) : List Byte :=
  match t with
  | none => zeroBytes 256
  | some t => leBytes 256 (if neg then t.neg else t.pos).toNat

/-- A block of bytes padded with zeros. -/
def padTo (n : Nat) (bs : List Byte) : List Byte := (bs ++ zeroBytes (n - bs.length)).take n

/-- The capture image of a core. -/
def State.captureImage (s : State) (n : Nat) : List Byte :=
  let c := s.liveCore n
  let rows := (List.range 64).map (fun r => look ({} : AccRow) c.acc r)
  s.dm n 0 65536 ++ rows.flatMap (fun r => r.cols.flatMap (fun x => leBytes 4 (wrap x 32))) ++ s.mem.read (imAddr n 0) 16384 ++
    c.s.toList.flatMap (fun x => leBytes 4 x.toNat) ++ c.v.toList.flatMap (fun v => v.toList.flatMap (fun x => leBytes 4 x.toNat)) ++
    c.a.toList.flatMap (fun x => leBytes 8 x.toNat) ++
    padTo 64 (padTo 8 (c.lc.toList.flatMap (fun x => leBytes 2 x.toNat)) ++ leBytes 4 c.modeReg ++ leBytes 4 c.planeReg ++
      leBytes 4 c.sectReg ++ leBytes 4 c.turnCyc) ++
    (List.range 8).flatMap (fun g => [0x0, 0x4, 0x8, 0xC].flatMap (fun o => leBytes 4 (c.groupWord g o)) ++
      leBytes 8 (c.groupWord g 0x10) ++ zeroBytes 8) ++
    rows.flatMap (fun r => leBytes 2 (bit r.poison + r.owed % 2 ^ 15 * 2)) ++
    tileBytes c.front false ++ tileBytes c.front true ++ tileBytes c.back false ++ tileBytes c.back true ++
    padTo 256 (leBytes 2 c.ctab.length ++ c.ctab.flatMap (leBytes 2)) ++
    padTo 576 (leBytes 8 c.xtab.length ++ c.xtab.flatMap ovfBytes)

end Sys2Proof.Machine
end

