-- ==== Sys2Proof/Machine/Background.lean ====
section
/-! DEFINITION. The background port of a vault: its slots, its queue, what becomes of a line, the copy of a row into a spare row, and
whole transfers through it (R13, R14, R256, R262 to R266, R269, R272, R274 to R278). -/

namespace Sys2Proof.Machine

/-! ## Spares (R275 to R278) -/

/-- Spares of a bank that a list of entries takes. -/
def sparesIn (bank : Nat) (es : List (Nat × Nat × Nat)) : List Nat := (es.filter (fun e => e.1 == bank)).map (fun e => e.2.2)

/-- Spare rows and columns of a bank that an entry takes: factory, hard, in force since POR#, or soft. -/
def State.rowsTaken (s : State) (site bank : Nat) : List Nat :=
  let x := s.site site
  sparesIn bank (factoryRows site ++ x.softRows ++ x.liveRows ++ x.hardRows)
def State.colsTaken (s : State) (site bank : Nat) : List Nat :=
  let x := s.site site
  sparesIn bank (factoryCols site ++ x.softCols ++ x.liveCols ++ x.hardCols)

/-- Free spares of a bank of a site, lowest first: 64 spare rows, 8 spare columns in all. -/
def State.freeRows (s : State) (site bank : Nat) : List Nat := (List.range 64).filter (fun k => !(s.rowsTaken site bank).contains k)
def State.freeCols (s : State) (site bank : Nat) : List Nat := (List.range 8).filter (fun k => !(s.colsTaken site bank).contains k)
def State.freeSpares (s : State) (site bank : Nat) (col : Bool) : List Nat := if col then s.freeCols site bank else s.freeRows site bank

/-- VLT_SITE_SPARE of a site (Table VLT-8). -/
def State.siteSpares (s : State) (site : Nat) : Nat :=
  ((List.range 4).map (fun b => (s.freeRows site b).length * 2 ^ (7 * b))).sum +
    ((List.range 4).map (fun b => (s.freeCols site b).length)).foldl min 8 * 2 ^ 28

/-- An entry for a bank's row or column replaces the one it had. -/
def enterRepair (es : List (Nat × Nat × Nat)) (bank i spare : Nat) : List (Nat × Nat × Nat) :=
  es.filter (fun e => !(e.1 == bank && e.2.1 == i)) ++ [(bank, i, spare)]

/-- May a soft entry be made: a free spare, and room in the table of 16 row and 4 column entries (R279)? -/
def State.canSoft (s : State) (site bank i : Nat) (col : Bool) : Bool :=
  let x := s.site site
  let es := if col then x.softCols else x.softRows
  let cap := if col then 4 else 16
  !(s.freeSpares site bank col).isEmpty && (es.any (fun e => e.1 == bank && e.2.1 == i) || decide (es.length < cap))

/-- A soft entry in a site's table. -/
def Site.soften (x : Site) (bank i spare : Nat) (col : Bool) : Site :=
  if col then { x with softCols := enterRepair x.softCols bank i spare }
  else { x with softRows := enterRepair x.softRows bank i spare
                weak := x.weak.filter (fun r => r != bank * 8192 + i)
                ceRows := x.ceRows.filter (fun e => e.1 != bank * 8192 + i) }

/-- R276 to R278: make a soft entry with the lowest free spare (log entry 11). The matching hard entry waits for the Umpire. -/
def State.softRepair (s : State) (site bank i : Nat) (col : Bool) : State :=
  let spare := (s.freeSpares site bank col).headD 0
  let s1 := s.updSite site (fun x => x.soften bank i spare col)
  { s1 with mgt := { s1.mgt with hardQueue := s1.mgt.hardQueue ++ [(site, bank + 4 * bit col, i, spare)] } }

/-- First line of a data row, and its 16 lines (R260). -/
def rowLine (bank row : Nat) : Nat := row * 64 + bank
def rowLines (row : Nat) : List Nat := (List.range 16).map (fun k => rowLine (row / 8192) (row % 8192) + 4 * k)

/-! ## Slots (R262, R266, R269) -/

/-- The first cycle at or after `t` in which a vault's background port may serve: an even cycle past the refresh window, one line each; of
a vault whose cluster is OFF, 16 cycles after the line before (log entry 139). -/
def State.bgSlot (s : State) (v t : Nat) : Nat :=
  let site := s.siteOf v
  let u := max t (s.site site).bgFree
  if (s.cluster (siteCluster site)).dom = .off then u else portCycle (u + u % 2)

/-- The cycle from which a transfer that no command serves line by line takes its slots: its core's. -/
def State.bgNow (s : State) (v : Nat) : Nat := if v < 4096 then (s.core v).now else 0

/-! ## One line (R263, R264, R271, R272, R274, R277) -/

/-- The core port's write of the same line in the same cycle, if it made one. -/
def State.lineTaken (s : State) (v line cyc : Nat) : Option CoreWrite :=
  if v < 4096 then (s.core v).coreWrite.filter (fun w => w.line == line && w.cycle == cyc) else none

/-- What came of a request reaches its owner: a host read leaves for the host, poisoned where the line is bad; a descriptor and a command
find it noted. -/
def State.bgAnswer (s : State) (r : BgReq) (st : Status) (line : List Byte) : State :=
  let bytes := (line.drop r.first).take r.len
  match r.owner, r.act with
  | .host fn, .read => s.emit (.read fn .ok bytes (st == .eMedia))
  | .host _, _ => s
  | .rowCopy, _ => s
  | .scrub, _ => s
  | o, _ => { s with bgDone := s.bgDone ++ [⟨o, r.off, st, bytes⟩] }

/-- R277: after the last line of a row: the soft entry is made, and a REPAIR entry logged. -/
def State.endCopy (s : State) (v : Nat) : State :=
  let site := s.siteOf v
  match (s.site site).copying with
  | none => s
  | some row =>
    if (look [] s.bgq v).any (fun r => r.act == .copy) then s
    else
      let s1 := (s.updSite site (fun x => { x with copying := none })).softRepair site (row / 8192) (row % 8192) false
      s1.logSite site (vaultLid v) (rowLine (row / 8192) (row % 8192)) 0x3F 3 VPath.background.code

/-- A line copied into a spare row is written corrected, or with its poison flag set (R277). -/
def State.copyLine (s : State) (v line : Nat) : State :=
  let bad := s.lineBad v line
  let s1 := (s.lineRead v line .background).writeLine v line (2 ^ 32 - 1) (s.vread v line).2
  if bad then s1.poison v line else s1

/-- What the background port finds of a line in cycle `cyc`, with `err` failed in it: the line as it was before a core write of the same
cycle; and the state in which it has failed. -/
def State.lineFound (s : State) (v line cyc : Nat) (err : LineErr) : State × LineCopy :=
  match s.lineTaken v line cyc with
  | some w => (s, w.old.strike err)
  | none => (s.strike v line err, (s.lineCopy v line).strike err)

/-- The core port's later accesses may meet a background write: note it while the core runs a turn (R263). A command's own transfer has
answered by then: DESIGN CHOICE, log entry 169. -/
def State.noteWrite (s : State) (v : Nat) (w : BgWrite) : State :=
  if v < 4096 && (s.teamRec v).running then s.updSite (s.siteOf v) (fun x => { x with bgWrote := x.bgWrote ++ [w] }) else s

/-- The background port writes a line. -/
def State.bgStore (s : State) (v cyc : Nat) (r : BgReq) (bytes : List Byte) (mask : Nat) : State :=
  (s.writeLine v r.line mask bytes).noteWrite v
    { line := r.line, cycle := cyc, old := s.lineCopy v r.line, bytes := bytes, mask := mask, owner := r.owner, off := r.off }

/-- Serve one request in cycle `cyc` (Tables VLT-2, VLT-3): a read returns the line as it was before a core write of the same cycle, a
write that meets one is dropped. `err` is what has failed in the stored line. -/
def State.bgServe (s0 : State) (v cyc : Nat) (r : BgReq) (err : LineErr) : State :=
  let site := s0.siteOf v
  let off := (s0.cluster (siteCluster site)).dom == .off
  let f := (s0.updSite site (fun x => { x with bgFree := cyc + (if off then 16 else 1) })).lineFound v r.line cyc err
  let s := f.1
  let taken := (s0.lineTaken v r.line cyc).isSome
  match r.act with
  | .read => (s.copyRead v r.line f.2 .background).bgAnswer r (if f.2.bad then .eMedia else .ok) f.2.read.2
  | .write bytes mask =>
    if taken then (s.bump Reg.vltBgLostCnt 1).bgAnswer r .eMedia []
    else ((if wholeMask mask then s else s.lineRead v r.line .background).bgStore v cyc r bytes mask).bgAnswer r .ok []
  | .copy => (s.copyLine v r.line).endCopy v
  | .back bytes => if taken then s else s.bgStore v cyc r bytes (2 ^ 32 - 1)

/-- Take the first request of a vault and serve it in cycle `cyc`. -/
def State.bgFront (s : State) (v cyc : Nat) (err : LineErr) : State :=
  match look [] s.bgq v with
  | [] => s
  | r :: rest => ({ s with bgq := if rest.isEmpty then del s.bgq v else put s.bgq v rest }).bgServe v cyc r err

/-- Serve the next `k` requests of a vault, each in the next slot. -/
def bgServeN (v : Nat) : Nat → State → State
  | 0, s => s
  | k + 1, s => bgServeN v k (s.bgFront v (s.bgSlot v (s.bgNow v)) {})

/-- Serve every request that waits at a vault, in arrival order (R262). -/
def State.bgDrain (s : State) (v : Nat) : State := bgServeN v (look [] s.bgq v).length s

/-- R262: the background port of a vault serves its first line request in cycle `cyc`, where it may serve in that cycle; none in the rest
state (R269). -/
def execBackgroundLineServe (vault : BitVec 14) (cyc : Nat) (err : LineErr) (s : State) : Host.Outcome State Fault Refusal :=
  let v := vault.toNat
  .next (if s.resting || s.bgSlot v cyc ≠ cyc then s else s.bgFront v cyc err)

/-! ## Transfers -/

/-- The lines of a vault access: core, line, first byte in the line, bytes of it, offset of those in the access. -/
def vaultLines (a len : Nat) : List (Nat × Nat × Nat × Nat × Nat) :=
  (List.range (ceilDiv (a % 32 + len) 32)).map (fun k =>
    let lo := a - a % 32 + 32 * k
    let first := max a lo
    let last := min (a + len) (lo + 32)
    (lo / 2 ^ 24, lo % 2 ^ 24 / 32, first - lo, last - first, first - a))

/-- The requests of a transfer of `len` bytes at a vault address: a read, or a write of `data`. -/
def bgReqs (owner : BgOwner) (a len off : Nat) (data : Option (List Byte)) : List (Nat × BgReq) :=
  (vaultLines a len).map (fun l =>
    (l.1,
      { line := l.2.1, owner := owner, first := l.2.2.1, len := l.2.2.2.1, off := off + l.2.2.2.2
        act := match data with
          | none => .read
          | some d => .write (zeroBytes l.2.2.1 ++ (d.drop l.2.2.2.2).take l.2.2.2.1 ++ zeroBytes (32 - l.2.2.1 - l.2.2.2.1))
              ((2 ^ l.2.2.2.1 - 1) * 2 ^ l.2.2.1) }))

/-- Queue requests. -/
def State.bgAsk (s : State) (rs : List (Nat × BgReq)) : State :=
  rs.foldl (fun s r => { s with bgq := upd [] s.bgq r.1 (fun q => q ++ [r.2]) }) s

/-- What has come of an owner's requests, and the state without it. -/
def State.bgOf (s : State) (o : BgOwner) : List BgResult := s.bgDone.filter (fun r => r.owner == o)
def State.bgDrop (s : State) (o : BgOwner) : State := { s with bgDone := s.bgDone.filter (fun r => r.owner != o) }

/-- Does an owner's request still wait? -/
def State.bgWaits (s : State) (o : BgOwner) : Bool := s.bgq.any (fun q => q.2.any (fun r => r.owner == o))

/-- The lines that wait for an owner are served from cycle `cyc` on, and their reads find `found` failed in what is stored. -/
def State.bgFrom (s : State) (o : BgOwner) (cyc : Nat) (found : List (Nat × Nat × LineErr)) : State :=
  if !s.bgWaits o then s
  else
    let mine := fun (q : List BgReq) => q.any (fun r => r.owner == o)
    let meets := fun (x : Nat × Nat × LineErr) => (look [] s.bgq x.1).any (fun r => r.owner == o && r.line == x.2.1)
    let s1 := (found.filter meets).foldl (fun s x => s.strike x.1 x.2.1 x.2.2) s
    (s1.bgq.filter (fun q => mine q.2)).foldl (fun s q => s.updSite (s.siteOf q.1) (fun x => { x with bgFree := max x.bgFree cyc })) s1

/-- Serve every vault at which an owner's requests wait. -/
def State.bgFinish (s : State) (o : BgOwner) : State :=
  (s.bgq.filter (fun q => q.2.any (fun r => r.owner == o))).foldl (fun s q => s.bgDrain q.1) s

/-- The status of results in the order of their offsets: the earliest failure (R435). -/
def worstOf (rs : List BgResult) : Status :=
  match rs.filter (fun r => r.st != .ok) with
  | [] => .ok
  | r :: t => (t.foldl (fun (m : BgResult) x => if x.off < m.off then x else m) r).st

/-- A command's transfer: its lines queue behind those that wait, and are served. -/
def State.bgRun (s : State) (rs : List (Nat × BgReq)) : State × List BgResult :=
  let s1 := (s.bgAsk rs).bgFinish .command
  (s1.bgDrop .command, s1.bgOf .command)

/-- A command reads bytes of the vaults. -/
def State.bgRead (s : State) (a len : Nat) : State × Status × List Byte :=
  let x := s.bgRun (bgReqs .command a len 0 none)
  (x.1, worstOf x.2, x.2.flatMap BgResult.bytes)

/-- A command writes bytes of the vaults. -/
def State.bgWrite (s : State) (a : Nat) (bs : List Byte) : State × Status :=
  let x := s.bgRun (bgReqs .command a bs.length 0 (some bs))
  (x.1, worstOf x.2)

end Sys2Proof.Machine
end

