-- ==== Sys2Proof/Machine/PlateLoss.lean ====
section
/-! DEFINITION. Plate chains as edited state: publishing, releasing slots, and losing a plate (R364, R370, R378, R416). -/

namespace Sys2Proof.Machine

/-- A chain; `none` where the sequence has none. -/
def State.chain? (s : State) (seq : Nat) : Option Chain := find? s.plt.chains seq

/-- Replace a chain. -/
def State.setChain (s : State) (seq : Nat) (c : Chain) : State :=
  { s with plt := { s.plt with chains := put s.plt.chains seq c } }

/-- A plate of a version. -/
def plateOf (ps : List Plate) (key : Nat) : Option Plate := ps.find? (fun p => p.key == key)

/-- Insert or replace a plate, keys ascending. -/
def insertPlate (p : Plate) : List Plate → List Plate
  | [] => [p]
  | q :: t => if p.key < q.key then p :: q :: t else if p.key = q.key then p :: t else q :: insertPlate p t

/-- The turns a team runs and has prepared. -/
def State.turnPlates (s : State) (t : Nat) : TurnPlates := look {} s.plt.turns t

/-- The team whose running turn holds a sequence. -/
def State.runningIn (s : State) (seq : Nat) : Option Nat :=
  (s.plt.turns.find? (fun p => p.2.running.contains seq)).map Prod.fst

/-- Is the sequence in the running or prepared turn of any team (R364)? -/
def State.inTurn (s : State) (seq : Nat) : Bool :=
  s.plt.turns.any (fun p => p.2.running.contains seq || p.2.prepared.any (fun q => q.1 == seq))

/-- The teams in whose running or prepared turn a sequence is. -/
def State.turnsOf (s : State) (seq : Nat) : List Nat :=
  (s.plt.turns.filter (fun p => p.2.running.contains seq || p.2.prepared.any (fun q => q.1 == seq))).map Prod.fst

/-! ## Nodes (R362 to R364) -/

/-- The 128 bits of an entry (Table PLT-4), given where nodes lie. -/
def Plate.word (p : Plate) : Nat :=
  2 + p.tier % 4 * 2 ^ 2 + (p.kvw - 1) % 8 * 2 ^ 4 + bit p.lost * 2 ^ 7 + bit p.tent * 2 ^ 8 + bit p.wbPend * 2 ^ 9 +
    bit p.staged * 2 ^ 10 + bit p.moving * 2 ^ 11 + p.hpool % 2 ^ 6 * 2 ^ 12 +
    (if p.tier = 0 then p.hpool else p.spool) % 2 ^ 6 * 2 ^ 18 + p.srank % 2 ^ 12 * 2 ^ 24 + p.sslot % 2 ^ 20 * 2 ^ 36 +
    p.hslot % 2 ^ 20 * 2 ^ 64
def State.entryWord (s : State) : ChainEntry → Nat
  | .node k => ((find? s.plt.nodes k).map (fun x => 1 + bit x.slot.isSome * 2 ^ 2 + x.addr % 2 ^ 64 * 2 ^ 64)).getD 0
  | .plate p => p.word
  | .bad => 3

/-- The 64 words of a node. -/
def State.nodeWords (s : State) (x : ChainNode) : List Nat :=
  (List.range 64).map (fun i => ((find? x.entries i).map s.entryWord).getD 0)

/-- Key bits above the index of level `d`, and that index (R362). -/
def keyPrefix (depth d key : Nat) : Nat := key / 2 ^ (6 * (depth - d))
def keyIndex (depth d key : Nat) : Nat := key / 2 ^ (6 * (depth - d - 1)) % 64

/-- The node of a version at a level. -/
def treeNode (t : ChainTree) (d pre : Nat) : Option Nat := (t.find? (fun x => x.1 == d && x.2.1 == pre)).map (fun x => x.2.2)

/-- Slots of the node pools in GDDR: pools of tier 3 with slots of a node's 1 KiB. -/
def State.nodeSlots (s : State) : List (Nat × Nat) :=
  ((List.range 64).filter (fun p => s.fld (Reg.pltPoolCfg p) 0 1 == 1 && s.fld (Reg.pltPoolCfg p) 1 2 == 3 &&
    decide (32 ≤ s.fld (Reg.pltPoolCfg p) 4 20))).flatMap (fun p => (List.range (s.reg (Reg.pltPoolCount p))).map (fun k => (p, k)))

/-- Where a new node lies: the lowest free place of control-plane SRAM, else the lowest free slot of a node pool in GDDR (log entry 8). -/
def State.placeNode (s : State) (ns : List (Nat × ChainNode)) : Nat × Option (Nat × Nat) :=
  let here := fun (k : Nat) => Config.nodeBase + 1024 * k
  match (List.range Config.nodeCount).find? (fun k => !ns.any (fun x => x.2.slot.isNone && x.2.addr == here k)) with
  | some k => (here k, none)
  | none =>
    match s.nodeSlots.find? (fun x => !ns.any (fun y => y.2.slot == some x)) with
    | some x => (s.reg (Reg.pltPoolBase x.1) + x.2 * s.fld (Reg.pltPoolCfg x.1) 4 20 * 32, some x)
    | none => (here ns.length, none)

/-- The lowest number that no node has. -/
def freeNumber (ns : List (Nat × ChainNode)) : Nat :=
  ((List.range (ns.length + 1)).find? (fun k => !listed ns k)).getD ns.length

/-- The node of level `d` on a key's path becomes the shadow's own: a new one, or a copy of one that the published version shares. -/
def State.ownNode (s : State) (c : Chain) (key : Nat) (acc : List (Nat × ChainNode) × ChainTree) (d : Nat) :
    List (Nat × ChainNode) × ChainTree :=
  let pre := keyPrefix c.depth d key
  let old := treeNode acc.2 d pre
  if old.any (fun k => !c.pubTree.any (fun x => x.2.2 == k)) then acc
  else
    let k := freeNumber acc.1
    let at_ := s.placeNode acc.1
    let from_ := (old.bind (find? acc.1)).elim [] ChainNode.entries
    (put acc.1 k ⟨at_.1, at_.2, from_⟩, (d, pre, k) :: acc.2.filter (fun x => !(x.1 == d && x.2.1 == pre)))

/-- Write an entry of a node of the shadow. -/
def setEntry (t : ChainTree) (ns : List (Nat × ChainNode)) (d pre idx : Nat) (e : Option ChainEntry) : List (Nat × ChainNode) :=
  match treeNode t d pre with
  | none => ns
  | some k =>
    match find? ns k with
    | none => ns
    | some x => put ns k { x with entries := match e with
        | some e => put x.entries idx e
        | none => del x.entries idx }

/-- Edit the entry of one key: its path is the shadow's own from the root down, and every node names its child (R364). -/
def State.editPath (s : State) (c : Chain) (key : Nat) (e : Option ChainEntry) (acc : List (Nat × ChainNode) × ChainTree) :
    List (Nat × ChainNode) × ChainTree :=
  let own := (List.range c.depth).foldl (fun acc d => s.ownNode c key acc d) acc
  ((List.range c.depth).foldl (fun ns d =>
    setEntry own.2 ns d (keyPrefix c.depth d key) (keyIndex c.depth d key)
      (if d + 1 = c.depth then e else (treeNode own.2 (d + 1) (keyPrefix c.depth (d + 1) key)).map ChainEntry.node)) own.1, own.2)

/-- The chain with `ps` as its shadow: every entry that changes is edited. -/
def State.writeShadow (s : State) (seq : Nat) (c : Chain) (ps : List Plate) : State :=
  let keys := ((c.shadow ++ ps).map Plate.key).dedup.filter (fun k => plateOf c.shadow k != plateOf ps k)
  let r := keys.foldl (fun acc k => s.editPath c k ((plateOf ps k).map ChainEntry.plate) acc) (s.plt.nodes, c.tree)
  { s with plt := { s.plt with nodes := r.1 } }.setChain seq { c with shadow := ps, dirty := true, tree := r.2 }

/-- A node is freed: at once, or after the running turn that started under its version ends (R364). -/
def State.freeNodes (s : State) (seq : Nat) (ks : List Nat) : State :=
  match s.runningIn seq with
  | some t => { s with plt := { s.plt with deferredNodes := s.plt.deferredNodes ++ ks.map (fun k => (t, k, (s.turnPlates t).epoch)) } }
  | none => { s with plt := { s.plt with nodes := ks.foldl (fun ns k => del ns k) s.plt.nodes } }

/-- A chain begins with an empty root, published. -/
def State.createChain (s : State) (seq : Nat) (c : Chain) : State :=
  let k := freeNumber s.plt.nodes
  let at_ := s.placeNode s.plt.nodes
  { s with plt := { s.plt with nodes := put s.plt.nodes k ⟨at_.1, at_.2, []⟩ } }.setChain seq
    { c with tree := [(0, 0, k)], pubTree := [(0, 0, k)], root := at_.1 }

/-- R364: the shadow becomes the published version: ROOT and VER change, and the nodes that only the replaced version had are freed. -/
def State.publishChain (s : State) (seq : Nat) : State :=
  match s.chain? seq with
  | none => s
  | some c =>
    if !c.dirty then s
    else
      let root := ((treeNode c.tree 0 0).bind (find? s.plt.nodes)).elim c.root ChainNode.addr
      let gone := (c.pubTree.map (fun x => x.2.2)).filter (fun k => !c.tree.any (fun x => x.2.2 == k))
      ((s.freeNodes seq gone).setChain seq
        { c with published := c.shadow, pubTree := c.tree, dirty := false, awaits := [], ver := (c.ver + 1) % 2 ^ 32
                 root := root }).bump Reg.pltVersion 1

/-- Edit the shadow of a chain. It is published at once when no turn holds the sequence, else at the next boundary of a team that does. -/
def State.editChain (s : State) (seq : Nat) (f : List Plate → List Plate) : State :=
  match s.chain? seq with
  | none => s
  | some c =>
    let ts := s.turnsOf seq
    let s1 := s.writeShadow seq { c with awaits := (c.awaits ++ ts).dedup } (f c.shadow)
    if ts.isEmpty then s1.publishChain seq else s1

/-- R363: the entries of KIND 3 that the plate manager finds in a chain's shadow are INVALID, and counted. -/
def State.sweepChain (s : State) (seq : Nat) : State :=
  match s.chain? seq with
  | none => s
  | some c =>
    let bad := c.tree.flatMap (fun x =>
      (((find? s.plt.nodes x.2.2).elim [] ChainNode.entries).filter (fun e => e.2 == .bad)).map (fun e => (x.1, x.2.1, e.1)))
    if bad.isEmpty then s
    else
      let below := fun (p : Plate) => bad.any (fun b => p.key / 2 ^ (6 * (c.depth - b.1 - 1)) == b.2.1 * 64 + b.2.2)
      let ns := bad.foldl (fun ns b => setEntry c.tree ns b.1 b.2.1 b.2.2 none) s.plt.nodes
      let s1 := ({ s with plt := { s.plt with nodes := ns } }.setChain seq
        { c with shadow := c.shadow.filter (fun p => !below p), dirty := true, awaits := (c.awaits ++ s.turnsOf seq).dedup }).bump
          Reg.pltLostCnt bad.length
      if (s.turnsOf seq).isEmpty then s1.publishChain seq else s1

/-- Edit one plate of the shadow. -/
def State.editPlate (s : State) (seq key : Nat) (f : Plate → Plate) : State :=
  s.editChain seq (fun ps => ps.map (fun p => if p.key = key then f p else p))

/-- A pool's slots. -/
def State.pool (s : State) (p : Nat) : PoolSlots := look {} s.plt.pools p

/-- Change a pool's slots. -/
def State.updPool (s : State) (p : Nat) (f : PoolSlots → PoolSlots) : State :=
  { s with plt := { s.plt with pools := upd {} s.plt.pools p f } }

/-- A freed slot joins its free list (R359). -/
def State.freeSlot (s : State) (pool rank slot : Nat) : State :=
  s.updPool pool (fun x => { x with used := x.used.filter (fun u => !(u.1 == rank && u.2.1 == slot)) })

/-- Free a slot of a sequence, after the running turn that names it ends (R364, R370, R374). -/
def State.releaseSlot (s : State) (seq pool rank slot : Nat) : State :=
  match s.runningIn seq with
  | some t => { s with plt := { s.plt with deferred := s.plt.deferred ++ [(t, pool, rank, slot, (s.turnPlates t).epoch)] } }
  | none => s.freeSlot pool rank slot

/-- Rank under which a pool lists a home slot: VAULT pools hold slots per core. -/
def Plate.homeRank (p : Plate) : Nat := if p.tier = 0 then p.srank else 0

/-- Release every slot of a plate: its home, and its staged copy where that is another slot. -/
def State.releasePlate (s : State) (seq : Nat) (p : Plate) : State :=
  let s1 := s.releaseSlot seq p.hpool p.homeRank p.hslot
  if p.tier ≠ 0 && p.staged then s1.releaseSlot seq p.spool p.srank p.sslot else s1

/-- A sequence leaves every prepared batch (R400, R416). -/
def State.dropPrepared (s : State) (seq : Nat) : State :=
  { s with
    plt := { s.plt with turns := s.plt.turns.map (fun (t : Nat × TurnPlates) =>
      (t.1, { t.2 with prepared := t.2.prepared.filter (fun q => q.1 != seq) })) }
    teams := s.teams.map (fun (t : Nat × Team) =>
      (t.1, { t.2 with prepared := t.2.prepared.filter (fun e => e.slot != seq) })) }

/-- The final batches that hold a sequence lose it before they run again (R511 step 1). -/
def State.leaveBatches (s : State) (seq : Nat) : State :=
  { s with teams := s.teams.map (fun (t : Nat × Team) =>
      (t.1, if t.2.batch.any (fun e => e.slot == seq) then { t.2 with gone := seq :: t.2.gone } else t.2)) }

/-- R416: a sequence with a lost plate enters RECOVER and leaves every prepared batch; recompute starts at the first position of
its lowest lost plate, or at C where that plate holds no committed position. -/
def State.recoverFrom (s : State) (seq p0 : Nat) : State :=
  match s.slot? seq with
  | none => s
  | some x =>
    let s1 := (s.dropPrepared seq).leaveBatches seq
    match x.st with
    | .prefill | .decode =>
      (s1.updSlot seq (fun x => { x with st := .recover, next := min p0 x.committed })).bump Reg.dlrRecompCnt 1
    | .recover => s1.updSlot seq (fun x => { x with next := min x.next p0 })
    | _ => s

/-- Copies in progress of a plate end without effect, and the slots they took are released. -/
def State.dropCopies (s : State) (seq key : Nat) : State :=
  let mine := fun (x : PlateCopy) => x.seq == seq && x.key == key
  let s1 := ((s.plt.staging ++ s.plt.moves).filter mine).foldl (fun s x => s.releaseSlot seq x.pool x.rank x.slot) s
  { s1 with plt := { s1.plt with
      staging := s1.plt.staging.filter (fun x => !mine x)
      moves := s1.plt.moves.filter (fun x => !mine x)
      writeBacks := s1.plt.writeBacks.filter (fun x => !(x.1 == seq && x.2.1 == key))
      failed := s1.plt.failed.filter (fun x => !(x.1 == seq && x.2.1 == key)) } }

/-- R378: a plate is lost. The attempt that names it fails unless its check is past (R510). -/
def State.losePlate (s : State) (seq key : Nat) : State :=
  match s.chain? seq with
  | none => s
  | some c =>
    match plateOf c.shadow key with
    | none => s
    | some p =>
      if p.lost then s
      else
        let s1 := ((s.dropCopies seq key).releasePlate seq p).editPlate seq key
          (fun p => { p with lost := true, staged := false, wbPend := false, moving := false })
        let s2 := s1.bump Reg.pltLostCnt 1
        let s3 := match s.runningIn seq with
          | some t => if (p.mapped = 1 || p.mapped = 2) && (s2.team t).unchecked then s2.updTeam t (fun t => { t with plateLost := some (t.plateLost.getD seq) }) else s2
          | none => s2
        s3.recoverFrom seq (2 ^ c.log2n * (key % 2 ^ c.jb))

/-- Lose every plate of every chain that a predicate names. -/
def State.loseWhere (s : State) (q : Plate → Bool) : State :=
  s.plt.chains.foldl (fun s c => (c.2.shadow.filter q).foldl (fun s p => s.losePlate c.1 p.key) s) s

end Sys2Proof.Machine
end

