-- ==== Sys2Proof/Machine/Gddr.lean ====
section
/-! DEFINITION. GDDR regions: addresses, sectors and poison, retirement, training, scrubbing (R285 to R308). -/

namespace Sys2Proof.Machine

/-! ## Addresses (R287, R288, R300) -/

def inVaults (a : Nat) : Bool := decide (a < 2 ^ 36)
def inGddr (a : Nat) : Bool := decide (gddrBase 0 ≤ a) && decide (a < gddrBase 32)
def regionOf (a : Nat) : Nat := (a - gddrBase 0) / 2 ^ 32
def regionOff (a : Nat) : Nat := (a - gddrBase 0) % 2 ^ 32

/-- USABLE of every region (Table GDR-2). -/
def State.usable (s : State) : Nat :=
  let d := s.fld Reg.gdrCfg 2 2
  (if d = 0 then 1920 else if d = 1 then 2880 else 3840) * 2 ^ 20

/-- GDR_RGN_STATE.ST of a region (Table GDR-11). -/
def State.regionSt (s : State) (n : Nat) : Nat := s.fld (Reg.gdrRgnState n) 0 3

/-- Is a region in service? A retrain only delays its accesses (R298). -/
def State.regionUp (s : State) (n : Nat) : Bool := s.regionSt n == 2 || s.regionSt n == 3

/-- Does the span lie in USABLE space of one region in service (R288)? -/
def State.gddrOk (s : State) (a len : Nat) : Bool :=
  inGddr a && decide (regionOff a + len ≤ s.usable) && s.regionUp (regionOf a)

/-- The golden-copy area of every region: offset and length (Table GDR-8). -/
def State.goldLo (s : State) : Nat := s.fld Reg.gdrGold 0 12 * 2 ^ 20
def State.goldLen (s : State) : Nat := s.fld Reg.gdrGold 16 12 * 2 ^ 20

/-- Does the span touch the golden-copy area? -/
def State.inGold (s : State) (a len : Nat) : Bool :=
  inGddr a && overlaps (regionOff a) len s.goldLo s.goldLen

/-- The region's own state. -/
def State.region (s : State) (n : Nat) : Region := look {} s.regions n
def State.updRegion (s : State) (n : Nat) (f : Region → Region) : State := { s with regions := upd {} s.regions n f }

/-! ## Retirement (R302 to R304) -/

/-- Regions of a parity group that are out of service. -/
def State.groupLost (s : State) (pg : Nat) : Nat :=
  ((List.range 8).filter (fun k => bitOf (s.reg Reg.gdrRetired) (8 * pg + k))).length

/-- Home tier 1 in a pool of the region, by the pool's base. -/
def State.poolInRegion (s : State) (p n : Nat) : Bool :=
  inGddr (s.reg (Reg.pltPoolBase p)) && regionOf (s.reg (Reg.pltPoolBase p)) == n

/-- Has the controller completed every sector access of a span, each with good data (R303)? -/
def State.accessed (s : State) (a len : Nat) : Bool :=
  decide (0 < len) && (List.range ((a + len - 1) / 64 + 1 - a / 64)).all (fun i => find? s.gacc (a / 64 + i) == some false)

/-- R303: of the descriptors posted before a region's retirement, with bytes in it, those whose accesses have completed good are delivered;
the others have not completed and fail with E_MEDIA. -/
def State.cutDesc (s : State) (n : Nat) (d : DmaDesc) : DmaDesc :=
  let a := bitsOf d.gaddr 0 48
  if !d.done && bitsOf d.gaddr 52 12 == s.fld Reg.ngvId 0 12 && inGddr a && regionOf a == n then
    (if d.kind ≠ 2 && d.plate.isNone && d.enc.isNone && s.accessed a d.bytes then { d with got := true } else { d with cut := true })
  else d
def State.cutDescs (s : State) (n : Nat) : State :=
  { s with cores := s.cores.map (fun (x : Nat × CoreCell) =>
      (x.1, { x.2 with cur := { x.2.cur with dq := x.2.cur.dq.map (fun q => { q with descs := q.descs.map (fun d => s.cutDesc n d) }) } })) }

/-- R303: a region enters RETIRED, or ABSENT for cause 6. The plates with a copy in it are lost; a fifth retirement or a second
one in a group exceeds the budget, and in a group with two nothing is served by rebuild any more (R304); the event is logged (R526). -/
def State.retire (s : State) (n cause : Nat) : State :=
  if s.regionSt n = 4 || (s.regionSt n = 0 && bitOf (s.reg Reg.gdrRetired) n) then s
  else
    let s1 := (s.setFld (Reg.gdrRgnState n) 0 3 (if cause = 6 then 0 else 4)).setFld (Reg.gdrRgnState n) 16 8 cause
    let s2 := (s1.setFld (Reg.gdrRgnState n) 3 1 1).setFld Reg.gdrRetired n 1 1
    let pg := n / 8
    let broken := decide (2 ≤ s2.groupLost pg)
    let s3 := (if broken then (List.range 8).foldl (fun s k => s.setFld (Reg.gdrRgnState (8 * pg + k)) 3 1 0) s2 else s2).setFld
      Reg.gdrGroup (2 * pg) 2 (if broken then 2 else 1)
    ((s3.cutDescs n).loseWhere (fun p => p.tier == 1 && s.poolInRegion p.hpool n)).logFault
      { src := srcRegion, code := cause, loc := n
        action := if 2 ≤ s2.groupLost pg || 4 < popcount 32 (s2.reg Reg.gdrRetired) then 6 else 0 }

/-! ## Sectors, ECC groups and where a device stores them (R290, R291) -/

/-- ECC group and place in it of a region offset. -/
def eccGroup (o : Nat) : Nat := o / 64 / 15
def eccIndex (o : Nat) : Nat := o / 64 % 15

/-- Device address of a region offset's sector and of its group's check sector, and the device channel they lie in. -/
def deviceAddr (o : Nat) : Nat := eccGroup o * 1024 + eccIndex o * 64
def checkAddr (o : Nat) : Nat := eccGroup o * 1024 + 960
def deviceChannel (o : Nat) : Nat := eccGroup o % 4

/-- A sector is named by its place among the 64-byte blocks of the local address space; a group by its check sector's device address
in its region. -/
def groupKey (k : Nat) : Nat := regionOf (64 * k) * 2 ^ 32 + checkAddr (regionOff (64 * k))

/-- The sectors of the group whose key is `g`. -/
def groupSectors (g : Nat) : List Nat := (List.range 15).map (fun i => gddrBase (g / 2 ^ 32) / 64 + g % 2 ^ 32 / 1024 * 15 + i)

/-- The error pattern stored in a sector, what the decoder finds there, and what remains after its correction. -/
def State.sectorFix (s : State) (k : Nat) : Fix :=
  match find? s.gerr k with
  | none => (.clean, [])
  | some w => fixSector w

/-- R291: a sector counts as poisoned by its flag, or because its group's metadata word cannot be read. -/
def State.sectorPoisoned (s : State) (k : Nat) : Bool := s.gpoison.contains k || !wordOk (look 0#32 s.gword (groupKey k))

/-- Does a read of the sector fail (Table GDR-3, R294)? -/
def State.sectorFails (s : State) (k : Nat) : Bool :=
  match find? s.gacc k with
  | some failed => failed
  | none => s.sectorPoisoned k || (s.sectorFix k).1 == .uncorrectable

/-- Symbols of a stored sector, and bits of its group's metadata word, fail. -/
def State.strikeSector (s : State) (k : Nat) (e : SectorErr) : State :=
  let s1 := if e.syms.isEmpty then s
    else
      { s with gerr := upd (List.replicate 68 0) s.gerr k (fun w =>
          e.syms.foldl (fun w x => flipAt w (x.1.toNat % 68) x.2.toNat) w) }
  if e.word = 0#32 then s1 else { s1 with gword := upd 0#32 s1.gword (groupKey k) (fun w => w ^^^ e.word) }

/-- The sectors that a span touches and that are out of the ordinary: poisoned, struck, in a struck group, or accessed ahead. -/
def State.oddSectors (s : State) (a len : Nat) : List Nat :=
  ((s.gpoison ++ s.gerr.map Prod.fst ++ s.gacc.map Prod.fst ++ s.gword.flatMap (fun g => groupSectors g.1)).dedup).filter
    (fun k => decide (0 < len) && decide (a / 64 ≤ k) && decide (k ≤ (a + len - 1) / 64))

/-- Does a read of the span meet a sector that fails? -/
def State.sectorBad (s : State) (a len : Nat) : Bool := (s.oddSectors a len).any s.sectorFails

/-- R295: an uncorrectable or poisoned sector was read. -/
def State.sectorLost (s : State) (n : Nat) : State := (s.bump (Reg.gdrRgnUe n) 1).bump Reg.gdrUeCnt 1

/-- R302: an uncorrectable sector was read; UE_LIMIT of them within any 1,000 ticks retire the region. -/
def State.sectorUe (s : State) (n : Nat) : State :=
  let now := s.reg Reg.glbTicks
  let s1 := s.sectorLost n
  let recent := now :: ((s.region n).ueTicks.filter (fun t => decide (now < t + 1000)))
  let s2 := s1.updRegion n (fun r => { r with ueTicks := recent })
  if s.fld Reg.gdrPolicy 0 8 ≤ recent.length then s2.retire n 2 else s2

/-- R295: a corrected sector. -/
def State.sectorCe (s : State) (n : Nat) : State := (s.bump (Reg.gdrRgnCe n) 1).bump Reg.gdrCeCnt 1

/-- R295: what one sector read counts. -/
def State.countSector (s : State) (k : Nat) : State :=
  let n := regionOf (64 * k)
  match (s.sectorFix k).1, s.sectorPoisoned k with
  | .uncorrectable, _ => s.sectorUe n
  | _, true => s.sectorLost n
  | .corrected _, false => s.sectorCe n
  | .clean, false => s

/-- A transfer reads a sector: it uses the access that the controller has completed for it, or makes one. -/
def State.takeSector (s : State) (k : Nat) : State :=
  if s.gacc.any (fun x => x.1 == k) then { s with gacc := del s.gacc k } else s.countSector k

/-- The bytes of a span, each sector's as its decoder gives them. -/
def State.gddrBytes (s : State) (a len : Nat) : List Byte :=
  let bs := s.mem.read a len
  if s.gerr.isEmpty then bs
  else bs.mapIdx (fun i b => b ^^^ BitVec.ofNat 8 (((s.sectorFix ((a + i) / 64)).2).getD ((a + i) % 64) 0))

/-- R295: read bytes of a region: the counters move for each sector; answers the status and the bytes. -/
def State.readGddr (s : State) (a len : Nat) : State × Status × List Byte :=
  ((s.oddSectors a len).foldl State.takeSector s, if s.sectorBad a len then .eMedia else .ok, s.gddrBytes a len)

/-- Poison a sector. -/
def State.poisonSector (s : State) (k : Nat) : State :=
  if s.gpoison.contains k then s else { s with gpoison := k :: s.gpoison }

/-- R291, R292: a write rewrites its group's metadata word. Where the word could not be read, the flags are those its stored bits spell
(log entry 141). -/
def State.rewriteWord (s : State) (g : Nat) (flips : Word) : State :=
  let s1 := { s with gword := del s.gword g }
  if wordOk flips then s1
  else
    ((groupSectors g).zipIdx).foldl (fun s x =>
      if !flips.getLsbD x.2 then s
      else if s.gpoison.contains x.1 then { s with gpoison := s.gpoison.filter (fun k => k != x.1) }
      else { s with gpoison := x.1 :: s.gpoison }) s1

/-- R294: sectors of a write, each covered whole, whose accesses the controller has given up: retries exhausted or no response. -/
def State.failedWrites (s : State) (a len : Nat) : List Nat :=
  (s.gacc.filter (fun x => x.2 && decide (a ≤ 64 * x.1) && decide (64 * x.1 + 64 ≤ a + len))).map Prod.fst

/-- R292: write bytes into a region. A sector wholly covered loses its poison; one covered in part is read and merged, and is poisoned where
that read fails. A sector whose own access has failed holds undefined bytes (R294; DESIGN CHOICE, log entry 170). -/
def State.writeGddr (s : State) (a : Nat) (bs : List Byte) : State :=
  if bs.isEmpty then s
  else
    let lo := a / 64
    let hi := (a + bs.length - 1) / 64
    let inSpan := fun (k : Nat) => decide (lo ≤ k) && decide (k ≤ hi)
    let merged := [lo, hi].dedup.filter (fun k => !(decide (a ≤ 64 * k) && decide (64 * k + 64 ≤ a + bs.length)))
    let failed := merged.filter s.sectorFails
    let s1 := merged.foldl (fun s k =>
      { s.takeSector k with mem := s.mem.write (64 * k) (s.gddrBytes (64 * k) 64) }) s
    let s2 := (s1.gword.filter (fun g => (groupSectors g.1).any inSpan)).foldl (fun s g => s.rewriteWord g.1 g.2) s1
    let s3 := { s2 with
      mem := s2.mem.write a bs
      gerr := s2.gerr.filter (fun e => !inSpan e.1)
      gacc := s2.gacc.filter (fun e => !inSpan e.1)
      gpoison := s2.gpoison.filter (fun k => !inSpan k || merged.contains k) }
    (s.failedWrites a bs.length).foldl (fun s k =>
      { s with mem := s.mem.write (64 * k) (freeBytes s.freeCount 64), freeCount := s.freeCount + 64 }) (failed.foldl State.poisonSector s3)

/-! ## Training (R289, R297, R298) -/

/-- What a region's training finds: the density its device reports (0: 16 Gb, 1: 24 Gb, 2: 32 Gb or above; none: no device or a
failed initialisation) and whether training passed. A region that has been retired stays so until POR# (R303). -/
def trainRegion (s : State) (n : Nat) (x : Option Nat × Bool) : State :=
  if s.regionSt n = 4 then s else
  match x with
  | (none, _) => s.retire n 6
  | (some _, false) => (s.setFld (Reg.gdrRgnState n) 0 3 1).retire n 1
  | (some _, true) => s.setFld (Reg.gdrRgnState n) 0 3 2

/-- Train regions from `n` on. -/
def trainFrom : Nat → List (Option Nat × Bool) → State → State
  | _, [], s => s
  | n, x :: xs, s => if n < 32 then trainFrom (n + 1) xs (trainRegion s n x) else s

/-- R289, R297: initial training of every region. The smallest density found serves for all; regions that fail are retired. A
region the list does not name has no device. -/
def execGddrTraining (found : List (Option Nat × Bool)) (s : State) : Host.Outcome State Fault Refusal :=
  let f := (found ++ List.replicate 32 (none, false)).take 32
  let ds := (f.filterMap Prod.fst).map (fun d => min d 2)
  let d := ds.foldl min 2
  let s1 := if ds.isEmpty then s
    else (s.setFld Reg.gdrCfg 2 2 d).setFld Reg.gdrCfg 4 1 (bit (ds.any (fun x => x != d)))
  .next (trainFrom 0 f s1)

/-- Add one to a saturating field. -/
def State.satInc (s : State) (a lo len : Nat) : State :=
  let v := s.fld a lo len
  if v + 1 < 2 ^ len then s.setFld a lo len (v + 1) else s

/-- Mark a retrain done: its tick and temperature. -/
def State.retrained (s : State) (n : Nat) : State :=
  (s.setFld (Reg.gdrRgnState n) 0 3 2).updRegion n
    (fun r => { r with lastTick := s.reg Reg.glbTicks, lastTemp := s.fld (Reg.gdrRgnState n) 8 8, crcInTick := 0, crcDue := false })

/-- R298: a short retrain of a region in service ends; after a failed one, a full retrain; after a failed full one, retirement. -/
def State.retrain (s : State) (n : Nat) (short full : Bool) : State :=
  if !s.regionUp n then s
  else
    let s1 := s.satInc (Reg.gdrRgnTrain n) 0 16
    if short then s1.retrained n
    else
      let s2 := s1.satInc (Reg.gdrRgnTrain n) 16 8
      if full then s2.retrained n else s2.retire n 1

/-- R298: is a short retrain of the region due: by period, by temperature, or by 4 CRC retries in one tick? -/
def State.retrainDue (s : State) (n : Nat) : Bool :=
  let r := s.region n
  let temp := s.fld (Reg.gdrRgnState n) 8 8
  decide (r.lastTick + 16 * s.fld Reg.gdrPolicy 16 8 ≤ s.reg Reg.glbTicks) ||
    (temp != 0xFF && r.lastTemp != 255 &&
      decide (s.fld Reg.gdrPolicy 24 4 ≤ max temp r.lastTemp - min temp r.lastTemp)) || r.crcDue

/-- Does another region of the parity group retrain? At most one does while the device serves (R298). -/
def State.groupRetrains (s : State) (n : Nat) : Bool :=
  (List.range 8).any (fun k => 8 * (n / 8) + k != n && s.regionSt (8 * (n / 8) + k) == 3)

/-- R298: a short retrain that is due begins, with the device temperature read then; one that runs ends. Accesses wait meanwhile, and none
fails. -/
def execGddrShortRetrain (region : BitVec 5) (temp : BitVec 8) (short full : Bool) (s : State) :
    Host.Outcome State Fault Refusal :=
  let n := region.toNat
  let s1 := s.setFld (Reg.gdrRgnState n) 8 8 temp.toNat
  .next (if s1.regionSt n = 3 then s1.retrain n short full
    else if s1.regionSt n = 2 && s1.retrainDue n && !s1.groupRetrains n then s1.setFld (Reg.gdrRgnState n) 0 3 3
    else s1)

/-! ## Accesses and scrubbing (R293 to R296) -/

/-- R294: CRC and parity retries of one access; a transfer that exhausts them counts towards CRC_LIMIT within one tick. -/
def State.crcRetries (s : State) (n retries : Nat) : State :=
  let now := s.reg Reg.glbTicks
  let r := s.region n
  let fresh := r.crcTick != now
  let k := min retries 3
  let inTick := (if fresh then 0 else r.crcInTick) + k
  let s1 := (s.bump (Reg.gdrRgnCrc n) k).updRegion n (fun r =>
    { r with crcTick := now, crcInTick := inTick, crcDue := r.crcDue || decide (4 ≤ inTick)
             exhausted := (if fresh then 0 else r.exhausted) + bit (decide (3 < retries)) })
  if 3 < retries && decide (s.fld Reg.gdrPolicy 8 8 ≤ (s1.region n).exhausted) then s1.retire n 3 else s1

/-- The controller has completed an access ahead of its transfer. -/
def State.ahead (s : State) (k : Nat) (failed : Bool) : State := { s with gacc := put s.gacc k failed }

/-- R293 to R295: a controller completes one sector access, ahead of the transfer it belongs to: `err` is what has failed in the stored
sector, `retries` how many times it was retried; a fourth means that the third failed too, and the access completes as uncorrectable. -/
def execGddrAccess (region : BitVec 5) (sector : BitVec 26) (err : SectorErr) (retries : Nat) (s : State) :
    Host.Outcome State Fault Refusal :=
  let n := region.toNat
  .next (if !s.regionUp n || decide (s.usable < 64 * sector.toNat + 64) then s
    else
      let k := gddrBase n / 64 + sector.toNat
      let s0 := { s with gacc := del s.gacc k }.strikeSector k err
      let s1 := (s0.updRegion n (fun r => { r with noResp := 0 })).crcRetries n retries
      if 3 < retries then (s1.sectorUe n).ahead k true else (s1.countSector k).ahead k (s1.sectorFails k))

/-- R294, R302: an access gets no response in 10 µs and completes as uncorrectable; sixteen in a row retire the region. -/
def execGddrAccessTimeout (place : SectorAt) (s : State) : Host.Outcome State Fault Refusal :=
  let n := place.region.toNat
  let sector := place.sector
  .next (if !s.regionUp n || decide (s.usable < 64 * sector.toNat + 64) then s
    else
      let s1 := ((s.updRegion n (fun r => { r with noResp := r.noResp + 1 })).sectorUe n).ahead (gddrBase n / 64 + sector.toNat) true
      if 16 ≤ (s1.region n).noResp then s1.retire n 4 else s1)

/-- One scrubbed sector: it counts as a read; a corrected one is written back, an uncorrectable one poisoned. -/
def scrubSector (k : Nat) (err : SectorErr) (s : State) : State :=
  let s1 := s.strikeSector k err
  let s2 := s1.countSector k
  match (s1.sectorFix k).1 with
  | .clean => s2
  | .corrected _ => if s1.sectorPoisoned k then s2 else { s2 with gerr := del s2.gerr k }
  | .uncorrectable => s2.poisonSector k

/-- R296: the controller scrubs its next ECC group of 15 data sectors and wraps. -/
def execGddrScrub (region : BitVec 5) (errs : List SectorErr) (s : State) : Host.Outcome State Fault Refusal :=
  let n := region.toNat
  if !s.regionUp n then .next s
  else
    let g := (s.region n).scrubGroup
    let k0 := gddrBase n / 64 + 15 * g
    let s1 := (List.range 15).foldl (fun s i => scrubSector (k0 + i) (nth {} errs i) s) s
    .next (s1.updRegion n (fun r => { r with scrubGroup := if (g + 1) * 960 < s.usable then g + 1 else 0 }))

/-- R305, Table GDR-10: host command retiring a region. -/
def execGdrRetireCmd (fn : BitVec 6) (value : Word) (s : State) : Host.Outcome State Fault Refusal :=
  let v := value.toNat
  let n := v % 32
  let broken := decide (1 ≤ s.groupLost (n / 8))
  .next (s.hostWrite fn Reg.gdrRetireCmd
    [(bitsOf v 6 18 != 0, .eArg), (bitsOf v 24 8 != 0x5A, .ePerm),
     (s.regionSt n == 0 || s.regionSt n == 4, .eState), (broken && !bitOf v 5, .eState)]
    (fun s => s.retire n 5))

end Sys2Proof.Machine
end

