-- ==== Sys2Proof/Machine/LocalMem.lean ====
section
/-! DEFINITION. Accesses to the local address space by DMA, the fabric and the plate manager: who may reach what, in the order of
R438, and reads and writes with poison (R223, R225, R438, R467, R626). -/

namespace Sys2Proof.Machine

/-- Who makes an access. -/
inductive Agent where
  | core (n : Nat)
  | remote (src : Nat)
  | plates
deriving DecidableEq, Repr

/-- The device's own id (R448). -/
def State.devId (s : State) : Nat := s.fld Reg.ngvId 0 12

/-- The slice state (Table SLC-2): 0 FREE, 1 ACTIVE, 2 DETOUR, 3 BROKEN. -/
def State.sliceSt (s : State) : Nat := s.fld Reg.slcStatus 0 4

/-- Slice rank and size minus 1 of this device's turns (R404). -/
def State.sliceRank (s : State) : Nat := if s.sliceSt = 0 then 0 else s.fld Reg.slcCfg 24 7
def State.sliceSize (s : State) : Nat := if s.sliceSt = 0 then 0 else s.fld Reg.slcCfg 16 8 - 1

/-- Does this device form the batches: without a slice, or as rank 0 of one (R404, R475)? Is it another member of its slice? -/
def State.isLead (s : State) : Bool := s.sliceSt == 0 || s.fld Reg.slcCfg 24 7 == 0
def State.sliceMember (s : State) : Bool := (s.sliceSt == 1 || s.sliceSt == 2) && !s.isLead

/-- The ranks that this device runs turns for, ascending: its own and those it carries (R477, R494). -/
def State.ranksRun (s : State) : List Nat :=
  let own := s.sliceRank
  if s.sliceSt ≠ 1 && s.sliceSt ≠ 2 then [own]
  else (List.range 128).filter (fun r => r == own ||
    (decide (r < s.fld Reg.slcCfg 16 8) && s.fld (Reg.slcRank r) 13 1 == 1 && s.fld (Reg.slcRank r) 15 7 == own))

/-- The slice rank that holds the positions of plate index `j` of plates of 2^n positions (R391); 0 without a slice. -/
def State.shareRank (s : State) (log2n share j : Nat) : Nat := 2 ^ log2n * j / max share 1 % (s.sliceSize + 1)

/-- Is a device a live member of the slice (Table SLC-10)? -/
def State.member (s : State) (d : Nat) : Bool := s.fld (Reg.slcAcc d) 0 1 == 1

/-- Ranges of Table REG-7. -/
def inWindows (a : Nat) : Bool := decide (coreWindow 0 ≤ a) && decide (a < coreWindow 4096)
def inCpSram (a : Nat) : Bool := decide (cpBase ≤ a) && decide (a < cpBase + 0xC00000)
def inApertures (a : Nat) : Bool := decide (apertureBase 0 ≤ a) && decide (a < apertureBase 256)

/-- May the agent reach the span (R223, R467)? `none` where the map holds no memory for anyone (R626). -/
def State.mayReach (s : State) (who : Agent) (write : Bool) (a len : Nat) : Option Bool :=
  match who with
  | .plates => some true
  | .remote src =>
    some (src == s.devId || (s.member src && (s.sliceSt == 1 || s.sliceSt == 2)) ||
      (s.fld (Reg.slcAcc src) 1 1 == 1 && !write && inGddr a && decide (s.goldLo ≤ regionOff a) &&
        decide (regionOff a + len ≤ s.goldLo + s.goldLen)))
  | .core n =>
    if inGddr a then some true
    else if inVaults a then
      some ((s.teamOfCore n).isSome && s.teamOfCore (a / 2 ^ 24) == s.teamOfCore n &&
        (decide (len = 0) || s.teamOfCore ((a + len - 1) / 2 ^ 24) == s.teamOfCore n))
    else if inWindows a || inCpSram a then some false
    else none

/-- Does the span touch the load area of a loaded team (R218)? -/
def State.inWeights (s : State) (a len : Nat) : Bool :=
  inVaults a && (let n := a / 2 ^ 24
    (s.teamRec n).loaded && inLoadArea' (s.teamRec n) (a % 2 ^ 24) len)
where
  /-- Overlap with the area that the team load filled. -/
  inLoadArea' (t : Team) (off len : Nat) : Bool := t.loadArea.any (fun x => overlaps off len x.1 x.2)

/-- Is the span inside a range of control-plane SRAM that is lent or pooled (R438)? -/
def State.lent (s : State) (a len : Nat) : Bool :=
  s.plt.lends.any (fun r => decide (r.1 ≤ a) && decide (a + len ≤ r.1 + r.2)) ||
    (List.range 64).any (fun p => s.fld (Reg.pltPoolCfg p) 0 1 == 1 && s.fld (Reg.pltPoolCfg p) 1 2 == 1 &&
      decide (s.reg (Reg.pltPoolBase p) ≤ a) &&
      decide (a + len ≤ s.reg (Reg.pltPoolBase p) + s.reg (Reg.pltPoolCount p) * s.fld (Reg.pltPoolCfg p) 4 20 * 32))

/-- Is the span memory (R288, R438, R626)? -/
def State.inRange (s : State) (a len : Nat) : Bool :=
  (inVaults a && decide (a + len ≤ 2 ^ 36)) || s.gddrOk a len || (inCpSram a && s.lent a len)

/-- The checks of R438 that need no read, in order, for a span of the local address space. -/
def State.localCheck (s : State) (who : Agent) (write : Bool) (a len : Nat) : Option Status :=
  match s.mayReach who write a len with
  | none => some .eRange
  | some ok =>
    firstCheck [(!ok, .ePerm), (write && (s.inGold a len || s.inWeights a len), .ePerm), (!s.inRange a len, .eRange)]

/-- Read a span: a vault through its background port, a region through its controller. E_MEDIA where a line or sector fails. -/
def State.readLocal (s : State) (a len : Nat) : State × Status × List Byte :=
  if inVaults a then s.bgRead a len
  else if inGddr a then s.readGddr a len
  else (s, .ok, s.mem.read a len)

/-- Write a span: a vault through its background port, where a line that meets a core write is dropped and fails the writer (R263); a region
through its controller, where an access that fails fails the writer (R294). -/
def State.writeLocal (s : State) (a : Nat) (bs : List Byte) : State × Status :=
  if inVaults a then s.bgWrite a bs
  else if inGddr a then (s.writeGddr a bs, if (s.failedWrites a bs.length).isEmpty then .ok else .eMedia)
  else ({ s with mem := s.mem.write a bs }, .ok)

/-- An access of an agent: the first check that fails, or the read (R438). -/
def State.getLocal (s : State) (who : Agent) (a len : Nat) : State × Status × List Byte :=
  match s.localCheck who false a len with
  | some st => (s, st, [])
  | none => s.readLocal a len

/-- An access of an agent: the first check that fails, or the write (R438). -/
def State.putLocal (s : State) (who : Agent) (a : Nat) (bs : List Byte) : State × Status :=
  match s.localCheck who true a bs.length with
  | some st => (s, st)
  | none => s.writeLocal a bs

/-- Move bytes from one span to another; nothing is written where the read fails. -/
def State.copyLocal (s : State) (src dst len : Nat) : State × Status :=
  let r := s.readLocal src len
  if r.2.1 = .ok then r.1.writeLocal dst r.2.2 else (r.1, r.2.1)

end Sys2Proof.Machine
end

