-- ==== Sys2Proof/Machine/Ports.lean ====
section
/-! DEFINITION. The ports of the Nganov fabric as senders: flits and their CRC, link records, transaction headers, the choice of what takes the
next slot, the replay buffer and credits (R424, R427 to R433). -/

namespace Sys2Proof.Machine

/-! ## Flits (R427, R430) -/

/-- One step of CRC-24 (R427). -/
def crc24Bit (c : Nat) : Nat := if 2 ^ 23 ≤ c then Nat.xor (2 * c) 0x1864CFB else 2 * c

/-- CRC-24 of bytes, generator 0x864CFB and initial value 0xFFFFFF, each byte from its most significant bit: the order is a DESIGN CHOICE, log
entry 180. -/
def crc24 (bs : List Byte) : Nat :=
  bs.foldl (fun c b => (List.range 8).foldl (fun c _ => crc24Bit c) (Nat.xor c (b.toNat * 2 ^ 16))) 0xFFFFFF

/-- Is a KIND one of the sequenced ones? -/
def sequencedKind (kind : Nat) : Bool := kind == 1 || kind == 2

/-- The link-control byte of a flit: KIND, CLASS, ACKINC (Table NGV-3). -/
def flitControl (kind cls ackinc : Nat) : Nat := kind % 4 + cls % 4 * 4 + ackinc % 16 * 16

/-- CRC of a flit: PAYLOAD, LC and, for a sequenced kind, the 16-bit sequence number (R427). -/
def flitCrc (payload : List Byte) (kind cls ackinc seq : Nat) : Nat :=
  crc24 (payload ++ leBytes 1 (flitControl kind cls ackinc) ++ (if sequencedKind kind then leBytes 2 seq else []))

/-- The 64 bytes of a flit as it leaves (Table NGV-3). -/
def Flit.bytes (f : Flit) (ackinc seq : Nat) : List Byte :=
  f.payload ++ leBytes 1 (flitControl f.kind f.cls ackinc) ++ leBytes 3 (flitCrc f.payload f.kind f.cls ackinc seq)

/-- 60 bytes of payload. -/
def payload60 (bs : List Byte) : List Byte := (bs ++ zeroBytes 60).take 60

/-- Where the value of a link record begins and how many bytes it has (Table NGV-4). -/
def recordSpan (code : Nat) : Nat × Nat := if code = 3 then (8, 12) else if code = 1 || code = 5 then (2, 8) else (2, 2)

/-- The payload of a link record: its code in byte 0, then its value (Table NGV-4). -/
def recordPayload (code value : Nat) : List Byte :=
  let x := recordSpan code
  payload60 (leBytes 1 code ++ zeroBytes (x.1 - 1) ++ leBytes x.2 value)

/-! ## Transactions as bytes (R433) -/

/-- The 128-bit header of a transaction (Table NGV-5). -/
def hdrWord (op : Nat) (h : Hdr) : Nat :=
  op % 16 + h.cls % 4 * 2 ^ 4 + bit h.fence * 2 ^ 6 + h.tag % 2 ^ 12 * 2 ^ 8 + h.src % 2 ^ 12 * 2 ^ 20 + h.dst % 2 ^ 12 * 2 ^ 32 +
    h.lines % 2 ^ 8 * 2 ^ 44 + h.att % 4 * 2 ^ 52 + h.asub % 4 * 2 ^ 54 + h.status % 2 ^ 8 * 2 ^ 56 + h.addr % 2 ^ 48 * 2 ^ 64 +
    h.turn % 2 ^ 12 * 2 ^ 112 + h.hops % 16 * 2 ^ 124

/-- The header that a 128-bit word spells, with its data. -/
def hdrOfWord (w : Nat) (data : List Byte) : Hdr :=
  { cls := bitsOf w 4 2, fence := bitOf w 6, tag := bitsOf w 8 12, src := bitsOf w 20 12, dst := bitsOf w 32 12, lines := bitsOf w 44 8
    att := bitsOf w 52 2, asub := bitsOf w 54 2, status := bitsOf w 56 8, addr := bitsOf w 64 48, turn := bitsOf w 112 12
    hops := bitsOf w 124 4, data := data }

/-- Data bytes of a transaction: whole lines, the 8 bytes of a COPY's global address, or none (R434, R441). -/
def dataLength (op lines status : Nat) : Nat :=
  if op = 2 || op = 3 || op = 5 || (op = 8 && status == 0) then 32 * (lines + 1) else if op = 4 then 8 else 0

/-- Flits of a request or response with `d` data bytes. -/
def flitsOf (d : Nat) : Nat := ceilDiv (16 + d) 60

/-- The flits of a transaction: the header, then the data without gaps. -/
def txFlits (op : Nat) (h : Hdr) : List Flit :=
  let bs := leBytes 16 (hdrWord op h) ++ h.data
  (List.range (flitsOf h.data.length)).map (fun i => ⟨if i = 0 then 1 else 2, h.cls, payload60 (bs.drop (60 * i))⟩)

/-! ## Ports -/

/-- A port of the fabric engine. -/
def State.port (s : State) (p : Nat) : Port := look {} s.fab.ports p

/-- Change a port. -/
def State.updPort (s : State) (p : Nat) (f : Port → Port) : State :=
  { s with fab := { s.fab with ports := upd {} s.fab.ports p f } }

/-- States of a port (Table NGV-10). -/
def State.portSt (s : State) (p : Nat) : Nat := s.fld (Reg.portStatus p) 0 3

/-- The lanes of a port that carry codewords, in ascending physical number (PORT_STATUS, R456). -/
def State.portLanes (s : State) (p : Nat) : List Nat := onesOf 8 (s.fld (Reg.portStatus p) 3 8)

/-- Is a port held (R465)? -/
def State.portHeld (s : State) (p : Nat) : Bool :=
  s.sliceSt != 0 && !bitOf (s.reg Reg.slcUplink) p &&
    !(s.fld (Reg.portPeer p) 12 1 == 1 && s.member (s.fld (Reg.portPeer p) 0 12))

/-- Does a port send no TX flit: no id is assigned (R448), or it is held (R465)? -/
def State.portShut (s : State) (p : Nat) : Bool := s.fld Reg.ngvId 12 1 == 0 || s.portHeld p

/-- HCHK: the exclusive or of the four nibbles of header bits [15:0] (Table NGV-2). -/
def headerCheck (v : Nat) : Nat :=
  Nat.xor (Nat.xor (bitsOf v 0 4) (bitsOf v 4 4)) (Nat.xor (bitsOf v 8 4) (bitsOf v 12 4))

/-- The header of a lane's codeword of round `k` (Table NGV-2). -/
def codewordHeader (lane k : Nat) : Nat :=
  let v := lane % 8 + k % 8192 * 8
  v + headerCheck v * 2 ^ 16

/-- R424: the port flit in slot `i` of round `k` on the lane of rank `q` of `nl`. -/
def portFlit (nl k i q : Nat) : Nat := 10 * nl * k + nl * i + q

/-- Where port flit `f` of a port goes: the header of its codeword and its slot in it (R424). -/
def placeOf (lanes : List Nat) (f : Nat) : Nat × Nat :=
  let nl := max 1 lanes.length
  (codewordHeader (nth 0 lanes (f % nl)) (f / (10 * nl)), f / nl % 10)

/-- A flit takes the next slot of its port: it reports up to 15 sequenced flits taken (R427, R428), and one slot more has passed since the last
CREDIT record (R431). -/
def State.putFlit (s : State) (p : Nat) (f : Flit) (seq : Nat) : State :=
  let x := s.port p
  let a := placeOf (s.portLanes p) x.txFlits
  let ack := min 15 x.unreported
  (s.emit (.flit p a.1 a.2 (f.bytes ack seq))).updPort p (fun x =>
    { x with txFlits := x.txFlits + 1, unreported := x.unreported - ack, slots := x.slots + 1 })

/-- A link record takes the next slot (R430). -/
def State.sendRecord (s : State) (p code value : Nat) : State :=
  (s.emit (.link p code value)).putFlit p ⟨3, 0, recordPayload code value⟩ 0

/-! ## What takes the next slot (R428, R431, R432) -/

/-- Flits of a class the partner's buffer has room for (R431). -/
def State.credits (s : State) (p c : Nat) : Nat :=
  16 * s.fld (Reg.portCred p) (8 * c) 8 - (nth 0 (s.port p).sent c + 2 ^ 16 - nth 0 (s.port p).freed c) % 2 ^ 16

/-- Flits sent and not acknowledged, and the room in the replay buffer of 2,048 (R428). -/
def Port.unacked (x : Port) : Nat := (x.txSeq + 2 ^ 16 - x.acked) % 2 ^ 16
def Port.room (x : Port) : Nat := 2048 - x.unacked

/-- Does no class have a flit that waits? -/
def Port.idle (x : Port) : Bool := x.waiting.all List.isEmpty

/-- Does a class have a flit to send and a credit for it (R431)? -/
def State.flitReady (s : State) (p c : Nat) : Bool := !(nth [] (s.port p).waiting c).isEmpty && decide (0 < s.credits p c)

/-- Weight of a class in the round robin (NGV_ARB): classes 0, 1 and 3. A weight of 0 counts as 1 (DESIGN CHOICE, log entry 155). -/
def State.arbWeight (s : State) (c : Nat) : Nat :=
  max 1 (if c = 0 then s.fld Reg.ngvArb 0 8 else if c = 1 then s.fld Reg.ngvArb 8 8 else s.fld Reg.ngvArb 16 8)

/-- The class after another in the round robin. -/
def nextClass (c : Nat) : Nat := if c = 0 then 1 else if c = 1 then 3 else 0

/-- The class whose flit takes the next slot, and the turn after it: control messages first, then weighted round robin (R432). -/
def State.nextFlit (s : State) (p : Nat) : Option (Nat × (Nat × Nat)) :=
  let x := s.port p
  if x.room = 0 || s.portShut p then none
  else if s.flitReady p 2 then some (2, x.turn)
  else if s.flitReady p x.turn.1 && decide (x.turn.2 < s.arbWeight x.turn.1) then some (x.turn.1, (x.turn.1, x.turn.2 + 1))
  else
    ([nextClass x.turn.1, nextClass (nextClass x.turn.1), x.turn.1].find? (s.flitReady p)).map (fun c => (c, (c, 1)))

/-- A flit of a class leaves with the next sequence number, and is kept until it is acknowledged (R428). -/
def State.sendFlit (s : State) (p c : Nat) (turn : Nat × Nat) : State :=
  match nth [] (s.port p).waiting c with
  | [] => s
  | f :: fs =>
    ((s.updPort p (fun x =>
      { x with txSeq := (x.txSeq + 1) % 2 ^ 16
               sent := updNth x.sent c (fun k => (k + 1) % 2 ^ 16)
               waiting := setNth x.waiting c fs
               kept := x.kept ++ [f]
               turn := turn })).putFlit p f (s.port p).txSeq).bump (Reg.portTxFlits p) 1

/-- The flit that is to be sent again next, with its sequence number (R428). -/
def State.nextReplay (s : State) (p : Nat) : Option (Flit × Nat) :=
  let x := s.port p
  if x.resend = 0 || s.portShut p then none
  else (x.kept[x.kept.length - x.resend]?).map (fun f => (f, (x.txSeq + 2 ^ 16 - x.resend) % 2 ^ 16))

/-- The CREDIT record of a port: four 16-bit counts (Table NGV-4). -/
def creditWord (freed : List Nat) : Nat := ((List.range 4).map (fun c => nth 0 freed c % 2 ^ 16 * 2 ^ (16 * c))).sum

/-- Send a CREDIT record: the slots since it are counted anew (R431). -/
def State.sendCredit (s : State) (p : Nat) : State :=
  ((s.updPort p (fun x => { x with told := x.rxFreed })).sendRecord p 1 (creditWord (s.port p).rxFreed)).updPort p (fun x =>
    { x with slots := 0 })

/-- Is a CREDIT record due while flits wait: flits have been freed and 64 slots have passed since the last one (R431)? -/
def Port.creditDue (x : Port) : Bool := x.rxFreed != x.told && !x.idle && decide (64 ≤ x.slots)

/-- What takes the next slot of a port that is UP, after any RETRY record, in the order of R432; none where only an IDLE flit would. -/
def State.nextSlot (s : State) (p : Nat) : Option State :=
  let x := s.port p
  if s.portSt p ≠ 2 then none
  else
    match s.nextReplay p with
    | some (f, seq) => some ((s.updPort p (fun x => { x with resend := x.resend - 1 })).putFlit p f seq)
    | none =>
      if x.creditDue then some (s.sendCredit p)
      else
        match s.nextFlit p with
        | some (c, turn) => some (s.sendFlit p c turn)
        | none => if x.rxFreed != x.told && x.idle then some (s.sendCredit p) else none

/-- Fill slots while something may go. -/
def drainSlots (p : Nat) : Nat → State → State
  | 0, s => s
  | fuel + 1, s =>
    match s.nextSlot p with
    | none => s
    | some s' => drainSlots p fuel s'

/-- Send what may be sent (R432). REPLAY_FULL follows the replay buffer. -/
def State.drainPort (s : State) (p : Nat) : State :=
  let x := s.port p
  let s1 := drainSlots p ((x.waiting.map List.length).sum + x.resend + 2) s
  s1.setFld (Reg.portStatus p) 12 1 (bit ((s1.port p).room == 0))

/-- A flit has come: a slot of the other direction passes with it, at least. What may be sent goes, or an IDLE flit with what is to be reported
(R428, R432): DESIGN CHOICE, log entry 155. -/
def State.answerSlot (s : State) (p : Nat) : State :=
  let s1 := s.drainPort p
  if s.portSt p = 2 && (s1.port p).txFlits == (s.port p).txFlits then s1.putFlit p ⟨0, 0, zeroBytes 60⟩ 0 else s1

/-- A port takes a transaction over. -/
def State.sendOn (s : State) (p op : Nat) (h : Hdr) : State :=
  ((s.emit (.tx p op h)).updPort p (fun x =>
    { x with waiting := updNth x.waiting h.cls (fun fs => fs ++ txFlits op h) })).drainPort p

end Sys2Proof.Machine
end

