-- ==== Sys2Proof/Machine/Fabric.lean ====
section
/-! DEFINITION. The Nganov fabric: routing, requests of this device, and requests that this device executes (R433 to R451, R465 to R467). -/

namespace Sys2Proof.Machine

/-! ## Routing (R450, R451) -/

/-- The ports of the effective mask of a destination and class, ascending (R451, R465, R476). -/
def State.effMask (s : State) (d c : Nat) : List Nat :=
  let e := s.reg (Reg.ngvDest d)
  let useB := bitOf (bitsOf e 44 4) c || (s.sliceSt == 2 && s.member d)
  let m := if useB then bitsOf e 22 22 else bitsOf e 0 22
  if !bitOf e 48 then []
  else (onesOf 22 m).filter (fun p => s.portSt p == 2 && s.fld (Reg.portCtrl p) 1 1 == 1 && !s.portHeld p)

/-- The port on which a transaction leaves (R451); none without a route, or while no id is assigned (R448). -/
def State.routeTo (s : State) (d c sel : Nat) : Option Nat :=
  let ps := s.effMask d c
  if s.fld Reg.ngvId 12 1 = 0 || ps.isEmpty then none else some (nth 0 ps (sel % ps.length))

/-! ## Requests of this device (R433 to R437) -/

/-- A DMA descriptor of a core. -/
def State.desc? (s : State) (core q idx : Nat) : Option DmaDesc :=
  (((s.core core).dq[q]?).getD {}).descs.find? (fun d => d.idx == idx)

/-- Is the opcode one of a READ's tag space? -/
def readSpace (op : Nat) : Bool := op == 1

/-- The lowest free tag of a space (R436). -/
def State.freeTag (s : State) (rd : Bool) : Option Nat :=
  let used := (s.fab.outs.filter (fun t => t.sent && t.done.isNone && readSpace t.op == rd)).map (fun t => t.hdr.tag) ++
    (s.fab.held.filter (fun h => h.1 == rd)).map Prod.snd
  (List.range 4096).find? (fun k => !used.contains k)

/-- Append a request to the outstanding ones. -/
def State.addTx (s : State) (t : FabTx) : State := { s with fab := { s.fab with outs := s.fab.outs ++ [t] } }

/-- A header of this device's own request: its id as SRC, HOPS_INIT as HOPS. -/
def State.ownHdr (s : State) (cls dst addr lines turn att asub : Nat) (data : List Byte) : Hdr :=
  { cls := cls, fence := false, tag := 0, src := s.devId, dst := dst, lines := lines, att := att, asub := asub
    status := 0, addr := addr, turn := turn % 4096, hops := s.fld Reg.ngvCfg 24 4, data := data }

/-- Split `lines` lines from `addr` into transactions of at most 256 lines that cross no 8 KiB boundary: offset in bytes,
address, lines (R435). -/
def pieces : Nat → Nat → Nat → Nat → List (Nat × Nat × Nat)
  | 0, _, _, _ => []
  | fuel + 1, addr, lines, off =>
    if lines = 0 then []
    else
      let n := min lines ((8192 - addr % 8192) / 32)
      if n = 0 then [] else (off, addr, n) :: pieces fuel (addr + 32 * n) (lines - n) (off + 32 * n)

/-- The requests of an owner. -/
def State.txOf (s : State) (o : TxOwner) : List FabTx := s.fab.outs.filter (fun t => t.owner == o)

/-- Drop an owner's requests once they have served. -/
def State.dropTx (s : State) (o : TxOwner) : State :=
  { s with fab := { s.fab with outs := s.fab.outs.filter (fun t => t.owner != o) } }

/-- Have all of an owner's requests their responses? -/
def allDone (ts : List FabTx) : Bool := ts.all (fun t => t.done.isSome)

/-- The status of the earliest-issued failing request (R435). -/
def failOf (ts : List FabTx) : Option Status :=
  ts.findSome? (fun t => match t.done with
    | some .ok => none
    | x => x)

/-! ## Requests executed here (R438 to R447) -/

/-- The outstanding request of a tag, with its response. -/
def State.answered (s : State) (rd : Bool) (tag : Nat) (st : Status) (data : List Byte) : Option (State × FabTx) :=
  (s.fab.outs.find? (fun t => t.sent && t.done.isNone && readSpace t.op == rd && t.hdr.tag == tag)).map (fun t =>
    let t' := { t with done := some st, got := data }
    ({ s with fab := { s.fab with outs := s.fab.outs.map (fun u => if u = t then t' else u) } }, t'))

/-- A response that no request waits for: one of a timed-out tag is counted (R437). -/
def State.lateRsp (s : State) (rd : Bool) (tag : Nat) : State :=
  if s.fab.held.contains (rd, tag) then s.bump Reg.ngvLateRspCnt 1 else s

/-- The data of a plain GET goes to data memory as its READs are answered (R435). -/
def State.takeData (s : State) (t : FabTx) : State :=
  match t.owner with
  | .dma core q idx =>
    match s.desc? core q idx with
    | some d =>
      if d.kind = 0 && d.plate.isNone && readSpace t.op && t.done == some .ok then
        { s with mem := s.mem.write (dmAddr core (d.dmAddr + t.off)) t.got }
      else s
    | none => s.dropTx t.owner
  | _ => s

/-- Answer a request: the response goes back in the request's class under its TAG (R434, R451). One without a route is not sent; a sent
failure counts. A READ of this device's own uses no port (R448). -/
def State.respond (s : State) (op : Nat) (h : Hdr) (st : Status) (data : List Byte) : State :=
  if h.src = s.devId then
    match s.answered (readSpace op) h.tag st data with
    | none => s.lateRsp (readSpace op) h.tag
    | some (s1, t) => s1.takeData t
  else
    let s1 := if st = .ok then s.bump Reg.ngvRxCnt 1 else s
    match s1.routeTo h.src h.cls h.tag with
    | none => s1
    | some p =>
      (if st = .ok then s1 else s1.bump Reg.ngvRejectCnt 1).sendOn p (if op = 1 then 8 else 9)
        { h with fence := false, src := s.devId, dst := h.src, lines := data.length / 32 - 1, status := statusCode st, att := 0, asub := 0
                 turn := 0, addr := 0, hops := s.fld Reg.ngvCfg 24 4, data := data }

/-- Lane-by-lane addition of 32-bit words (R440, R444). -/
def addWords (fp : Bool) (x y : List Byte) : List Byte :=
  ((wordsOf (x.length / 4) x).zip (wordsOf (y.length / 4) y)).flatMap (fun p =>
    leBytes 4 (if fp then fpAdd p.1 p.2 else p.1 + p.2).toNat)

/-- Fields of a reduction context (Table NGV-7). -/
def State.ctx (s : State) (c lo len : Nat) : Nat := s.fld (Reg.ngvRctx c) lo len
def State.setCtx (s : State) (c lo len v : Nat) : State := s.setFld (Reg.ngvRctx c) lo len v

/-- Rank of a device in a context's source list (R443). -/
def State.rankOf (s : State) (c src : Nat) : Option Nat :=
  (List.range (s.ctx c 3 6 + 1)).find? (fun r => s.ctx c (512 + 12 * r) 12 == src)

/-- Is the tag (turn, att) newer than, equal to or older than the context's (R445)? -/
def State.tagOrder (s : State) (c turn att : Nat) : Ordering :=
  let d := (turn + 4096 - s.ctx c 192 12) % 4096
  if decide (1 ≤ d ∧ d ≤ 2047) || (d == 0 && decide (s.ctx c 204 2 < att)) then .gt
  else if d == 0 && att == s.ctx c 204 2 then .eq
  else .lt

/-- The first of two statuses that is a failure. -/
def firstOf (a b : Status) : Status := if a = .ok then b else a

/-- Fold one contribution's data into OUT (R444). -/
def State.foldInto (s : State) (c : Nat) (data : List Byte) (first : Bool) : State × Status :=
  let out := s.ctx c 64 48
  if first then s.writeLocal out data
  else
    let r := s.readLocal out data.length
    if r.2.1 = .ok then r.1.writeLocal out (addWords (s.ctx c 1 2 == 0) r.2.2 data) else (r.1, r.2.1)

/-- Fold parked contributions while the next rank has arrived (R444). -/
def State.foldParked (c len : Nat) : Nat → State × Status → State × Status
  | 0, x => x
  | fuel + 1, (s, st) =>
    let next := s.ctx c 208 7
    if s.ctx c 3 6 < next || s.ctx c (256 + next) 1 = 0 then (s, st)
    else
      let p := s.readLocal (s.ctx c 128 48 + (next - 1) * len) len
      let f := if p.2.1 = .ok then p.1.foldInto c p.2.2 false else (p.1, p.2.1)
      foldParked c len fuel (f.1.setCtx c 208 7 (next + 1), firstOf st f.2)

/-- A READ of an aperture is answered from OUT at the same offset (R447). -/
def State.answerHeld (s : State) (c : Nat) (h : Hdr) : State :=
  let r := s.readLocal (s.ctx c 64 48 + h.addr % 0x2000) (32 * (h.lines + 1))
  r.1.respond 1 h r.2.1 (if r.2.1 = .ok then r.2.2 else [])

/-- Context of an aperture address. -/
def ctxOf (a : Nat) : Nat := (a - apertureBase 0) / 0x2000

/-- Settle the held READs of a context: answered when COMPLETE under their tag, refused when a newer tag was adopted (R447). -/
def State.settleHeld (s : State) (c : Nat) : State :=
  s.fab.heldReads.foldl (fun s h =>
    if ctxOf h.addr ≠ c then s
    else
      let gone := { s with fab := { s.fab with heldReads := s.fab.heldReads.filter (fun x => x != h) } }
      match s.tagOrder c h.turn h.att with
      | .lt => gone.respond 1 h .eRange []
      | .eq => if s.ctx c 206 2 = 2 then gone.answerHeld c h else s
      | .gt => s) s

/-- A REDUCE whose fold met a sector or line that cannot be read has no effect (R438): the context, OUT and PARK are as they were, and the
failed read stays counted. -/
def State.undoReduce (s : State) (c : Nat) (t : State) : State :=
  { t.setReg (Reg.ngvRctx c) (s.reg (Reg.ngvRctx c)) with
    mem := s.mem, vpoison := s.vpoison, verr := s.verr, gpoison := s.gpoison, gerr := s.gerr, gword := s.gword, gacc := s.gacc }

/-- R444: contribution `r` is folded, with the parked ones behind it, or parked. -/
def State.addRank (s : State) (c r : Nat) (d : List Byte) : State × Status :=
  if r = s.ctx c 208 7 then
    let f := s.foldInto c d (r == 0)
    if f.2 = .ok then State.foldParked c d.length 64 (f.1.setCtx c 208 7 (r + 1), .ok) else f
  else s.writeLocal (s.ctx c 128 48 + (r - 1) * d.length) d

/-- R443 to R445: the status of a REDUCE, and the state after it. The context adopts a newer tag first. -/
def State.reduce (s : State) (src addr lines turn att : Nat) (data : List Byte) : State × Status :=
  let c := ctxOf addr
  let len := 32 * (s.ctx c 9 8 + 1)
  if s.ctx c 0 1 = 0 || addr % 0x2000 ≠ 0 || lines ≠ s.ctx c 9 8 then (s, .eRange)
  else
    match s.rankOf c src with
    | none => (s, .ePerm)
    | some r =>
      let order := s.tagOrder c turn att
      let fresh := s.ctx c 206 2 == 0 || order == .gt
      if !fresh && order == .lt then (s.bump Reg.ngvRedStaleCnt 1, .eRange)
      else if !fresh && s.ctx c (256 + r) 1 == 1 then (s, .eRange)
      else
        let s1 := if fresh then
            ((((s.setCtx c 256 64 0).setCtx c 208 7 0).setCtx c 192 12 turn).setCtx c 204 2 att).setCtx c 206 2 1
          else s
        let x := s1.addRank c r ((data ++ zeroBytes len).take len)
        if x.2 ≠ .ok then (s.undoReduce c x.1, x.2)
        else
          let s3 := x.1.setCtx c (256 + r) 1 1
          let s4 := if s3.ctx c 208 7 = s3.ctx c 3 6 + 1 then s3.setCtx c 206 2 2 else s3
          (s4.settleHeld c, .ok)

/-- R447: what a READ of an aperture meets: `none` while it is held. One of lines that the context's result does not have is out of range
(DESIGN CHOICE, log entry 181). -/
def State.readCtx (s : State) (h : Hdr) : Option Status :=
  let c := ctxOf h.addr
  if s.ctx c 0 1 = 0 || decide (32 * (s.ctx c 9 8 + 1) < h.addr % 0x2000 + 32 * (h.lines + 1)) then some .eRange
  else if s.ctx c 206 2 = 0 then none
  else
    match s.tagOrder c h.turn h.att with
    | .lt => some .eRange
    | .eq => if s.ctx c 206 2 = 2 then some .ok else none
    | .gt => none

/-- A READ of an aperture: answered, refused, or held (R447). -/
def State.readAperture (s : State) (h : Hdr) : State :=
  match s.readCtx h with
  | none => { s with fab := { s.fab with heldReads := s.fab.heldReads ++ [h] } }
  | some .ok => s.answerHeld (ctxOf h.addr) h
  | some st => s.respond 1 h st []

/-! ## Sending requests (R436, R437, R439, R448) -/

/-- Must a request wait for an earlier one: it has FENCE set and the earlier one, of its issuer, class and target, has no response; or the
earlier one, to the same page of the target in the same class, has not been sent (R439)? -/
def FabTx.waitsFor (t e : FabTx) : Bool :=
  e.done.isNone && e.hdr.dst == t.hdr.dst && e.hdr.cls == t.hdr.cls &&
    ((t.hdr.fence && e.owner == t.owner) || (!e.sent && e.hdr.addr / 8192 == t.hdr.addr / 8192))

/-- Give a request that waits behind `earlier` its tag and send it (R436, R451). One for this device itself is executed here (R448). -/
def State.startTx (s : State) (earlier : List FabTx) (t : FabTx) : State × FabTx :=
  if earlier.any t.waitsFor then (s, t)
  else
    let own := t.hdr.dst == s.devId
    match (if own then some 0 else s.routeTo t.hdr.dst t.hdr.cls (t.hdr.addr / 8192)), s.freeTag (readSpace t.op) with
    | none, _ => (s, { t with sent := true, done := some .eTopology })
    | _, none => (s, t)
    | some p, some k =>
      let h := { t.hdr with tag := k }
      (if own then s else (s.sendOn p t.op h).bump Reg.ngvTxCnt 1, { t with hdr := h, sent := true })

/-- A request of this device that has been sent to the device itself: the READ of an aperture (R435, R447). -/
def State.runOwn (s : State) (t : FabTx) : State :=
  if t.sent && t.done.isNone && t.hdr.dst == s.devId then s.readAperture t.hdr else s

/-- Issue one request. -/
def State.issueTx (s : State) (op : Nat) (h : Hdr) (owner : TxOwner) (off : Nat) : State :=
  let x := s.startTx s.fab.outs { op := op, hdr := h, owner := owner, off := off, sent := false, done := none, got := [] }
  (x.1.addTx x.2).runOwn x.2

/-- Issue READs for a span of another device; `off` is where its bytes lie in the owner's transfer. -/
def State.issueReads (s : State) (cls dst addr lines turn att : Nat) (owner : TxOwner) (off : Nat := 0) : State :=
  (pieces (lines + 1) addr lines off).foldl (fun s p =>
    s.issueTx 1 (s.ownHdr cls dst p.2.1 (p.2.2 - 1) turn att 0 []) owner p.1) s

/-- Issue WRITEs, or REDUCEs, of bytes to another device. -/
def State.issueWrites (s : State) (op cls dst addr turn att : Nat) (data : List Byte) (owner : TxOwner) : State :=
  (pieces (data.length + 1) addr (data.length / 32) 0).foldl (fun s p =>
    s.issueTx op (s.ownHdr cls dst p.2.1 (p.2.2 - 1) turn att 0 ((data.drop p.1).take (32 * p.2.2))) owner p.1) s

/-- The bytes of a request, padded or cut to its LINES; the 8 bytes of an index entry stand alone (R325, log entry 142). -/
def bodyOf (h : Hdr) : List Byte :=
  if h.data.length = 8 then h.data else (h.data ++ zeroBytes (32 * (h.lines + 1))).take (32 * (h.lines + 1))

/-- Does a request reach this device's transaction layer: an id is assigned, the port is UP, and the request is for it? -/
def State.arrives (s : State) (p : Nat) (h : Hdr) : Bool :=
  s.fld Reg.ngvId 12 1 == 1 && s.portSt p == 2 && h.dst == s.devId && h.src != s.devId

/-- Take a request from a port: a held port drops it and counts it (R465). -/
def State.onPort (s : State) (p : Nat) (h : Hdr) (f : State → State) : State :=
  if !s.arrives p h then s else if s.portHeld p then s.bump Reg.slcDropCnt 1 else f s

/-- R434, R438, R447: a READ executes. -/
def State.takeRead (s : State) (p : Nat) (h : Hdr) : State :=
  s.onPort p h (fun s =>
    let len := 32 * (h.lines + 1)
    if inApertures h.addr then
      if s.mayReach (.remote h.src) false h.addr len = some false then s.respond 1 h .ePerm [] else s.readAperture h
    else
      let r := s.getLocal (.remote h.src) h.addr len
      r.1.respond 1 h r.2.1 (if r.2.1 = .ok then r.2.2 else []))

def execRead (port : BitVec 5) (h : Hdr) (s : State) : Host.Outcome State Fault Refusal := .next (s.takeRead port.toNat h)

/-- R434, R438: a WRITE executes. -/
def State.takeWrite (s : State) (p : Nat) (h : Hdr) : State :=
  s.onPort p h (fun s =>
    let r := s.putLocal (.remote h.src) h.addr (bodyOf h)
    r.1.respond 2 h r.2 [])

def execWrite (port : BitVec 5) (h : Hdr) (s : State) : Host.Outcome State Fault Refusal := .next (s.takeWrite port.toNat h)

/-- R440: an ATOMIC_ADD adds into the words at its address; ASUB 0 INT32, 1 FP32. -/
def State.takeAtomicAdd (s : State) (p : Nat) (h : Hdr) : State :=
  s.onPort p h (fun s =>
    let len := 32 * (h.lines + 1)
    match s.localCheck (.remote h.src) true h.addr len with
    | some st => s.respond 3 h st []
    | none =>
      let r := s.readLocal h.addr len
      if r.2.1 ≠ .ok then r.1.respond 3 h r.2.1 []
      else
        let w := r.1.writeLocal h.addr (addWords (h.asub == 1) r.2.2 (bodyOf h))
        w.1.respond 3 h w.2 [])

def execAtomicAdd (port : BitVec 5) (h : Hdr) (s : State) : Host.Outcome State Fault Refusal := .next (s.takeAtomicAdd port.toNat h)

/-- The checks of a COPY in the order of R438: the requester may do more than READ here, a destination on this device is not golden or
weights, and source and destination are in range. -/
def State.copyChecks (s : State) (src addr len g : Nat) : Option Status :=
  let dst := bitsOf g 0 48
  let own := bitsOf g 52 12 == s.devId
  firstCheck [(s.mayReach (.remote src) true addr len != some true, .ePerm), (own && (s.inGold dst len || s.inWeights dst len), .ePerm),
    (!s.inRange addr len || g % 32 != 0 || bitsOf g 48 4 != 0 || (own && !s.inRange dst len), .eRange)]

/-- R441: a COPY reads lines here and writes them to a global address; its ACK waits for those WRITEs. -/
def State.takeCopy (s : State) (p : Nat) (h : Hdr) : State :=
  s.onPort p h (fun s =>
    let len := 32 * (h.lines + 1)
    let g := leNat (h.data.take 8)
    let dev := bitsOf g 52 12
    let dst := bitsOf g 0 48
    match s.copyChecks h.src h.addr len g with
    | some x => s.respond 4 h x []
    | none =>
      let r := s.readLocal h.addr len
      if r.2.1 ≠ .ok then r.1.respond 4 h r.2.1 []
      else if dev = s.devId then
        (let w := r.1.writeLocal dst r.2.2
         w.1.respond 4 h w.2 [])
      else
        let o := TxOwner.copyFor h.src h.tag h.cls
        let s1 := r.1.issueWrites 2 h.cls dev dst 0 0 r.2.2 o
        if allDone (s1.txOf o) then
          (s1.dropTx o).respond 4 h ((failOf (s1.txOf o)).getD .ok) []
        else s1)

def execCopy (port : BitVec 5) (h : Hdr) (s : State) : Host.Outcome State Fault Refusal := .next (s.takeCopy port.toNat h)

/-- R438, R443 to R445: a REDUCE is folded, parked or refused. -/
def State.takeReduce (s : State) (p : Nat) (h : Hdr) : State :=
  s.onPort p h (fun s =>
    let len := 32 * (h.lines + 1)
    if s.mayReach (.remote h.src) true h.addr len = some false || s.inGold h.addr len || s.inWeights h.addr len then s.respond 5 h .ePerm []
    else if !inApertures h.addr then s.respond 5 h .eRange []
    else
      let x := s.reduce h.src h.addr h.lines h.turn h.att (bodyOf h)
      x.1.respond 5 h x.2 [])

def execReduce (port : BitVec 5) (h : Hdr) (s : State) : Host.Outcome State Fault Refusal := .next (s.takeReduce port.toNat h)

/-- A SIGNAL's value is added to its counter, and the Dealer mailbox gets an entry (R442). -/
def State.signal (s : State) (c v : Nat) : State :=
  let s1 := s.setReg (Reg.ngvSig c) ((s.reg (Reg.ngvSig c) + v) % 2 ^ 32)
  { s1 with dlr := { s1.dlr with mailbox := s1.dlr.mailbox ++ [(c, v)] } }

/-- R442: a SIGNAL adds to a signal counter and posts to the Dealer mailbox. -/
def State.takeSignal (s : State) (p : Nat) (h : Hdr) : State :=
  s.onPort p h (fun s =>
    if s.mayReach (.remote h.src) true 0 32 = some false then s.respond 6 h .ePerm []
    else (s.signal (h.addr % 256) (h.addr / 256 % 2 ^ 32)).respond 6 h .ok [])

def execSignal (port : BitVec 5) (h : Hdr) (s : State) : Host.Outcome State Fault Refusal := .next (s.takeSignal port.toNat h)

/-! ## Responses (R434 to R437) -/

/-- Status of a response's code. -/
def statusOf (n : Nat) : Status :=
  ([.ok, .eArg, .eRange, .eAlign, .eState, .eBusy, .eNoroom, .eLate, .ePerm, .eTopology, .eDeadline, .eMedia, .eFault,
    .eCancelled, .eUnsupported, .eTimeout] : List Status).getD n .eFault

/-- The zeroing of a slot on another device has failed (R360, R377): a move into that slot fails, and a new plate there is lost (log entry
145). -/
def State.zeroFailed (s : State) (seq key : Nat) : State :=
  if s.plt.moves.any (fun x => x.seq == seq && x.key == key) then
    { s with plt := { s.plt with failed := (seq, key, .moveWrite) :: s.plt.failed } }
  else s.losePlate seq key

/-- Deliver what a response brings to its owner; a COPY's last WRITE lets its ACK go. -/
def State.deliver (s : State) (t : FabTx) : State :=
  let ts := s.txOf t.owner
  match t.owner with
  | .dma _ _ _ => s.takeData t
  | .copyFor src tag cls =>
    if allDone ts && !ts.isEmpty then
      (s.dropTx t.owner).respond 4 (s.ownHdr cls s.devId 0 0 0 0 0 [] |> fun h => { h with tag := tag, src := src })
        ((failOf ts).getD .ok) []
    else s
  | .dealer => { s with fab := { s.fab with outs := s.fab.outs.filter (fun u => u.owner != .dealer || u.done.isNone) } }
  | .plate seq key use =>
    if use = .zero && allDone ts && !ts.isEmpty then
      (if (failOf ts).isSome then (s.dropTx t.owner).zeroFailed seq key else s.dropTx t.owner)
    else s

/-- Send the requests that waited for a tag or an earlier response, in issue order; one without a route fails. -/
def State.sendWaiting (s : State) : State :=
  let s1 := (List.range s.fab.outs.length).foldl (fun s k =>
    match s.fab.outs[k]? with
    | none => s
    | some t =>
      if t.sent then s
      else
        let x := s.startTx (s.fab.outs.take k) t
        ({ x.1 with fab := { x.1.fab with outs := setNth x.1.fab.outs k x.2 } }).runOwn x.2) s
  (s1.fab.outs.filter (fun t => t.done.isSome && !s.fab.outs.contains t)).foldl State.deliver s1

/-- A request gets its response or its failure. -/
def State.finishTx (s : State) (rd : Bool) (tag : Nat) (st : Status) (data : List Byte) : State :=
  match s.answered rd tag st data with
  | none => s.lateRsp rd tag
  | some (s1, t) => (s1.deliver t).sendWaiting

/-- R434: a read response reaches the requester. -/
def State.takeRdrsp (s : State) (p : Nat) (h : Hdr) : State :=
  s.onPort p h (fun s => s.finishTx true h.tag (statusOf h.status) h.data)

def execRdrsp (port : BitVec 5) (h : Hdr) (s : State) : Host.Outcome State Fault Refusal := .next (s.takeRdrsp port.toNat h)

/-- R434: the completion of a non-read request reaches the requester. -/
def State.takeAck (s : State) (p : Nat) (h : Hdr) : State :=
  s.onPort p h (fun s => s.finishTx false h.tag (statusOf h.status) [])

def execAck (port : BitVec 5) (h : Hdr) (s : State) : Host.Outcome State Fault Refusal := .next (s.takeAck port.toNat h)

/-- R437: a request gets no response within TX_TIMEOUT; its tag stays out of use. -/
def execTransactionTimeout (rd : Bool) (tag : BitVec 12) (s : State) : Host.Outcome State Fault Refusal :=
  .next <| if s.fab.outs.any (fun t => t.sent && t.done.isNone && readSpace t.op == rd && t.hdr.tag == tag.toNat) then
      let s1 := { s with fab := { s.fab with
        held := (rd, tag.toNat) :: s.fab.held
        heldReads := s.fab.heldReads.filter (fun h => !(rd && h.src == s.devId && h.tag == tag.toNat)) } }
      (s1.finishTx rd tag.toNat .eTimeout []).bump Reg.ngvTimeoutCnt 1
    else s

/-- R437: a timed-out tag returns to use. -/
def execTagHoldExpiry (rd : Bool) (tag : BitVec 12) (s : State) : Host.Outcome State Fault Refusal :=
  .next ({ s with fab := { s.fab with held := s.fab.held.filter (fun h => h != (rd, tag.toNat)) } }.sendWaiting)

/-! ## Messages of Dealer firmware (R404, R435, R439, R442) -/

/-- Send a control message of a kind to a device: a SIGNAL in class 2, with FENCE where it must follow earlier writes. Its counter is the
kind and its value says what the message is about: DESIGN CHOICE, log entry 175. -/
def State.sendCtrl (s : State) (d kind value : Nat) (fence : Bool) : State :=
  let s1 := s.emit (.ctrl d kind value)
  if d = s.devId then s1.signal kind value
  else
    let s2 := s1.issueTx 6 { s1.ownHdr 2 d (kind % 256 + value % 2 ^ 32 * 256) 0 0 0 0 [] with fence := fence } .dealer 0
    { s2 with fab := { s2.fab with outs := s2.fab.outs.filter (fun u => u.owner != .dealer || u.done.isNone) } }

/-! ## Transit (R451, R453, R466) -/

/-- Is the opcode that of a request (Table NGV-6)? -/
def isRequest (op : Nat) : Bool := decide (1 ≤ op) && decide (op ≤ 6)

/-- Is the opcode one that is not used (Table NGV-6)? -/
def unusedOp (op : Nat) : Bool := op == 0 || op == 7 || decide (10 ≤ op)

/-- R434, R453, R466: a transaction for another device is forwarded or dropped; one for this device under an opcode that is not used is
dropped and counted. -/
def State.takeTransit (s : State) (p o : Nat) (h : Hdr) : State :=
  if s.fld Reg.ngvId 12 1 = 0 || s.portSt p ≠ 2 || (h.dst = s.devId && !unusedOp o) then s
  else if s.portHeld p then s.bump Reg.slcDropCnt 1
  else if h.dst = s.devId then s.bump Reg.ngvRejectCnt 1
  else
    let back := fun (s : State) (st : Status) => if isRequest o then s.respond o h st [] else s
    if s.sliceSt = 0 || !(s.member h.src && s.member h.dst) then back (s.bump Reg.slcDropCnt 1) .ePerm
    else if h.hops = 0 then s.bump Reg.ngvTtlDropCnt 1
    else
      match s.routeTo h.dst h.cls (if isRequest o then h.addr / 8192 else h.tag) with
      | none => back s .eTopology
      | some q => s.sendOn q o { h with hops := h.hops - 1 }

def execTransitForward (port : BitVec 5) (op : BitVec 4) (h : Hdr) (s : State) : Host.Outcome State Fault Refusal :=
  .next (s.takeTransit port.toNat op.toNat h)

/-- A transaction whose last flit has come on a port (R427, R434). -/
def State.takeTx (s : State) (p op : Nat) (h : Hdr) : State :=
  if h.dst ≠ s.devId || unusedOp op then s.takeTransit p op h
  else if op = 1 then s.takeRead p h
  else if op = 2 then s.takeWrite p h
  else if op = 3 then s.takeAtomicAdd p h
  else if op = 4 then s.takeCopy p h
  else if op = 5 then s.takeReduce p h
  else if op = 6 then s.takeSignal p h
  else if op = 8 then s.takeRdrsp p h
  else s.takeAck p h

end Sys2Proof.Machine
end

