-- ==== Sys2Proof/Machine/Link.lean ====
section
/-! DEFINITION. The link layer's events and the port and destination registers (R423 to R432, R449 to R459, R618). -/

namespace Sys2Proof.Machine

/-! ## Retry and retrain (R428, R429, R458) -/

/-- Enter RETRAIN (R429, R458): replay buffer and sequence counters stay. -/
def State.enterRetrain (s : State) (p : Nat) : State :=
  if s.portSt p ≠ 2 then s else (s.setFld (Reg.portStatus p) 0 3 3).bump (Reg.portRetrainCnt p) 1

/-- Send again from a flit onward, in order (R428). -/
def State.resendFrom (s : State) (p seq : Nat) : State :=
  (s.updPort p (fun x => { x with resend := min x.kept.length ((x.txSeq + 2 ^ 16 - seq) % 2 ^ 16) })).drainPort p

/-- Replay from a flit; RETRY_LIMIT replays of one flit without progress make the port retrain (R428, R429). A held port sends no TX flit
(R465). -/
def State.replayFrom (s : State) (p seq : Nat) : State :=
  if s.portHeld p then s
  else
    let x := s.port p
    let n := if x.replayed = seq then x.replays + 1 else 1
    let s1 := (s.updPort p (fun x => { x with replayed := seq, replays := n })).bump (Reg.portRetryCnt p) 1
    if s.fld Reg.ngvCfg 8 8 ≤ n then s1.enterRetrain p else s1.resendFrom p seq

/-- R428: a RETRY record names a flit that the sender has not had acknowledged; the sender replays from it. -/
def State.takeRetry (s : State) (p expected : Nat) : State :=
  let x := s.port p
  if s.portSt p = 2 && decide ((expected + 2 ^ 16 - x.acked) % 2 ^ 16 < x.unacked) then s.replayFrom p expected else s

def execRetry (port : BitVec 5) (expected : BitVec 16) (s : State) : Host.Outcome State Fault Refusal :=
  .next (s.takeRetry port.toNat expected.toNat)

/-- R428: the receiver repeats its RETRY every 1 µs until the expected flit arrives. -/
def execRetryRepeat (port : BitVec 5) (s : State) : Host.Outcome State Fault Refusal :=
  let p := port.toNat
  .next (if s.portSt p = 2 && (s.port p).discarding then s.sendRecord p 2 (s.port p).rxSeq else s)

/-- R429: the oldest unacknowledged flit has waited RETRY_TMR. -/
def execReplayTimeout (port : BitVec 5) (s : State) : Host.Outcome State Fault Refusal :=
  let p := port.toNat
  .next (if s.portSt p = 2 && (s.port p).txSeq != (s.port p).acked then s.replayFrom p (s.port p).acked else s)

/-! ## Training (R429, R449, R456 to R458) -/

/-- IDENT as it leaves on a port: id, validity, port and lanes; the serial travels with it (R430, R449). -/
def State.sendIdent (s : State) (p : Nat) : State :=
  s.sendRecord p 3 (s.reg Reg.ngvSerial % 2 ^ 64 + s.reg Reg.ngvId % 2 ^ 13 * 2 ^ 64 + p * 2 ^ 80 + s.fld (Reg.portStatus p) 3 8 * 2 ^ 88)

/-- Start a full training: what was in the replay and receive buffers is lost (R456, R458). -/
def State.startTraining (s : State) (p : Nat) : State :=
  let x := s.port p
  let s1 := s.updPort p (fun x => { trained := x.trained + 1, peerLanes := 0 })
  let s2 := s1.setReg (Reg.portStatus p) 1
  if x.trained = 0 then s2 else s2.bump (Reg.portRetrainCnt p) 1

/-- The port goes DOWN (R458); the event is logged (R526), its lanes' budget exhausted (Tables FLT-5, FLT-7; log entry 186). -/
def State.portDown (s : State) (p : Nat) : State :=
  let s1 := (s.updPort p (fun x => { trained := x.trained, downTick := s.reg Reg.glbTicks })).setReg (Reg.portStatus p) 4
  s1.logFault { src := srcPort, code := 4, loc := p, action := 6 }

/-- Do the fabric lanes train: PLL4 is locked and set as Table CLK-4 states (R585, R587, R592), and no thermal trip has stopped the SerDes
(R602)? -/
def State.linesTrain (s : State) : Bool :=
  s.fld Reg.pwrStatus 20 1 == 0 && s.fld Reg.clkStatus 4 1 == 1 && s.reg (Reg.clkPllCfg 4) == 2 + 4 + 170 * 8

/-- R429: a retrain starts when lane alignment is lost, and ends UP with a replay from the oldest unacknowledged flit, or in a
full training, as it does while the lanes have no clock to train from (R587). That replay is not one of the RETRY_LIMIT: DESIGN CHOICE, log
entry 180. -/
def execPortRetrain (port : BitVec 5) (ended : Option Bool) (s : State) : Host.Outcome State Fault Refusal :=
  let p := port.toNat
  .next <| match ended with
    | none => s.enterRetrain p
    | some true =>
      if s.portSt p ≠ 3 then s
      else if s.linesTrain then
        let s1 := (s.setFld (Reg.portStatus p) 0 3 2).updPort p (fun x => { x with replays := 0, lastRound := [], rounds := [] })
        if (s1.port p).unacked = 0 || s1.portHeld p then s1.drainPort p
        else (s1.bump (Reg.portRetryCnt p) 1).resendFrom p (s1.port p).acked
      else s.startTraining p
    | some false => if s.portSt p = 3 then s.startTraining p else s

/-- R457: the partner's usable lanes. -/
def execLanes (port : BitVec 5) (lanes : BitVec 8) (s : State) : Host.Outcome State Fault Refusal :=
  let p := port.toNat
  .next (if s.portSt p = 1 then s.updPort p (fun x => { x with peerLanes := lanes.toNat }) else s)

/-- R456, R457: training ends. Where it has passed, the lanes this end can use have gone to the partner in a LANES record; with the partner's the
port comes UP on 8 lanes or on the lowest 6 that both ends agree on, or goes DOWN, as it does with PLL4 off its setting (R587). -/
def execPortTraining (port : BitVec 5) (passed : Bool) (usable : BitVec 8) (s : State) : Host.Outcome State Fault Refusal :=
  let p := port.toNat
  .next <| if s.portSt p ≠ 1 then s
    else
      let mine := Nat.land usable.toNat (s.fld (Reg.portCtrl p) 2 8)
      let both := onesOf 8 (Nat.land mine (s.port p).peerLanes)
      let s0 := if passed then s.emit (.link p 4 mine) else s
      if !passed || !s.linesTrain || decide (both.length < 6) then s0.portDown p
      else
        let six := decide (both.length < 8)
        let lanes := ((if six then both.take 6 else both).map (fun l => 2 ^ l)).sum
        let s1 := (s0.updPort p (fun x => { trained := x.trained, peerLanes := x.peerLanes })).setReg (Reg.portStatus p)
          (2 + lanes * 2 ^ 3 + bit six * 2 ^ 11)
        let s2 := (s1.setFld (Reg.portPeer p) 18 1 0).sendIdent p
        if six then s2.logFault { src := srcPort, code := 2, loc := p } else s2

/-- R456: a DOWN port trains again, every 64 ticks. -/
def execPortDownRetry (port : BitVec 5) (s : State) : Host.Outcome State Fault Refusal :=
  let p := port.toNat
  .next (if s.portSt p = 4 && s.fld (Reg.portCtrl p) 0 1 == 1 && s.fld (Reg.portPrbs p) 0 1 == 0 &&
      s.fld Reg.pwrStatus 0 2 == 0 && decide ((s.port p).downTick + 64 ≤ s.reg Reg.glbTicks)
    then s.startTraining p else s)

/-! ## Records (R430, R431, R449) -/

/-- R431: the partner's cumulative counts of freed buffer flits. -/
def State.takeCredit (s : State) (p : Nat) (counts : List Nat) : State :=
  if s.portSt p = 2 then (s.updPort p (fun x => { x with freed := counts })).drainPort p else s

def execCredit (port : BitVec 5) (c0 c1 c2 c3 : BitVec 16) (s : State) : Host.Outcome State Fault Refusal :=
  .next (s.takeCredit port.toNat [c0.toNat, c1.toNat, c2.toNat, c3.toNat])

/-- R449: the partner's identity. -/
def State.takeIdent (s : State) (p serial id : Nat) (valid : Bool) (peerPort : Nat) : State :=
  if s.portSt p = 2 then
    (s.setReg (Reg.portPeer p) (id + bit valid * 2 ^ 12 + peerPort * 2 ^ 13 + 2 ^ 18)).setReg (Reg.portPeerSerial p) serial
  else s

def execIdent (port : BitVec 5) (serial : BitVec 64) (id : BitVec 12) (valid : Bool) (peerPort : BitVec 5) (s : State) :
    Host.Outcome State Fault Refusal :=
  .next (s.takeIdent port.toNat serial.toNat id.toNat valid peerPort.toNat)

/-- R430, R449: an ECHO of the partner is returned at once; the device's own comes back after `rtt` ns. -/
def State.takeEcho (s : State) (p stamp : Nat) (rtt : Option Nat) : State :=
  if s.portSt p = 2 then
    (match rtt with
      | none => s.sendRecord p 5 stamp
      | some n => s.setReg (Reg.portRtt p) n)
  else s

def execEcho (port : BitVec 5) (stamp : BitVec 64) (rtt : Option (BitVec 32)) (s : State) :
    Host.Outcome State Fault Refusal :=
  .next (s.takeEcho port.toNat stamp.toNat (rtt.map BitVec.toNat))

/-- R449: a port that is UP sends its own ECHO, stamped with the rack reference count. -/
def State.sendEcho (s : State) (p : Nat) : State :=
  (s.sendRecord p 5 (s.reg Reg.uhlRrc)).updPort p (fun x => { x with echoOut := some (s.reg Reg.uhlRrc) })

/-! ## Flits (R427, R428, R430, R433) -/

/-- The receiver acknowledges some flits more: they leave the replay buffer. -/
def State.acknowledge (s : State) (p n : Nat) : State :=
  let k := min n (s.port p).unacked
  (s.updPort p (fun x =>
    { x with acked := (x.acked + k) % 2 ^ 16, replays := if k = 0 then x.replays else 0, kept := x.kept.drop k
             resend := min x.resend (x.kept.length - k) })).drainPort p

/-- R430: a LINK flit's record, by its code in byte 0 (Table NGV-4). One of another code is ignored, as is LANES outside training. An ECHO with
the stamp of the device's own comes back, and reference cycles of 6.4 ns have passed (log entry 180). -/
def State.takeRecord (s : State) (p : Nat) (pay : List Byte) : State :=
  let code := leAt pay 0 1
  if code = 1 then s.takeCredit p ((List.range 4).map (fun c => leAt pay (2 + 2 * c) 2))
  else if code = 2 then s.takeRetry p (leAt pay 2 2)
  else if code = 3 then
    s.takeIdent p (leAt pay 8 8) (leAt pay 16 2 % 2 ^ 12) (bitOf (leAt pay 16 2) 12) (leAt pay 18 1 % 32)
  else if code = 5 then
    let stamp := leAt pay 2 8
    if (s.port p).echoOut = some stamp then
      (s.takeEcho p stamp (some ((s.reg Reg.uhlRrc - stamp) * 32 / 5 % 2 ^ 32))).updPort p (fun x => { x with echoOut := none })
    else s.takeEcho p stamp none
  else s

/-- R433: the payload of a TX flit joins the transaction that is arriving in its class; with its last flit the transaction is taken. -/
def State.takePart (s : State) (p cls : Nat) (first : Bool) (pay : List Byte) : State :=
  let bs := if first then pay else nth [] (s.port p).arriving cls ++ pay
  let w := leAt bs 0 16
  let op := bitsOf w 0 4
  let d := dataLength op (bitsOf w 44 8) (bitsOf w 56 8)
  let keep := fun (bs : List Byte) => s.updPort p (fun x => { x with arriving := setNth x.arriving cls bs })
  if bs.length = pay.length && !first then s
  else if bs.length < 60 * flitsOf d then keep bs
  else (keep []).takeTx p op (hdrOfWord w ((bs.drop 16).take d))

/-- R427, R428, R431: a flit on a port passes or fails its CRC. `kind` 0 IDLE, 1 TX_FIRST, 2 TX_CONT, 3 LINK. Since the expected number is
part of a sequenced flit's CRC, one that passes is the flit expected. One that passes acknowledges, frees its buffer space at once, and its
payload is taken; one that fails is dropped, and a sequenced one is asked for again. -/
def State.takeFlit (s : State) (p : Nat) (pay : List Byte) (kind cls ackinc crc : Nat) : State :=
  let seqd := sequencedKind kind
  if s.portSt p ≠ 2 then s
  else if flitCrc pay kind cls ackinc (s.port p).rxSeq ≠ crc then
    let s1 := s.bump (Reg.portCrcCnt p) 1
    if seqd && !(s.port p).discarding then
      (s1.updPort p (fun x => { x with discarding := true })).sendRecord p 2 (s.port p).rxSeq
    else s1
  else
    let s1 := s.acknowledge p ackinc
    let s2 := if seqd then
        (s1.updPort p (fun x =>
          { x with rxSeq := (x.rxSeq + 1) % 2 ^ 16, discarding := false
                   rxFreed := updNth x.rxFreed cls (fun k => (k + 1) % 2 ^ 16)
                   unreported := x.unreported + 1 })).bump (Reg.portRxFlits p) 1
      else s1
    let s3 := if seqd then s2.takePart p cls (kind == 1) pay else if kind = 3 then s2.takeRecord p pay else s2
    s3.answerSlot p

/-- R427: a flit by the fields of Table NGV-3. -/
def execFlitReceive (port : BitVec 5) (payload : BitVec 480) (kind cls : BitVec 2) (tail : BitVec 28) (s : State) :
    Host.Outcome State Fault Refusal :=
  .next (s.takeFlit port.toNat (leBytes 60 payload.toNat) kind.toNat cls.toNat (bitsOf tail.toNat 0 4) (bitsOf tail.toNat 4 24))

/-- A flit of 512 bits. -/
def State.takeFlitBits (s : State) (p : Nat) (f : BitVec 512) : State :=
  s.takeFlit p (leBytes 60 f.toNat) (bitsOf f.toNat 480 2) (bitsOf f.toNat 482 2) (bitsOf f.toNat 484 4) (bitsOf f.toNat 488 24)

/-! ## Codewords (R424, R426) -/

/-- The flits of a whole round in port order, each with its lane and slot; a dropped codeword's ten are missing (R424, R426). -/
def roundFlits (lanes : List Nat) (k : Nat) (good : List Nat) : List (Nat × Nat × Nat) :=
  (List.range 10).flatMap (fun i =>
    ((List.range lanes.length).zip lanes).filterMap (fun (q, lane) =>
      if good.contains lane then some (portFlit lanes.length k i q, lane, i) else none))

/-- The round a codeword belongs to: the count of its header where the header can be read, else the round after the lane's last one.
DESIGN CHOICE (log 148): a header whose HCHK or LANE is wrong makes the codeword one that is dropped, and counts nothing. -/
def codewordRound (x : Port) (lane header : Nat) (decoded : Bool) : Option (Nat × Bool) :=
  if decoded && header == codewordHeader lane (bitsOf header 3 13) then some (bitsOf header 3 13, true)
  else (x.lastRound.lookup lane).map (fun k => ((k + 1) % 8192, false))

/-- The flits that a round's good codewords carry, in port order. -/
def flitsInOrder (words : List (Nat × List (BitVec 512))) (placed : List (Nat × Nat × Nat)) : List (BitVec 512) :=
  placed.filterMap (fun x => (words.lookup x.2.1).bind (fun fs => fs[x.2.2]?))

/-- R424: a codeword joins its round, and a round that every active lane has given is handed on whole, with its flits in port order. A round more
than four codewords (200 ns of skew) behind is given up. -/
def Port.align (x : Port) (lanes : List Nat) (lane k : Nat) (good : Bool) (flits : List (BitVec 512)) : Port × List (BitVec 512) :=
  let held := x.rounds.filter (fun r => decide ((k + 8192 - r.1) % 8192 ≤ 4 || (r.1 + 8192 - k) % 8192 ≤ 4)) ++ [(k, lane, good, flits)]
  let mine := held.filter (fun r => r.1 == k)
  let last := x.lastRound.filter (fun r => r.1 != lane) ++ [(lane, k)]
  if lanes.all (fun l => mine.any (fun r => r.2.1 == l)) then
    let ok := mine.filter (fun r => r.2.2.1)
    let placed := roundFlits lanes k (ok.map (fun r => r.2.1))
    ({ x with lastRound := last, rounds := held.filter (fun r => r.1 != k), placed := placed },
      flitsInOrder (ok.map (fun r => (r.2.1, r.2.2.2))) placed)
  else ({ x with lastRound := last, rounds := held }, [])

/-- A codeword of an active lane takes its place, and the flits of a round that is whole are taken (R424). -/
def State.placeCodeword (s : State) (p : Nat) (w : Codeword) (decoded : Bool) : State :=
  let lanes := s.portLanes p
  let lane := w.lane.toNat
  if !lanes.contains lane then s
  else
    match codewordRound (s.port p) lane w.header.toNat decoded with
    | none => s
    | some (k, good) =>
      let r := (s.port p).align lanes lane k good w.flits
      r.2.foldl (fun s f => s.takeFlitBits p f) (s.updPort p (fun _ => r.1))

/-- R424, R426: a codeword is decoded, corrected, or dropped with its ten flits; its header says which round of the port's flits it
carries on its lane. -/
def execCodewordReceive (port : BitVec 5) (word : Codeword) (s : State) : Host.Outcome State Fault Refusal :=
  let p := port.toNat
  .next (if 22 ≤ p then s else match word.out with
    | .clean => s.placeCodeword p word true
    | .corrected _ => (s.bump (Reg.portFecCe p) 1).placeCodeword p word true
    | .uncorrectable => (s.bump (Reg.portFecUe p) 1).placeCodeword p word false)

/-! ## Registers (R448, R452, R456 to R459, R618) -/

/-- R452: write of a destination entry. -/
def execNgvDest (fn : BitVec 6) (d : BitVec 12) (value : Dword) (s : State) : Host.Outcome State Fault Refusal :=
  .next (s.hostWrite fn (Reg.ngvDest d.toNat) [(bitsOf value.toNat 49 15 != 0, .eArg)]
    (fun s => s.setReg (Reg.ngvDest d.toNat) value.toNat))

/-- R448, R449, R459: write of the device id. A change makes every port that is UP send IDENT again. -/
def execNgvId (fn : BitVec 6) (value : Word) (s : State) : Host.Outcome State Fault Refusal :=
  let v := value.toNat
  let valid := s.fld Reg.ngvId 12 1 == 1
  .next (s.hostWrite fn Reg.ngvId
    [(bitsOf v 13 19 != 0, .eArg), (valid && v % 4096 != s.devId, .eState), (valid && !bitOf v 12 && s.anyTeam, .eBusy)]
    (fun s =>
      let s1 := s.setReg Reg.ngvId v
      if v = s.reg Reg.ngvId then s1 else (List.range 22).foldl (fun s p => if s.portSt p = 2 then s.sendIdent p else s) s1))

/-- R456, R457: write enabling a port or changing its lanes. Training starts unless the write changes TX_ALLOW alone. -/
def execPortCtrl (fn : BitVec 6) (port : BitVec 5) (value : Word) (s : State) : Host.Outcome State Fault Refusal :=
  let p := port.toNat
  let v := value.toNat
  .next (s.hostWrite fn (Reg.portCtrl p) [(bitsOf v 10 22 != 0, .eArg), (decide (22 ≤ p), .eRange)] (fun s =>
    let old := s.reg (Reg.portCtrl p)
    let s1 := s.setReg (Reg.portCtrl p) v
    if !bitOf v 0 then (s1.updPort p (fun x => { trained := x.trained })).setReg (Reg.portStatus p) 0
    else if putBits old 1 1 (bitsOf v 1 1) = v && old ≠ v then s1
    else if s.fld (Reg.portPrbs p) 0 1 = 1 || s.fld Reg.pwrStatus 0 2 ≠ 0 then s1
    else s1.startTraining p))

/-- R459: write of a port's class allotments. -/
def execPortCred (fn : BitVec 6) (port : BitVec 5) (value : Word) (s : State) : Host.Outcome State Fault Refusal :=
  let p := port.toNat
  let us := (List.range 4).map (fun c => bitsOf value.toNat (8 * c) 8)
  .next (s.hostWrite fn (Reg.portCred p)
    [(us.contains 0 || decide (128 < us.sum), .eRange), (s.portSt p != 0, .eBusy), (decide (22 ≤ p), .eRange)]
    (fun s => s.setReg (Reg.portCred p) value.toNat))

/-- R618: write starting or stopping PRBS on a port. -/
def execPortPrbs (fn : BitVec 6) (port : BitVec 5) (value : Word) (s : State) : Host.Outcome State Fault Refusal :=
  let p := port.toNat
  let v := value.toNat
  .next (s.hostWrite fn (Reg.portPrbs p)
    [(bitsOf v 11 21 != 0, .eArg), (bitOf v 0 && s.portSt p != 0 && s.portSt p != 4, .eBusy), (decide (22 ≤ p), .eRange)]
    (fun s =>
      let on := s.fld (Reg.portPrbs p) 0 1 == 1
      let s1 := s.setFld (Reg.portPrbs p) 0 3 (v % 8)
      if bitOf v 0 then (s1.setFld (Reg.portPrbs p) 3 8 0).setReg (Reg.portPrbsErr p) 0
      else if on && s.fld (Reg.portCtrl p) 0 1 == 1 then s1.startTraining p
      else s1))

end Sys2Proof.Machine
end

