-- ==== Sys2Proof/Machine/Dma.lean ====
section
/-! DEFINITION. DMA queues: DQP's descriptors, their completion, coded tensors and coded windows (R222 to R226, R311, R312, R324 to
R329, R435). -/

namespace Sys2Proof.Machine

/-! ## Global addresses (R448) -/

/-- Device and local address of a global address. -/
def gDev (g : Nat) : Nat := bitsOf g 52 12
def gLoc (g : Nat) : Nat := bitsOf g 0 48

/-- Turn tag of a core's team (R433). -/
def State.tagOf (s : State) (n : Nat) : Nat × Nat := ((s.teamRec n).turn % 4096, (s.teamRec n).attempt)

/-! ## Coded windows (R325, R326, R329) -/

def winFmt (s : State) (w : Nat) : Nat := s.fld (Reg.burWinCfg w) 1 2
def winSlots (s : State) (w : Nat) : Nat := s.fld (Reg.burWinCfg w) 8 20 + 1

/-- Bytes of a slot (R326). -/
def slotBytes (fmt : Nat) : Nat := rawBytes fmt + 32

/-- Where the slots of a window begin: behind the header and the index table rounded up to 32 bytes (R329). -/
def winData (base slots : Nat) : Nat := base + 32 + ceilDiv (8 * slots) 32 * 32

/-- Bytes of a window (R329). -/
def winBytes (fmt slots : Nat) : Nat := 32 + ceilDiv (8 * slots) 32 * 32 + slots * slotBytes fmt

/-- The enabled window whose block area holds a global address (R325). -/
def State.windowAt (s : State) (g : Nat) : Option Nat :=
  (List.range 16).find? (fun w =>
    let d := winData (s.reg (Reg.burWinBase w)) (winSlots s w)
    s.fld (Reg.burWinCfg w) 0 1 == 1 && decide (d ≤ g) && decide (g < d + winSlots s w * slotBytes (winFmt s w)))

/-- Capture the window's configuration and check R325, and that the class is not that of apertures (R435); a window that has been disabled or moved since the PUT was posted holds no slot of
it. -/
def State.captureWindow (s : State) (d : DmaDesc) (w : Nat) : EncJob :=
  let fmt := winFmt s w
  let base := s.reg (Reg.burWinBase w)
  let n := winSlots s w
  let off := d.gaddr - winData base n
  let k := d.bytes / rawBytes fmt
  { win := w, started := true, fmt := fmt, base := base, slots := n, first := off / slotBytes fmt
    bad := d.cls == 3 || s.fld (Reg.burWinCfg w) 0 1 != 1 || decide (d.gaddr < winData base n) || off % slotBytes fmt != 0 ||
      d.bytes % rawBytes fmt != 0 || decide (n < off / slotBytes fmt + k) }

/-- Base, slot size and address of slot 0 of the window of an encoding PUT: captured, or as it stands. -/
def State.encWindow (s : State) (e : EncJob) : Nat × Nat × Nat :=
  if e.started then (e.base, slotBytes e.fmt, winData e.base e.slots)
  else (s.reg (Reg.burWinBase e.win), slotBytes (winFmt s e.win), winData (s.reg (Reg.burWinBase e.win)) (winSlots s e.win))

/-- Is an encoding PUT of this device to one of the slots that a BDEC names outstanding? What the BDEC then reads is undefined (R327). -/
def State.slotsInUse (s : State) (gaddr first blocks : Nat) : Bool :=
  s.cores.any (fun c => c.2.cur.dq.toList.any (fun q => q.descs.any (fun x =>
    !x.done && (match x.enc with
      | none => false
      | some e =>
        let k := s.encWindow e
        k.1 == gaddr && overlaps first blocks ((x.gaddr - k.2.2) / k.2.1) (ceilDiv x.bytes (k.2.1 - 32))))))

/-! ## Posting (R222, R223) -/

/-- The fields of a descriptor (Table ISA-25). -/
structure DescWord where
  kind : Nat
  cls : Nat
  dm : Nat
  lines : Nat
  gaddr : Nat
  first : Nat
  blocks : Nat
  resvd : Bool

def descWord (bs : List Byte) : DescWord :=
  let w := leNat bs
  ⟨bitsOf w 0 4, bitsOf w 4 2, bitsOf w 16 16, bitsOf w 32 11 + 1, bitsOf w 64 64, bitsOf w 128 16, bitsOf w 144 16,
    bitsOf w 6 10 != 0 || bitsOf w 43 21 != 0 || bitsOf w 160 96 != 0⟩

/-- Is the class and kind of a transfer one an aperture takes, or one that needs none (R435)? -/
def classOk (kind cls a : Nat) : Bool := if kind = 1 then inApertures a == (cls == 3) else true

/-- A GET or PUT of another device's memory, or a GET of an aperture, becomes transactions as it is posted (R223, R435, R447). -/
def State.postRemote (s : State) (n q : Nat) (d : DmaDesc) : State :=
  let o := TxOwner.dma n q d.idx
  let tag := s.tagOf n
  let dev := gDev d.gaddr
  if d.kind = 0 then s.issueReads d.cls dev (gLoc d.gaddr) (d.bytes / 32) tag.1 tag.2 o
  else s.issueWrites (if d.cls = 3 then 5 else 2) d.cls dev (gLoc d.gaddr) tag.1 tag.2 (s.dm n d.dmAddr d.bytes) o

/-- Whose lines a descriptor's are at the background ports. -/
def bgDma (n q : Nat) (d : DmaDesc) : BgOwner := .dma n q d.idx

/-- A GET or PUT of this device's vaults: each of its transactions (R435) is checked, and its lines queue at the background port. -/
def State.postVault (s : State) (n q : Nat) (d : DmaDesc) : State :=
  (pieces (d.bytes / 32 + 1) (gLoc d.gaddr) (d.bytes / 32) 0).foldl (fun s p =>
    let len := 32 * p.2.2
    match s.localCheck (.core n) (d.kind == 1) p.2.1 len with
    | some st => { s with bgDone := s.bgDone ++ [⟨bgDma n q d, p.1, st, []⟩] }
    | none => s.bgAsk (bgReqs (bgDma n q d) p.2.1 len p.1
        (if d.kind = 1 then some (s.dm n (d.dmAddr + p.1) len) else none))) s

/-- Do a descriptor's transactions start as it is posted: those of another device's memory that this device may send, those of its
own vaults, and the READs of its own apertures (R447)? An encoding PUT and a BDEC go through the Burin. -/
def State.startsNow (s : State) (d : DmaDesc) : Bool :=
  d.kind ≠ 2 && d.enc.isNone && classOk d.kind d.cls (gLoc d.gaddr) &&
    (if gDev d.gaddr = s.devId then inVaults (gLoc d.gaddr) || (d.kind == 0 && inApertures (gLoc d.gaddr)) else s.member (gDev d.gaddr) && (s.sliceSt == 1 || s.sliceSt == 2))

/-- Start them. -/
def State.startDesc (s : State) (n q : Nat) (d : DmaDesc) : State :=
  if gDev d.gaddr = s.devId && inVaults (gLoc d.gaddr) then s.postVault n q d else s.postRemote n q d

/-- May a core's descriptor reach a device (R223)? -/
def State.inSlice (s : State) (dev : Nat) : Bool := s.member dev && (s.sliceSt == 1 || s.sliceSt == 2)

/-- Why a core's descriptor cannot reach another device: none has an id to be reached by (R448), or it is not of the slice (R223). -/
def State.reachErr (s : State) (dev : Nat) : Option Status :=
  firstCheck [(s.fld Reg.ngvId 12 1 == 0, .eTopology), (!s.inSlice dev, .ePerm)]

/-- DQP: post the descriptor in data memory (R222). Descriptors posted and not yet completed are the outstanding ones:
DESIGN CHOICE, log entry 166. -/
def dqp (i : Issue) (q : BitVec 3) (sA : BitVec 5) (s : State) : State :=
  issueOp i 3 (fun s c =>
    let n := i.core.toNat
    let at_ := (c.rs sA).toNat % 65536
    let w := descWord (s.dm n at_ 32)
    let len := 32 * w.lines
    let dq := c.dqueue q.toNat
    let whole := !pastDm at_ 32 && at_ % 32 == 0
    let d : DmaDesc :=
      { idx := dq.posted, kind := w.kind, cls := w.cls, dmAddr := w.dm, bytes := len, gaddr := w.gaddr
        first := w.first, blocks := w.blocks, plate := none, done := false
        enc := if w.kind = 1 then (s.windowAt w.gaddr).map (fun k => { win := k }) else none
        clash := w.kind == 2 && s.slotsInUse w.gaddr w.first w.blocks }
    let starts := s.startsNow d
    let c' := c.setQueue q.toNat
      { dq with posted := dq.posted + 1, descs := dq.descs ++ [{ d with issued := starts }] }
    { reads := [(at_, 32)]
      faults := [(decide (64 ≤ (dq.descs.filter (fun d => !d.done)).length), .unitBusy, q.toNat),
        (whole && (decide (2 < w.kind) || w.resvd || (w.kind != 2 && (w.first != 0 || w.blocks != 0))), .badOperand, w.kind),
        (whole && (w.gaddr % 32 != 0 || bitsOf w.gaddr 48 4 != 0), .badOperand, w.gaddr),
        (dq.posted == 2 ^ 32 - 1, .badOperand, 0),
        rangeFault at_ 32,
        (whole && (if w.kind = 1 then pastDm w.dm len else pastDm w.dm len || inResident c w.dm len), .memRange, w.dm),
        alignFault at_ 32, (whole && w.dm % 32 != 0, .memAlign, w.dm)]
      eff := if starts then (s.setCore n c').startDesc n q.toNat d else s.setCore n c' }) s

/-- R222, R223: DQP on a GET descriptor. -/
def execGet (i : Issue) (q : BitVec 3) (sA : BitVec 5) (s : State) : Host.Outcome State Fault Refusal := .next (dqp i q sA s)

/-- R222, R226: DQP on a PUT descriptor. -/
def execPut (i : Issue) (q : BitVec 3) (sA : BitVec 5) (s : State) : Host.Outcome State Fault Refusal := .next (dqp i q sA s)

/-- R222, R324: DQP on a BDEC descriptor. -/
def execBdec (i : Issue) (q : BitVec 3) (sA : BitVec 5) (s : State) : Host.Outcome State Fault Refusal := .next (dqp i q sA s)

/-! ## Transfers on this device -/

/-- What a transfer does: it is not finished, or it ends with a status. -/
inductive Move where
  | wait (s : State)
  | done (s : State) (st : Status)

/-- Write a GET's bytes, or undefined bytes where it failed (R225). -/
def State.land (s : State) (n dm len : Nat) (bytes : List Byte) (st : Status) : State :=
  if st = .ok then { s with mem := s.mem.write (dmAddr n dm) bytes }
  else { s with mem := s.mem.write (dmAddr n dm) (freeBytes s.freeCount len), freeCount := s.freeCount + len }

/-- The transactions of a span (R435): offset in the transfer, address, bytes. -/
def spansAt (a len : Nat) : List (Nat × Nat × Nat) :=
  (pieces (len / 32 + 1) a (len / 32) 0).map (fun p => (p.1, p.2.1, 32 * p.2.2))

/-- Read a span of this device's memory for a core, one transaction after the other. The earliest failing one gives the status (R435). -/
def State.getSpans (s : State) (n a len : Nat) : State × Status × List Byte :=
  (spansAt a len).foldl (fun (acc : State × Status × List Byte) p =>
    let x := acc.1.getLocal (.core n) p.2.1 p.2.2
    (x.1, firstOf acc.2.1 x.2.1, acc.2.2 ++ x.2.2)) (s, .ok, [])

/-- A GET of this device's memory outside the vaults and apertures. -/
def State.localGet (s : State) (n : Nat) (d : DmaDesc) : Move :=
  let a := gLoc d.gaddr
  let r := if d.got then s.readLocal a d.bytes else s.getSpans n a d.bytes
  .done (r.1.land n d.dmAddr d.bytes r.2.2 r.2.1) r.2.1

/-- A PUT of class 3 into this device's apertures (R435, R443): one REDUCE for each piece; the first failure counts. -/
def State.localReduce (s : State) (n : Nat) (d : DmaDesc) : State × Status :=
  let tag := s.tagOf n
  (pieces (d.bytes / 32 + 1) (gLoc d.gaddr) (d.bytes / 32) 0).foldl (fun acc p =>
    let r := acc.1.reduce s.devId p.2.1 (p.2.2 - 1) tag.1 tag.2 (s.dm n (d.dmAddr + p.1) (32 * p.2.2))
    (r.1.sendWaiting, firstOf acc.2 r.2)) (s, .ok)

/-- Free bytes in this device's memory, where the core may write there. -/
def State.spoilAt (s : State) (n a len : Nat) : State :=
  if (s.localCheck (.core n) true a len).isSome then s
  else { s with mem := s.mem.write a (freeBytes s.freeCount len), freeCount := s.freeCount + len }

/-- Free bytes in a span of this device's memory, transaction by transaction. -/
def State.spoilSpan (s : State) (n a len : Nat) : State := (spansAt a len).foldl (fun s p => s.spoilAt n p.2.1 p.2.2) s

/-- R225: the bytes that a failed PUT to this device would have written are undefined. -/
def State.spoilPut (s : State) (n : Nat) (d : DmaDesc) (st : Status) : State :=
  if st = .ok || gDev d.gaddr != s.devId || inApertures (gLoc d.gaddr) then s else s.spoilSpan n (gLoc d.gaddr) d.bytes

/-- The same of a PUT to the vaults whose lines have come to `rs`: a line that met a core write keeps that write (Table VLT-2). -/
def State.spoilLines (s : State) (n : Nat) (d : DmaDesc) (rs : List BgResult) : State :=
  (rs.filter (fun r => r.st == .ok)).foldl (fun s r => s.spoilAt n (gLoc d.gaddr + r.off) 32) s

/-- The status of a PUT whose class or window E_RANGE forbids: what its first transaction meets comes first (R225, R438). -/
def State.putRefusal (s : State) (n : Nat) (d : DmaDesc) : Status :=
  let a := gLoc d.gaddr
  if gDev d.gaddr ≠ s.devId then (s.reachErr (gDev d.gaddr)).getD .eRange
  else if s.localCheck (.core n) true a (min d.bytes (8192 - a % 8192)) = some .ePerm then .ePerm
  else .eRange

/-- A PUT to this device's memory outside the vaults. -/
def State.localPut (s : State) (n : Nat) (d : DmaDesc) : Move :=
  let a := gLoc d.gaddr
  if !classOk 1 d.cls a then .done s (s.putRefusal n d)
  else if inApertures a then .done (s.localReduce n d).1 (s.localReduce n d).2
  else if d.got then .done (s.writeLocal a (s.dm n d.dmAddr d.bytes)).1 .ok
  else
    let r := (spansAt a d.bytes).foldl (fun (acc : State × Status) p =>
      let x := acc.1.putLocal (.core n) p.2.1 (s.dm n (d.dmAddr + p.1) p.2.2)
      (x.1, firstOf acc.2 x.2)) (s, .ok)
    .done (r.1.spoilPut n d r.2) r.2

/-- A GET or PUT of this device's vaults ends once its lines have been served; those that still wait take the next slots. -/
def State.endVault (s : State) (n q : Nat) (d : DmaDesc) : Move :=
  let o := bgDma n q d
  let s1 := s.bgFinish o
  let rs := s1.bgOf o
  let st := worstOf rs
  let s2 := s1.bgDrop o
  if d.kind = 1 then .done (if st = .ok then s2 else s2.spoilLines n d rs) st
  else if st = .ok then
    .done (rs.foldl (fun s r => { s with mem := s.mem.write (dmAddr n (d.dmAddr + r.off)) r.bytes }) s2) .ok
  else .done (s2.land n d.dmAddr d.bytes [] st) st

/-! ## Coded tensors (R311, R312, R323, R324) -/

/-- What has come of a BDEC: bytes of the tensor's image wanted but not yet read; or its status and the values decoded, and whether the
failure is a malformed block (R323). `blocks` have been decoded so far. -/
inductive Decoding where
  | want (off len blocks : Nat)
  | ended (st : Status) (bytes : List Byte) (blocks : Nat) (malformed : Bool)

/-- Decode the blocks named by index entries, in order, from what has been read of the block area. -/
def decodeBlocks (has : Nat → Nat → Bool) (get : Nat → Nat → List Byte) (data fmt : Nat) : List Nat → List Byte → Nat → Decoding
  | [], out, k => .ended .ok out k false
  | w :: ws, out, k =>
    let off := data + bitsOf w 0 32
    let len := bitsOf w 32 16
    if !has off len then .want off len k
    else
      match decodeValues fmt (get off len) len with
      | none => .ended .eMedia out k true
      | some v => decodeBlocks has get data fmt ws (out ++ v) (k + 1)

/-- The tensor header's checks (R324). -/
def bdecCheck (d : DmaDesc) (w : Nat) : Status :=
  let fmt := bitsOf w 32 4
  if bitsOf w 0 32 ≠ 0x31525542 || fmt = 0 || decide (3 < fmt) || bitsOf w 40 4 ≠ 1 then .eMedia
  else if decide (bitsOf w 64 32 < d.first + d.blocks) || decide (d.bytes < d.blocks * rawBytes fmt) then .eRange
  else .ok

/-- R324: a BDEC from what has been read of the image: `has` says whether a span has been, `get` gives its bytes. First the header, then the
index entries of every named block, then the blocks. Where a slot that it names is in use, what it returns is open (R327). -/
def bdecStep (d : DmaDesc) (inUse : Bool) (has : Nat → Nat → Bool) (get : Nat → Nat → List Byte) : Decoding :=
  if d.blocks = 0 then .ended .ok [] 0 false
  else if !has 0 32 then .want 0 32 0
  else
    let w := leNat (get 0 32)
    let st := bdecCheck d w
    let idx := bitsOf w 96 32 + 8 * d.first
    if st ≠ .ok then .ended st [] 0 false
    else if inUse then .ended .ok [] d.blocks false
    else if !has idx (8 * d.blocks) then .want idx (8 * d.blocks) 0
    else
      let es := (List.range d.blocks).map (fun k => leNat (get (idx + 8 * k) 8))
      if es.any (fun e => !bitOf e 63) then .ended .eRange [] 0 false
      else decodeBlocks has get (bitsOf w 128 32) (bitsOf w 32 4) es [] 0

/-- The lines of the tensor's image that a span touches: offset from the header, and bytes. -/
def lineSpan (off len : Nat) : Nat × Nat := (off / 32 * 32, ceilDiv (off % 32 + len) 32 * 32)

/-- Line `k` of an image out of the pieces of it that have been read. -/
def imageLine (ps : List (Nat × List Byte)) (k : Nat) : Option (List Byte) :=
  ps.findSome? (fun p => if p.1 ≤ 32 * k ∧ 32 * k < p.1 + p.2.length then some ((p.2.drop (32 * k - p.1)).take 32) else none)

/-- Has a span been read; and its bytes. -/
def imageHas (ps : List (Nat × List Byte)) (off len : Nat) : Bool :=
  (List.range ((lineSpan off len).2 / 32)).all (fun k => (imageLine ps (off / 32 + k)).isSome)
def imageGet (ps : List (Nat × List Byte)) (off len : Nat) : List Byte :=
  (((List.range ((lineSpan off len).2 / 32)).flatMap (fun k => (imageLine ps (off / 32 + k)).getD [])).drop (off % 32)).take len

/-- Bytes that a BDEC writes at most: those of its blocks, as far as its LINES reach. A header that has not been read, or is none, leaves
open how large its blocks are: the larger size counts. -/
def bdecOut (d : DmaDesc) (ps : List (Nat × List Byte)) : Nat :=
  let fmt := if imageHas ps 0 32 then bitsOf (leNat (imageGet ps 0 32)) 32 4 else 0
  min d.bytes (d.blocks * (if fmt = 0 || 3 < fmt then 1024 else rawBytes fmt))

/-- A BDEC of this device's memory: read what the next step wants until it ends. Answers what it has read, too. -/
def State.bdecLocal (n : Nat) (d : DmaDesc) (inUse : Bool) : Nat → State → List (Nat × List Byte) → State × List (Nat × List Byte) × Decoding
  | 0, s, ps => (s, ps, .ended .eRange [] 0 false)
  | fuel + 1, s, ps =>
    match bdecStep d inUse (imageHas ps) (imageGet ps) with
    | .want off len k =>
      let sp := lineSpan off len
      let r := s.getSpans n (gLoc d.gaddr + sp.1) sp.2
      if r.2.1 = .ok then State.bdecLocal n d inUse fuel r.1 (ps ++ [(sp.1, r.2.2)]) else (r.1, ps, .ended r.2.1 [] k false)
    | x => (s, ps, x)

/-- A BDEC ends: its values, or undefined bytes where they would have lain, lie in data memory, and the decoder's counters follow. -/
def State.endBdec (s : State) (n : Nat) (d : DmaDesc) (inUse : Bool) (ps : List (Nat × List Byte)) (st : Status) (bytes : List Byte)
    (blocks : Nat) (malformed : Bool) : Move :=
  let s1 := if d.blocks = 0 then s
    else s.land n d.dmAddr (bdecOut d ps) bytes (if inUse && st == .ok then .eMedia else st)
  .done ((s1.bump Reg.burDecCnt blocks).bump Reg.burMediaCnt (bit malformed)) st

/-- R324: a BDEC. That of another device's tensor issues READs for what it wants next, and goes on when they have come. -/
def State.runBdec (s : State) (n q : Nat) (d : DmaDesc) : Move :=
  let o := TxOwner.dma n q d.idx
  let inUse := d.clash || s.slotsInUse d.gaddr d.first d.blocks
  if gDev d.gaddr = s.devId then
    match State.bdecLocal n d inUse (d.blocks + 3) s [] with
    | (s', ps, .ended st bytes blocks mal) => s'.endBdec n d inUse ps st bytes blocks mal
    | (s', ps, .want _ _ k) => s'.endBdec n d inUse ps .eRange [] k false
  else if (s.reachErr (gDev d.gaddr)).isSome && d.blocks ≠ 0 then
    s.endBdec n d false [] ((s.reachErr (gDev d.gaddr)).getD .ok) [] 0 false
  else
    let ts := s.txOf o
    let ps := ts.map (fun t => (t.off, t.got))
    if !allDone ts then .wait s
    else
      match bdecStep d inUse (imageHas ps) (imageGet ps), failOf ts with
      | .want _ _ k, some st => (s.dropTx o).endBdec n d inUse ps st [] k false
      | .want off len _, none =>
        let sp := lineSpan off len
        let tag := s.tagOf n
        .wait (s.issueReads d.cls (gDev d.gaddr) (gLoc d.gaddr + sp.1) (sp.2 / 32) tag.1 tag.2 o sp.1)
      | .ended st bytes blocks mal, _ => (s.dropTx o).endBdec n d inUse ps st bytes blocks mal

/-! ## Completion (R224, R225, R435) -/

/-- Bytes gathered from, or scattered to, a plate's home copy for a token run (R237). -/
def PlateRun.offsets (r : PlateRun) (fmt : Nat) : List Nat := plateRun fmt r.w r.log2n r.part r.t0 r.ntok

/-- First line and number of lines of a run's span in its plate. -/
def spanOf (offs : List Nat) : Nat × Nat :=
  let lo := offs.foldl min (nth 0 offs 0) / 32
  let hi := offs.foldl max 0 / 32
  (lo, hi + 1 - lo)

/-- Bytes of a run out of its span's bytes. -/
def gather (span : List Byte) (lo : Nat) (offs : List Nat) : List Byte := offs.map (fun o => nth 0#8 span (o - 32 * lo))

/-- A run's bytes put into its span's bytes. -/
def scatter (span : List Byte) (lo : Nat) (offs : List Nat) (bytes : List Byte) : List Byte :=
  (offs.zip bytes).foldl (fun acc p => setNth acc (p.1 - 32 * lo) p.2) span

/-- Bytes at offsets, joined where the offsets follow one another. -/
def joinRuns : List (Nat × Byte) → List (Nat × List Byte)
  | [] => []
  | (o, b) :: t =>
    match joinRuns t with
    | [] => [(o, [b])]
    | (o2, bs) :: r => if o2 = o + 1 then (o, b :: bs) :: r else (o, [b]) :: (o2, bs) :: r

/-- R225: the bytes of its plate that a failed write to this device would have written are undefined. -/
def State.spoilRun (s : State) (n : Nat) (d : DmaDesc) (r : PlateRun) : State :=
  if d.kind = 0 || gDev d.gaddr != s.devId then s
  else (joinRuns ((r.offsets (s.core n).pwkFmt.toNat).map (fun o => (o, 0#8)))).foldl
    (fun s p => s.spoilAt n (gLoc d.gaddr + p.1) p.2.length) s

/-- A streamed PWK (R237). On another device the span travels as whole lines: a write first reads the bytes of its lines that it leaves
(log entry 143). -/
def State.movePlate (s : State) (n q : Nat) (d : DmaDesc) (r : PlateRun) : Move :=
  let offs := r.offsets (s.core n).pwkFmt.toNat
  let sp := spanOf offs
  let a := gLoc d.gaddr + 32 * sp.1
  let len := 32 * sp.2
  let o := TxOwner.dma n q d.idx
  let tag := s.tagOf n
  let ts := s.txOf o
  let enter := fun (k : Nat) => s.updCore n (fun c => c.updDesc q d.idx (fun d => { d with phase := k }))
  if gDev d.gaddr = s.devId then
    if d.kind = 0 then
      let x := s.getSpans n a len
      .done (x.1.land n d.dmAddr d.bytes (gather x.2.2 sp.1 offs) x.2.1) x.2.1
    else
      let x := (joinRuns (offs.zip (s.dm n d.dmAddr d.bytes))).foldl (fun (acc : State × Status) p =>
        let y := acc.1.putLocal (.core n) (gLoc d.gaddr + p.1) p.2
        (y.1, firstOf acc.2 y.2)) (s, .ok)
      .done (if x.2 = .ok then x.1 else x.1.spoilRun n d r) x.2
  else if (s.reachErr (gDev d.gaddr)).isSome then
    (let st := (s.reachErr (gDev d.gaddr)).getD .ok
     .done (if d.kind = 0 then s.land n d.dmAddr d.bytes [] st else s) st)
  else if d.phase = 0 then .wait ((enter 1).issueReads 1 (gDev d.gaddr) a sp.2 tag.1 tag.2 o)
  else if !allDone ts then .wait s
  else
    match failOf ts with
    | some st => .done ((if d.kind = 0 then s.land n d.dmAddr d.bytes [] st else s).dropTx o) st
    | none =>
      let old := ts.flatMap FabTx.got
      if d.kind = 0 then .done ((s.land n d.dmAddr d.bytes (gather old sp.1 offs) .ok).dropTx o) .ok
      else if d.phase = 1 then
        .wait (((enter 2).dropTx o).issueWrites 2 1 (gDev d.gaddr) a tag.1 tag.2
          (scatter old sp.1 offs (s.dm n d.dmAddr d.bytes)) o)
      else .done (s.dropTx o) .ok

/-- A descriptor fails with E_MEDIA whatever is left of it: one of its packets failed its CRC (R257), or its region was retired under it
(R303). -/
def State.loseDesc (s : State) (n q : Nat) (d : DmaDesc) : State :=
  let s0 := s.bgFinish (bgDma n q d)
  let rs := s0.bgOf (bgDma n q d)
  let s1 := (s0.bgDrop (bgDma n q d)).dropTx (.dma n q d.idx)
  if d.kind ≠ 1 then s1.land n d.dmAddr d.bytes [] .eMedia
  else if d.enc.isSome then s1
  else if d.issued && gDev d.gaddr = s.devId then s1.spoilLines n d rs
  else d.plate.elim (s1.spoilPut n d .eMedia) (s1.spoilRun n d)

/-- What a descriptor does when its engine ends it. -/
def State.runDesc (s : State) (n q : Nat) (d : DmaDesc) : Move :=
  let o := TxOwner.dma n q d.idx
  if d.crcFail || d.cut then .done (s.loseDesc n q d) .eMedia
  else
    match d.plate, d.enc with
    | some r, _ => s.movePlate n q d r
    | none, some e =>
      if !e.started then .wait s
      else if e.bad then .done s (s.putRefusal n d)
      else if e.coded * rawBytes e.fmt < d.bytes || !allDone (s.txOf o) then .wait s
      else .done (s.dropTx o) ((failOf (s.txOf o)).getD .ok)
    | none, none =>
      if d.kind = 2 then s.runBdec n q d
      else if gDev d.gaddr = s.devId && !(d.issued && inApertures (gLoc d.gaddr)) then
        if d.issued then s.endVault n q d else if d.kind = 0 then s.localGet n d else s.localPut n d
      else if d.issued then
        let ts := s.txOf o
        if !allDone ts then .wait s
        else
          let st := (failOf ts).getD .ok
          .done ((if d.kind = 0 && st ≠ .ok then s.land n d.dmAddr d.bytes [] st else s).dropTx o) st
      else
        let st := (s.reachErr (gDev d.gaddr)).getD .eRange
        .done (if d.kind = 0 then s.land n d.dmAddr d.bytes [] st else s) st

/-- End the descriptor with posting index `idx` of a queue. One whose transactions, blocks or context are not done yet stays
outstanding. -/
def State.endDma (s : State) (n q idx : Nat) : State :=
  match ((s.core n).dqueue q).descs.find? (fun d => d.idx == idx && !d.done) with
  | none => s
  | some d =>
    match s.runDesc n q d with
    | .wait s' => s'
    | .done s' st => s'.updCore n (fun c => c.endDesc q idx st)

/-- R224, R225: the DMA engine ends a descriptor. Its vault lines that still wait are served from cycle `cyc` on, and their reads find `found`
failed in what is stored. -/
def execDmaDescriptorComplete (core : BitVec 12) (q : BitVec 3) (idx cyc : Nat) (found : List (BitVec 14 × BitVec 19 × LineErr)) (s : State) :
    Host.Outcome State Fault Refusal :=
  let o := BgOwner.dma core.toNat q.toNat idx
  .next ((s.bgFrom o cyc (found.map (fun x => (x.1.toNat, x.2.1.toNat, x.2.2)))).endDma core.toNat q.toNat idx)

/-- R257: a packet of a descriptor failed its CRC: the descriptor fails. -/
def State.crcDma (s : State) (n q idx : Nat) : State :=
  (s.updCore n (fun c => c.updDesc q idx (fun d => { d with crcFail := true }))).endDma n q idx

/-! ## The encoder (R325 to R328) -/

/-- Table with which a new block of a format is coded (Table BUR-7). -/
def State.encTable (s : State) (fmt : Nat) : Nat := s.fld Reg.burTableSel (4 * (fmt - 1)) 3

/-- Write bytes at a global address for an encoding PUT; another device gets WRITEs. -/
def State.putGlobal (s : State) (n q : Nat) (d : DmaDesc) (g : Nat) (bytes : List Byte) : State × Status :=
  if gDev g = s.devId then s.putLocal (.core n) (gLoc g) bytes
  else if (s.reachErr (gDev g)).isSome then (s, (s.reachErr (gDev g)).getD .ok)
  else
    let tag := s.tagOf n
    let o := TxOwner.dma n q d.idx
    (if bytes.length % 32 = 0 then s.issueWrites 2 d.cls (gDev g) (gLoc g) tag.1 tag.2 bytes o
      else s.issueTx 2 (s.ownHdr d.cls (gDev g) (gLoc g) 0 tag.1 tag.2 0 bytes) o 0, .ok)

/-- Code block `k` of an encoding PUT (R325): the coded block in whole lines, then its index entry as one 8-byte write. -/
def State.codeBlock (s : State) (n q : Nat) (d : DmaDesc) (e : EncJob) : State × Status :=
  let raw := s.dm n (d.dmAddr + e.coded * rawBytes e.fmt) (rawBytes e.fmt)
  let r := encodeValues (s.encTable e.fmt) e.fmt raw
  let len := r.1.length
  let b := e.first + e.coded
  let entry := leBytes 8 (b * slotBytes e.fmt + len * 2 ^ 32 + 2 ^ 63)
  let x := s.putGlobal n q d (winData e.base e.slots + b * slotBytes e.fmt) (r.1 ++ zeroBytes (ceilDiv len 32 * 32 - len))
  let y := x.1.putGlobal n q d (e.base + 32 + 8 * b) entry
  (((y.1.bump Reg.burEncCnt 1).bump Reg.burEncRawCnt (bit r.2)).bump Reg.burEncBytes len, firstOf x.2 y.2)

/-- R225: what an encoding PUT that fails would have written to this device's window is undefined. -/
def State.spoilEnc (s : State) (n : Nat) (d : DmaDesc) (e : EncJob) : State :=
  let k := d.bytes / rawBytes e.fmt - e.coded
  let b := e.first + e.coded
  if gDev d.gaddr ≠ s.devId then s else s.spoilSpan n (gLoc (winData e.base e.slots + b * slotBytes e.fmt)) (k * slotBytes e.fmt)

/-- Has the encoder more to do for a descriptor: its window not yet captured, or blocks not yet coded? -/
def DmaDesc.encodes (d : DmaDesc) : Bool :=
  !d.done && (match d.enc with
    | none => false
    | some e => !e.started || (!e.bad && decide (e.coded * rawBytes e.fmt < d.bytes)))

/-- R309, R325, R327: the encoder codes the next block of an encoding PUT; it takes the PUTs of a queue in posting order. The first block
captures the window; a PUT whose destination the core may not write fails. -/
def execEncoderBlock (core : BitVec 12) (q : BitVec 3) (idx : Nat) (s : State) : Host.Outcome State Fault Refusal :=
  let n := core.toNat
  let k := q.toNat
  .next (match ((s.core n).dqueue k).descs.find? DmaDesc.encodes with
    | none => s
    | some d =>
      match d.enc with
      | none => s
      | some e0 =>
        if d.idx ≠ idx then s
        else
          let e := if e0.started then e0 else s.captureWindow d e0.win
          let s1 := s.updCore n (fun c => c.updDesc k idx (fun d => { d with enc := some e }))
          if e.bad || d.bytes ≤ e.coded * rawBytes e.fmt then s1
          else
            let x := s1.codeBlock n k d e
            if x.2 = .ok then
              x.1.updCore n (fun c => c.updDesc k idx (fun d => { d with enc := some { e with coded := e.coded + 1 } }))
            else ((x.1.spoilEnc n d e).dropTx (.dma n k idx)).updCore n (fun c => c.endDesc k idx x.2))

/-- BUR_STATUS.ENC_BUSY: an encoder holds a block: it has begun a PUT and not yet coded its last block (log entry 144). -/
def State.encBusy (s : State) : Bool :=
  s.cores.any (fun c => c.2.cur.dq.toList.any (fun q => q.descs.any (fun d =>
    d.encodes && (match d.enc with
      | none => false
      | some e => e.started))))

/-! ## Registers (R328, R329) -/

/-- R328: write selecting the encoder's tables. -/
def execBurTableSel (fn : BitVec 6) (value : Word) (s : State) : Host.Outcome State Fault Refusal :=
  let v := value.toNat
  .next (s.hostWrite fn Reg.burTableSel [(bitOf v 3 || bitOf v 7 || bitsOf v 11 21 != 0, .eArg)]
    (fun s => s.setReg Reg.burTableSel v))

/-- Is the window wholly inside one device's GDDR regions or vaults (R329)? -/
def windowPlaced (base len : Nat) : Bool :=
  let a := gLoc base
  bitsOf base 48 4 == 0 &&
    ((inVaults a && decide (a + len ≤ 2 ^ 36)) || (inGddr a && decide (a + len ≤ gddrBase 32)))

/-- R329: write configuring or enabling a coded window. A write that only clears EN is always accepted; no other passes the checks unless
the window it describes does, whether or not it enables it. -/
def execBurWinCfg (fn : BitVec 6) (win : BitVec 4) (value : Word) (s : State) : Host.Outcome State Fault Refusal :=
  let w := win.toNat
  let v := value.toNat
  let old := s.reg (Reg.burWinCfg w)
  let fmt := bitsOf v 1 2
  let slots := bitsOf v 8 20 + 1
  let base := s.reg (Reg.burWinBase w)
  let len := winBytes fmt slots
  let clears := putBits old 0 1 0 == v
  let clash := (List.range 16).any (fun k => k != w && s.fld (Reg.burWinCfg k) 0 1 == 1 &&
    overlaps base len (s.reg (Reg.burWinBase k)) (winBytes (winFmt s k) (winSlots s k)))
  .next (s.hostWrite fn (Reg.burWinCfg w)
    [(bitsOf v 3 5 != 0 || bitsOf v 28 4 != 0, .eArg),
     (bitOf old 0 && putBits v 0 1 1 != old, .eBusy),
     (!clears && fmt == 0, .eArg),
     (!clears && (base % 32 != 0 || !windowPlaced base len || clash), .eRange)]
    (fun s => s.setReg (Reg.burWinCfg w) v))

end Sys2Proof.Machine
end

