-- ==== Sys2Proof/Machine/Plates.lean ====
section
/-! DEFINITION. The plate manager's commands and events (R357 to R380). -/

namespace Sys2Proof.Machine

/-! ## Pools (R358 to R360) -/

/-- Fields of a pool (Tables PLT-9, PLT-10). -/
def State.poolOn (s : State) (p : Nat) : Bool := s.fld (Reg.pltPoolCfg p) 0 1 == 1
def State.poolTier (s : State) (p : Nat) : Nat := s.fld (Reg.pltPoolCfg p) 1 2
def State.poolLines (s : State) (p : Nat) : Nat := s.fld (Reg.pltPoolCfg p) 4 20
def State.poolTeam (s : State) (p : Nat) : Nat := s.fld (Reg.pltPoolCfg p) 24 6
def State.poolCount (s : State) (p : Nat) : Nat := s.reg (Reg.pltPoolCount p)
def State.poolBase (s : State) (p : Nat) : Nat := s.reg (Reg.pltPoolBase p)

/-- Allocated slots of a pool at a rank. -/
def State.usedAt (s : State) (p rank : Nat) : List (Nat × Nat × Nat) :=
  (s.pool p).used.filter (fun u => u.1 == rank)

/-- Slots of a sequence at a rank, and the most it has at any rank. -/
def State.seqAt (s : State) (p rank seq : Nat) : Nat := ((s.usedAt p rank).filter (fun u => u.2.2 == seq)).length
def State.seqMost (s : State) (p seq : Nat) : Nat :=
  (((s.pool p).used.map Prod.fst).map (fun r => s.seqAt p r seq)).foldl max 0

/-- Slots of a pool that hold chain nodes. -/
def State.nodesIn (s : State) (p : Nat) : List Nat := s.plt.nodes.filterMap (fun x => (x.2.slot.filter (fun y => y.1 == p)).map Prod.snd)

/-- Free slots: for VAULT pools the least over the team's cores (Table PLT-7); of a node pool those that no chain node takes. -/
def State.poolFree (s : State) (p : Nat) : Nat :=
  s.poolCount p - (((s.pool p).used.map Prod.fst).map (fun r => (s.usedAt p r).length)).foldl max 0 - (s.nodesIn p).length

/-- Slots reserved and not yet allocated. -/
def State.poolRsv (s : State) (p : Nat) : Nat := ((s.pool p).rsv.map (fun r => r.2 - s.seqMost p r.1)).sum

/-- Global address of a slot; the core of a VAULT slot is the one at its rank in the pool's team (R363). -/
def State.slotAddr (s : State) (p rank slot : Nat) : Nat :=
  let off := s.poolBase p + slot * s.poolLines p * 32
  if s.poolTier p = 0 then
    let t := s.team (s.poolTeam p)
    s.devId * 2 ^ 52 + vaultBase (coreAt t (rank % t.width) (rank / t.width)) + off
  else if s.poolTier p = 2 then off
  else s.devId * 2 ^ 52 + off

/-- The lowest-numbered slot an allocation may take: of a pool in use, free, and not held by another sequence's reservation (R359). -/
def State.findSlot (s : State) (p rank seq : Nat) : Option Nat :=
  let used := (s.usedAt p rank).map (fun u => u.2.1)
  let others := ((s.pool p).rsv.map (fun r => if r.1 = seq then 0 else r.2 - s.seqAt p rank r.1)).sum
  if !s.poolOn p || s.poolCount p ≤ used.length + others then none
  else (List.range (s.poolCount p)).find? (fun k => !used.contains k)

/-- Write a slot's bytes, here or on the device of a PEER pool, in the plate-paging class. -/
def State.writeSlot (s : State) (p rank slot : Nat) (bytes : List Byte) (owner : TxOwner) : State × Status :=
  let g := s.slotAddr p rank slot
  if gDev g = s.devId then s.writeLocal (gLoc g) bytes else (s.issueWrites 2 1 (gDev g) (gLoc g) 0 0 bytes owner, .ok)

/-- Take a slot for a plate of a tenant; a slot whose tag differs is zeroed first (R360), and the status is that of the zeroing, as far as
it is known: WRITEs to another device that find no route have failed at once (R451). -/
def State.takeSlot (s : State) (p rank slot seq key tenant : Nat) : State × Status :=
  let tag := (s.pool p).tags.find? (fun t => t.1 == rank && t.2.1 == slot)
  let same := match tag with
    | some t => t.2.2 == tenant
    | none => false
  let s1 := s.updPool p (fun x => { x with
    used := x.used ++ [(rank, slot, seq)]
    tags := (rank, slot, tenant) :: x.tags.filter (fun t => !(t.1 == rank && t.2.1 == slot)) })
  if same then (s1, .ok)
  else
    let o := TxOwner.plate seq key .zero
    let r := s1.writeSlot p rank slot (zeroBytes (32 * s.poolLines p)) o
    let ts := r.1.txOf o
    if allDone ts then ((r.1.dropTx o).bump Reg.pltZeroCnt 1, firstOf r.2 ((failOf ts).getD .ok)) else (r.1.bump Reg.pltZeroCnt 1, r.2)

/-- R359: the plate manager reports the refusal of an allocation to Dealer firmware: the pool, and why. -/
def State.refuse (s : State) (pool : Nat) (st : Status) : State := { s with plt := { s.plt with refusal := some (pool, st) } }

/-- R379: a command's status stands in LAST_STATUS; a refused one changes nothing else, but for the report of an allocation that was refused
(R359). -/
def State.pltCmd (s : State) (checks : List (Bool × Status)) (f : State → State × Status) : State :=
  match firstCheck checks with
  | some st => s.setFld Reg.pltStatus 12 8 (statusCode st)
  | none =>
    match f s with
    | (s', .ok) => s'.setFld Reg.pltStatus 12 8 0
    | (s', st) => { s with plt := { s.plt with refusal := s'.plt.refusal } }.setFld Reg.pltStatus 12 8 (statusCode st)

/-- The spans of local memory that a pool's slots take: of a VAULT pool in every core of its team, of a PEER pool none. -/
def State.poolSpans (s : State) (tier team base len : Nat) : List (Nat × Nat) :=
  if tier = 0 then (s.team team).cores.map (fun n => (vaultBase n + base, len)) else if tier = 2 then [] else [(base, len)]

/-- Would the pool overlap what it must not (R358, R377)? -/
def State.poolClash (s : State) (p tier lines team base count : Nat) : Bool :=
  let len := count * lines * 32
  let clash := (List.range 64).any (fun k => k != p && s.poolOn k &&
    (if tier = 0 then s.poolTier k == 0 && s.poolTeam k == team else s.poolTier k == tier || (tier != 2 && s.poolTier k != 0 && s.poolTier k != 2)) &&
    overlaps base len (s.poolBase k) (s.poolCount k * s.poolLines k * 32))
  clash || base % 32 != 0 || (s.poolSpans tier team base len).any (fun x => s.plt.lends.any (fun l => overlaps x.1 x.2 l.1 l.2)) ||
    (if tier = 0 then decide (2 ^ 24 < base + len) || (s.team team).loadArea.any (fun a => overlaps base len a.1 a.2)
     else if tier = 2 then bitsOf base 48 4 != 0 || gDev base == s.devId
     else !s.gddrOk base len || s.inGold base len)

/-- Slots of a pool that hold plates or chain nodes. -/
def State.takenSlots (s : State) (p : Nat) : List Nat :=
  (s.pool p).used.map (fun u => u.2.1) ++ s.nodesIn p

/-! ## Chains (R361, R362) -/

/-- R379: free every plate and node of a chain, after the turns naming them end, and its reservations. -/
def State.freeChain (s : State) (seq : Nat) : State :=
  match s.chain? seq with
  | none => s
  | some c =>
    let s1 := (c.shadow.filter (fun p => !p.lost)).foldl (fun s p => s.releasePlate seq p) s
    let s2 := (s1.plt.moves ++ s1.plt.staging).foldl
      (fun s m => if m.seq = seq then s.releaseSlot seq m.pool m.rank m.slot else s) s1
    let s3 := s2.freeNodes seq (((c.tree ++ c.pubTree).map (fun x => x.2.2)).dedup)
    { s3 with plt := { s3.plt with
      chains := del s3.plt.chains seq
      staging := s3.plt.staging.filter (fun x => x.seq != seq)
      moves := s3.plt.moves.filter (fun x => x.seq != seq)
      writeBacks := s3.plt.writeBacks.filter (fun x => x.1 != seq)
      promote := s3.plt.promote.filter (fun x => x.1 != seq)
      failed := s3.plt.failed.filter (fun x => x.1 != seq)
      pools := s3.plt.pools.map (fun (x : Nat × PoolSlots) => (x.1, { x.2 with rsv := del x.2.rsv seq })) } }

/-! ## PREPARE (R367) -/

/-- Holder rank and map index that a plan names for a layer-head and a range (R366). -/
def PlatePlan.holder (p : PlatePlan) (lh r : Nat) : Nat × Nat :=
  match p.holders.find? (fun h => h.1 == lh && h.2.1 == r) with
  | some h => (h.2.2.1, h.2.2.2)
  | none => (0, 0)

/-- The range of the device's share that plate index `j` is (R366, R391): its place among the plate indices of the share. -/
def State.rangeNo (s : State) (p : PlatePlan) (share log2n j : Nat) : Nat :=
  let per := max 1 (share / 2 ^ log2n)
  let size := s.sliceSize + 1
  (if size ≤ 1 then j else j / per / size * per + j % per) % max p.ranges 1

/-- The range that a plate of a chain is. -/
def State.rangeOf (s : State) (team : Nat) (c : Chain) (key : Nat) : Nat :=
  s.rangeNo (s.team team).plan (s.team team).share c.log2n (key % 2 ^ c.jb)

/-- Lines of a plate of a chain under a team's plate format (R355). -/
def State.plateLinesOf (s : State) (c : Chain) (kvw team : Nat) : Nat :=
  plateBytes (s.team team).bytes.plateFmt kvw c.log2n / 32

/-- Does plate index `j` hold positions of this device's share, or of a rank that it carries (R391, R477)? -/
def State.shareOf (s : State) (c : Chain) (share j : Nat) : Bool := s.ranksRun.contains (s.shareRank c.log2n share j)

/-- First position whose plates a turn writes: where prefill or recompute stands, else the committed length. -/
def State.firstPos (s : State) (seq : Nat) (c : Chain) : Nat :=
  match s.slot? seq with
  | some x => (match x.st with
    | .prefill | .recover => min x.next c.committed
    | _ => c.committed)
  | none => c.committed

/-- The holder rank that a plan names for a plate. -/
def State.holderOf (s : State) (team : Nat) (c : Chain) (key : Nat) : Nat :=
  ((s.team team).plan.holder (key / 2 ^ c.jb) (s.rangeOf team c key)).1

/-- Allocate one plate that does not exist, or was lost; refused where it finds no slot or its pool's slots are too small. -/
def State.allocPlate (s : State) (seq team key : Nat) : State × Status :=
  match s.chain? seq with
  | none => (s, .eState)
  | some c =>
    if (plateOf c.shadow key).any (fun p => !p.lost) then (s, .ok)
    else
      let p := c.hpool
      let tier := s.poolTier p
      let rank := if tier = 0 then s.holderOf team c key else 0
      if s.poolLines p < s.plateLinesOf c c.kvw team then (s.refuse p .eRange, .eRange)
      else
        match s.findSlot p rank seq with
        | none => (s.refuse p .eNoroom, .eNoroom)
        | some k =>
          let r := s.takeSlot p rank k seq key c.tenant
          let s1 := r.1.editChain seq (insertPlate
            { key := key, tier := tier, kvw := c.kvw, hpool := p, hslot := k, staged := tier == 0
              spool := if tier = 0 then p else 0, srank := rank, sslot := if tier = 0 then k else 0 })
          (if r.2 = .ok then s1 else s1.losePlate seq key, .ok)

/-- Allocate keys in order; the first refusal stands. -/
def State.allocAll (seq team : Nat) : List Nat → State → State × Status
  | [], s => (s, .ok)
  | k :: ks, s =>
    match s.allocPlate seq team k with
    | (s', .ok) => allocAll seq team ks s'
    | r => r

/-- The keys of a sequence from one position to another, in ascending lh and then j. -/
def State.keysOf (s : State) (team lo hi : Nat) (c : Chain) : List Nat :=
  let n := 2 ^ c.log2n
  let js := (List.range (hi / n + 1)).filter (fun j => decide (lo / n ≤ j) && s.shareOf c (s.team team).share j)
  (List.range c.lhs).flatMap (fun lh => js.map (fun j => lh * 2 ^ c.jb + j))

/-- Begin to read a plate's home copy where it lies on another device. -/
def State.readHome (s : State) (seq : Nat) (p : Plate) (use : PlateUse) : State :=
  let g := s.slotAddr p.hpool p.homeRank p.hslot
  if gDev g = s.devId then s
  else s.issueReads 1 (gDev g) (gLoc g) (s.poolLines p.hpool) 0 0 (.plate seq p.key use)

/-- Is a plate of GDDR or PEER without a staged copy in the team's pools, and without one on its way (R367)? -/
def State.wantsStaging (s : State) (seq team : Nat) (p : Plate) : Bool :=
  !(p.tier == 0 || (p.staged && (p.wbPend || s.poolTeam p.spool == team)) || p.lost ||
    s.plt.staging.any (fun x => x.seq == seq && x.key == p.key))

/-- Begin to stage a plate: a slot in the staging pool at the holder's rank (R367). Slots that are too small refuse it (R358); without a free
slot the refusal is reported, and the plate stays unstaged and is mapped REMOTE (R368, log entry 146). -/
def State.stagePlate (s : State) (seq team spool : Nat) (c : Chain) (p : Plate) : State × Status :=
  let rank := s.holderOf team c p.key
  if !s.wantsStaging seq team p then (s, .ok)
  else if s.poolLines spool < s.plateLinesOf c p.kvw team then (s.refuse spool .eRange, .eRange)
  else
    match s.findSlot spool rank seq with
    | none => (s.refuse spool .eNoroom, .ok)
    | some k =>
      let s0 := if p.staged then
          (s.releaseSlot seq p.spool p.srank p.sslot).editPlate seq p.key (fun p => { p with staged := false })
        else s
      let s1 := (s0.takeSlot spool rank k seq p.key c.tenant).1.readHome seq p .stage
      ({ s1 with plt := { s1.plt with staging := s1.plt.staging ++ [⟨seq, p.key, spool, rank, k⟩] } }, .ok)

/-- Begin the move of a plate to a pool (R374). -/
def State.startMove (s : State) (seq team pool : Nat) (c : Chain) (p : Plate) : State × Status :=
  let rank := if s.poolTier pool = 0 then s.holderOf team c p.key else 0
  if s.poolLines pool < s.plateLinesOf c p.kvw team then (s.refuse pool .eRange, .eRange)
  else
    match s.findSlot pool rank seq with
    | none => (s.refuse pool .eNoroom, .eNoroom)
    | some k =>
      let r := s.takeSlot pool rank k seq p.key c.tenant
      let s1 := (r.1.readHome seq p .moveRead).editPlate seq p.key (fun p => { p with moving := true })
      ({ s1 with plt := { s1.plt with
          moves := s1.plt.moves ++ [⟨seq, p.key, pool, rank, k⟩]
          failed := if r.2 = .ok then s1.plt.failed else (seq, p.key, .moveWrite) :: s1.plt.failed } }, .ok)

/-- May the plate manager move a plate (R375)? -/
def State.movable (s : State) (seq : Nat) (p : Plate) : Bool :=
  !(((s.runningIn seq).isSome && p.mapped != 0) ||
    s.plt.turns.any (fun t => t.2.prepared.any (fun q => q.1 == seq)) || p.wbPend || p.tent || p.moving || p.lost)

/-- R393: the plates of a sequence that has left prefill move out of its transit pool, each once it may (R375). -/
def State.moveTransit (s : State) (n : Nat) : State :=
  match s.slot? n, s.chain? n with
  | some x, some c =>
    if x.tpool = x.rpool || c.hpool ≠ x.rpool then s
    else c.shadow.foldl (fun s p =>
      if p.hpool = x.tpool && s.movable n p then (s.startMove n (x.seat.getD 0) x.rpool c p).1 else s) s
  | _, _ => s

/-- Allocate the plates of a sequence up to a position (R367 step 1). -/
def State.allocSeq (s : State) (team : Nat) (b : Nat × Nat) : State × Status :=
  let s1 := s.sweepChain b.1
  match s1.chain? b.1 with
  | none => (s, .eState)
  | some c => State.allocAll b.1 team (s1.keysOf team (s1.firstPos b.1 c) b.2 c) s1

/-- Stage the plates of a sequence (R367 step 2); VAULT homes of another team begin to move, where the staging pool is a VAULT pool (R373). -/
def State.stageSeq (s : State) (team spool : Nat) (b : Nat × Nat) : State × Status :=
  match s.chain? b.1 with
  | none => (s, .eState)
  | some c =>
    c.shadow.foldl (fun (acc : State × Status) p =>
      if acc.2 ≠ .ok then acc
      else if p.tier = 0 && !p.lost && !p.moving && acc.1.poolTeam p.hpool != team && acc.1.poolTier spool == 0 then
        ((acc.1.startMove b.1 team spool c p).1, .ok)
      else acc.1.stagePlate b.1 team spool c p) (s, .ok)

/-- One step of a PREPARE for every sequence of the batch, in order; the first refusal stands. -/
def prepareEach (f : State → Nat × Nat → State × Status) : List (Nat × Nat) → State → State × Status
  | [], s => (s, .ok)
  | b :: bs, s =>
    match f s b with
    | (s', .ok) => prepareEach f bs s'
    | r => r

/-- R367 for a team's batch: request slots with the highest position each may write. The batch is that of a prepared turn from now on, so
that its chains are published at the turn's boundary (R364). In ascending slot order every plate is allocated, then every plate is staged. A
refusal leaves only its report. -/
def State.pltPrepare (s : State) (team spool turn : Nat) (batch : List (Nat × Nat)) : State × Status :=
  let bs := sortBy (fun a b => decide (a.1 ≤ b.1)) batch
  let back := fun (r : State × Status) => ({ s with plt := { s.plt with refusal := r.1.plt.refusal } }, r.2)
  let s0 := { s with plt := { s.plt with turns := upd {} s.plt.turns team (fun t => { t with prepared := bs, turn := turn }) } }
  match prepareEach (fun s b => s.allocSeq team b) bs s0 with
  | (s1, .ok) =>
    (match prepareEach (fun s b => s.stageSeq team spool b) bs s1 with
    | (s2, .ok) => (s2, .ok)
    | r => back r)
  | r => back r

/-- Is a slot of one of these sequences still being zeroed on another device? Their plates' allocation is not complete (R360). -/
def State.seqsZeroing (s : State) (seqs : List Nat) : Bool :=
  s.fab.outs.any (fun t => match t.owner with
    | .plate seq _ .zero => seqs.contains seq
    | _ => false)

/-! ## COMMIT and DISCARD (R369 to R371, R376) -/

/-- R376: the staged slot becomes the home; the old home is released after the turn ends. -/
def State.promotePlate (s : State) (seq key : Nat) : State :=
  match (s.chain? seq).bind (fun c => plateOf c.shadow key) with
  | none => s
  | some p =>
    if p.tier = 0 || !p.staged || p.lost then s
    else if p.wbPend then { s with plt := { s.plt with promote := s.plt.promote ++ [(seq, key)] } }
    else
      ((s.releaseSlot seq p.hpool 0 p.hslot).editPlate seq key (fun p =>
        { p with tier := 0, hpool := p.spool, hslot := p.sslot })).bump Reg.pltMoveCnt 1

/-- First position of a plate. -/
def plateLo (n jb : Nat) (p : Plate) : Nat := 2 ^ n * (p.key % 2 ^ jb)

/-- Did a turn that committed positions `c0` to `c1 - 1` write the plate in vault mode at one of them, beside its home (R369)? -/
def writtenBack (n c0 c1 jb : Nat) (p : Plate) : Bool :=
  p.tier != 0 && p.staged && p.mapped == 1 && decide (c0 < plateLo n jb p + 2 ^ n) && decide (plateLo n jb p < c1) && decide (c0 < c1)

/-- What a commit that wrote positions `c0` to `c1 - 1` makes of one plate: gone, or its new entry (R369, R370). -/
def commitPlate (n c0 c1 keepTo : Nat) (jb : Nat) (p : Plate) : Option Plate :=
  let tent := p.tent && decide (c1 ≤ plateLo n jb p)
  if tent && decide (keepTo < plateLo n jb p) then none
  else some { p with tent := tent, wbPend := p.wbPend || writtenBack n c0 c1 jb p }

/-- Lines of a plate that hold positions `a` to `b - 1` of it, over every part, as offsets in lines (R356, R369). -/
def plateSpan (fmt w log2n a b : Nat) : List Nat :=
  (((List.range (fmtParts fmt + 1)).flatMap (fun part => plateRun fmt w log2n part a (b - a))).map (fun o => o / 32)).dedup

/-- Start the write-back of one plate: on another device its lines leave as WRITEs (R369). -/
def State.startWriteBack (s : State) (seq c0 c1 : Nat) (c : Chain) (p : Plate) : State :=
  let a := c0 - plateLo c.log2n c.jb p
  let b := min (c1 - plateLo c.log2n c.jb p) (2 ^ c.log2n)
  { s with plt := { s.plt with writeBacks := s.plt.writeBacks ++ [(seq, p.key, a, b)] } }

/-- One sequence of a COMMIT: the tentative length goes back to C'; plates that stay tentative and that the prepared turn does not cover give
back their slots, those of copies in progress among them; lines that the turn wrote beside their home begin to be written back. -/
def State.commitSeq (s : State) (team : Nat) (b : Nat × Nat) : State :=
  let s0 := s.sweepChain b.1
  match s0.chain? b.1 with
  | none => s
  | some c =>
    let keepTo := ((s0.turnPlates team).prepared.find? (fun q => q.1 == b.1)).elim 0 Prod.snd
    let c0 := s0.firstPos b.1 c
    let f := commitPlate c.log2n c0 b.2 keepTo c.jb
    let gone := c.shadow.filter (fun p => (f p).isNone)
    let fresh := c.shadow.filter (fun p => writtenBack c.log2n c0 b.2 c.jb p && (f p).isSome)
    let s1 := gone.foldl (fun s p => if p.lost then s.dropCopies b.1 p.key else (s.dropCopies b.1 p.key).releasePlate b.1 p) s0
    let s2 := fresh.foldl (fun s p => s.startWriteBack b.1 c0 b.2 c p) s1
    let s3 := (s2.editChain b.1 (fun ps => ps.filterMap f)).updSlot b.1 (fun x => { x with tentative := b.2 })
    match s3.chain? b.1 with
    | none => s3
    | some c' => s3.setChain b.1 { c' with committed := max c'.committed b.2 }

/-- R369, R370, R376: COMMIT of a team's turn. A repeated one for the same turn and attempt changes nothing (R419). -/
def State.pltCommit (s : State) (team turn attempt : Nat) (seqs : List (Nat × Nat)) (promote : List (Nat × Nat)) : State :=
  if (s.turnPlates team).finished = some (turn, attempt) then s
  else
    let s1 := seqs.foldl (fun s b => s.commitSeq team b) s
    let s2 := promote.foldl (fun s p => s.promotePlate p.1 p.2) s1
    { s2 with plt := { s2.plt with
      turns := upd {} s2.plt.turns team (fun t => { t with finished := some (turn, attempt) }) } }

/-- R371: DISCARD leaves committed lengths and plates as they are. -/
def State.pltDiscard (s : State) (team turn attempt : Nat) : State :=
  { s with plt := { s.plt with turns := upd {} s.plt.turns team (fun t => { t with finished := some (turn, attempt) }) } }

/-! ## Other commands -/

/-- Bind a sequence to a team (R373). -/
def State.bindSeq (s : State) (seq : Nat) (team : Option Nat) : State :=
  match s.chain? seq with
  | none => s
  | some c => s.setChain seq { c with team := team }

/-! ## Copies that end (R368, R369, R374) -/

/-- Has a packet of the transfer failed its CRC, or the zeroing of its slot failed (R257, R377)? -/
def State.hasFailed (s : State) (seq key : Nat) (use : PlateUse) : Bool := s.plt.failed.contains (seq, key, use)

/-- Forget it. -/
def State.clearFailed (s : State) (seq key : Nat) (uses : List PlateUse) : State :=
  { s with plt := { s.plt with failed := s.plt.failed.filter (fun x => !(x.1 == seq && x.2.1 == key && uses.contains x.2.2)) } }

/-- Is a plate new: allocated for a turn that no map entry has named it for yet? Its slot may still be being zeroed (R360). -/
def State.freshPlate (s : State) (seq key : Nat) : Bool :=
  ((s.chain? seq).bind (fun c => plateOf c.shadow key)).any (fun p => p.tent && p.mapped == 0 && !p.lost)

/-- R257: a packet of a plate's copy fails its CRC: the copy that is in progress fails. A packet of the zeroing of a new plate's slot loses
the plate. -/
def State.crcPlate (s : State) (seq key : Nat) (use : PlateUse) : State :=
  let moves := s.plt.moves.any (fun x => x.seq == seq && x.key == key)
  let going := match use with
    | .stage => s.plt.staging.any (fun x => x.seq == seq && x.key == key)
    | .writeBack => s.plt.writeBacks.any (fun x => x.1 == seq && x.2.1 == key)
    | _ => moves
  if use = .zero && !moves then (if s.freshPlate seq key then (s.dropTx (.plate seq key .zero)).losePlate seq key else s)
  else if going then { s with plt := { s.plt with failed := (seq, key, if use = .zero then .moveWrite else use) :: s.plt.failed } } else s

/-- The bytes of a plate's home copy, read for a copy, and whether a read failed; `none` while transactions are outstanding. -/
def State.homeBytes (s : State) (seq : Nat) (p : Plate) (use : PlateUse) : Option (State × List Byte × Bool) :=
  let g := s.slotAddr p.hpool p.homeRank p.hslot
  let len := 32 * s.poolLines p.hpool
  if gDev g = s.devId then
    (let r := s.getLocal .plates (gLoc g) len
     some (r.1.clearFailed seq p.key [use], r.2.2, r.2.1 != .ok || s.hasFailed seq p.key use))
  else
    let o := TxOwner.plate seq p.key use
    let ts := s.txOf o
    if allDone ts then
      some ((s.dropTx o).clearFailed seq p.key [use], ts.flatMap FabTx.got, (failOf ts).isSome || s.hasFailed seq p.key use)
    else none

/-- Copy the lines of a write-back from the staged copy to a home on this device; the first failure stands. -/
def State.writeBackLines (s : State) (src dst : Nat) (ls : List Nat) : State × Status :=
  ls.foldl (fun acc l =>
    let r := acc.1.copyLocal (src + 32 * l) (dst + 32 * l) 32
    (r.1, firstOf acc.2 r.2)) (s, .ok)

/-- Send the lines of a write-back to a home on another device. -/
def State.sendBackLines (s : State) (seq key src dev dst : Nat) (ls : List Nat) : State × Status :=
  ls.foldl (fun acc l =>
    let r := acc.1.readLocal (src + 32 * l) 32
    if r.2.1 = .ok then (r.1.issueWrites 2 1 dev (dst + 32 * l) 0 0 r.2.2 (.plate seq key .writeBack), acc.2)
    else (r.1, firstOf acc.2 r.2.1)) (s, .ok)

/-- A write-back is over: WB_PEND clears unless another waits, and a pending promotion follows (R376); one that failed loses the plate. -/
def State.endWriteBack (s : State) (x : Nat × Nat × Nat × Nat) (lines : Nat) (bad : Bool) : State :=
  let s1 := { s with plt := { s.plt with writeBacks := s.plt.writeBacks.filter (fun y => y != x) } }.clearFailed x.1 x.2.1 [.writeBack]
  if bad then s1.losePlate x.1 x.2.1
  else
    let again := s1.plt.writeBacks.any (fun y => y.1 == x.1 && y.2.1 == x.2.1)
    let s2 := (s1.editPlate x.1 x.2.1 (fun p => { p with wbPend := again })).bump Reg.pltWbLines lines
    let s3 := if s2.plt.promote.contains (x.1, x.2.1) && !again then
        ({ s2 with plt := { s2.plt with promote := s2.plt.promote.filter (fun y => y != (x.1, x.2.1)) } }).promotePlate x.1 x.2.1
      else s2
    s3.moveTransit x.1

/-- A plate that is being staged has a new home: the copy starts again from it, or ends, where the home is itself the staged copy
(R357). -/
def State.restage (s : State) (seq key : Nat) : State :=
  let o := TxOwner.plate seq key .stage
  match s.plt.staging.find? (fun y => y.seq == seq && y.key == key), (s.chain? seq).bind (fun c => plateOf c.shadow key) with
  | some y, some p =>
    let s1 := s.dropTx o
    if p.tier ≠ 0 then s1.readHome seq p .stage
    else
      let s2 := s1.releaseSlot seq y.pool y.rank y.slot
      { s2 with plt := { s2.plt with staging := s2.plt.staging.filter (fun z => z != y) } }
  | _, _ => s

/-- The move of a plate ends at its destination: the new home stands in the shadow (R374). A plate demoted from a vault keeps no
staged copy; one that moves into a vault is staged there. -/
def State.endMove (s : State) (x : PlateCopy) (p : Plate) : State :=
  let tier := s.poolTier x.pool
  let s1 := s.releaseSlot x.seq p.hpool p.homeRank p.hslot
  let s2 := if tier = 0 && p.tier ≠ 0 && p.staged then s1.releaseSlot x.seq p.spool p.srank p.sslot else s1
  let s3 := s2.editPlate x.seq x.key (fun p =>
    { p with
      tier := tier, hpool := x.pool, hslot := x.slot, moving := false
      staged := tier == 0 || (p.tier != 0 && p.staged)
      spool := if tier = 0 then x.pool else p.spool
      srank := if tier = 0 then x.rank else p.srank
      sslot := if tier = 0 then x.slot else p.sslot })
  (s3.restage x.seq x.key).bump Reg.pltMoveCnt 1

/-- A move whose destination write failed: the destination is freed and the plate stays (R374). -/
def State.dropMove (s : State) (x : PlateCopy) : State :=
  (((s.clearFailed x.seq x.key [.moveWrite]).freeSlot x.pool x.rank x.slot).editPlate x.seq x.key (fun p => { p with moving := false })).bump Reg.pltMoveFailCnt 1

/-- R393: the transit reservation is released when the last move out of the transit pool completes. -/
def State.releaseTransit (s : State) (n : Nat) : State :=
  match s.slot? n, s.chain? n with
  | some x, some c =>
    if x.tslots = 0 || x.st == .prefill || x.tpool == x.rpool || c.shadow.any (fun p => p.hpool == x.tpool && !p.lost) then s
    else (s.updPool x.tpool (fun y => { y with rsv := del y.rsv n })).updSlot n (fun x => { x with tslots := 0 })
  | _, _ => s

/-! ## Watermarks (R372, R375) -/

/-- A mark of a pool, in slots. -/
def State.lowMark (s : State) (p : Nat) : Nat := s.fld (Reg.pltPoolWm p) 0 6 * s.poolCount p / 64
def State.highMark (s : State) (p : Nat) : Nat := s.fld (Reg.pltPoolWm p) 8 6 * s.poolCount p / 64

/-- Free slots of a pool at a rank. -/
def State.freeAt (s : State) (p rank : Nat) : Nat := s.poolCount p - (s.usedAt p rank).length

/-- Every plate with its chain's sequence, least recently mapped first. -/
def State.byStamp (s : State) (f : Nat → Plate → Bool) : List (Nat × Plate) :=
  sortBy (fun a b => decide (a.2.stamp ≤ b.2.stamp))
    (s.plt.chains.flatMap (fun c => (c.2.shadow.filter (f c.1)).map (fun p => (c.1, p))))

/-- Free slots of a VAULT pool, the least over its cores, with the moves in progress out of each core counted as free (R375). -/
def State.freeSoon (s : State) (p : Nat) : Nat :=
  let out := fun (r : Nat) => (s.plt.moves.filter (fun m =>
    ((s.chain? m.seq).bind (fun c => plateOf c.shadow m.key)).any (fun x => x.tier == 0 && x.hpool == p && x.srank == r))).length
  (((s.pool p).used.map Prod.fst).dedup.map (fun r => s.freeAt p r + out r)).foldl min (s.poolCount p)

/-- R364, R370: slots and nodes whose release waited for a turn that has ended are freed. -/
def State.reclaim (s : State) (team : Nat) : State :=
  let done := (s.turnPlates team).ended
  let due := s.plt.deferred.filter (fun d => d.1 == team && decide (d.2.2.2.2 ≤ done))
  let dueNodes := s.plt.deferredNodes.filter (fun d => d.1 == team && decide (d.2.2 ≤ done))
  let s1 := { s with plt := { s.plt with
    deferred := s.plt.deferred.filter (fun d => !(d.1 == team && decide (d.2.2.2.2 ≤ done)))
    deferredNodes := s.plt.deferredNodes.filter (fun d => !(d.1 == team && decide (d.2.2 ≤ done)))
    nodes := dueNodes.foldl (fun ns d => del ns d.2.1) s.plt.nodes } }
  due.foldl (fun s d => s.freeSlot d.2.1 d.2.2.1 d.2.2.2.1) s1

end Sys2Proof.Machine
end

