-- ==== Sys2Proof/Machine/Rings.lean ====
section
/-! DEFINITION. Rings of the host interface: posting and deferring records, and the end of a request (R388, R413, R414, R543, R545,
R547, R550, R551). -/

namespace Sys2Proof.Machine

/-! ## Rings (R543) -/

/-- The rings of a function. -/
def ringReq : Nat := 0
def ringCmd : Nat := 1
def ringTok : Nat := 2
def ringCpl : Nat := 3

/-- RING_STAT.ST of a ring: 0 DISABLED, 1 RUN, 2 HALTED. -/
def State.ringSt (s : State) (f r : Nat) : Nat := s.fld (Reg.ringStat f r) 0 2

/-- Entries of a ring as a number, and entries it holds (R543). -/
def State.ringSize (s : State) (f r : Nat) : Nat := 2 ^ s.fld (Reg.ringCfg f r) 2 5
def State.ringHeld (s : State) (f r : Nat) : Nat :=
  (s.reg (Reg.ringTail f r) + 2 ^ 32 - s.reg (Reg.ringHead f r)) % 2 ^ 32

/-- May the device write a record to the ring now (R545)? -/
def State.ringOpen (s : State) (f r : Nat) : Bool :=
  s.ringSt f r == 1 && decide (s.ringHeld f r < s.ringSize f r) && (s.fn f).busMaster && !s.ideBlocks && !s.hst.perst

/-- A vector's trigger by count (R547): vector 0 counts CPL records, vector 1 TOK records. -/
def State.irqCount (s : State) (f v : Nat) : State :=
  let n := nth 0 (s.fn f).irq v + 1
  if s.fld (Reg.fnIrq f) 0 8 ≤ n then (s.updFn f (fun x => { x with irq := setNth x.irq v 0 })).msi f v
  else s.updFn f (fun x => { x with irq := setNth x.irq v n })

/-- R545: write a record, then TAIL, then the index write-back. -/
def State.postNow (s : State) (f r : Nat) (bytes : List Byte) : State :=
  let t := (s.reg (Reg.ringTail f r) + 1) % 2 ^ 32
  let s1 := (s.emit (.record f r bytes)).setReg (Reg.ringTail f r) t
  let s2 := if s.reg (Reg.ringWb f r) = 0 then s1 else s1.emit (.record f (4 + r) (leBytes 4 t))
  s2.irqCount f (if r = ringCpl then 0 else 1)

/-! ## Records (R550, R551) -/

/-- A completion record (Table HST-7). -/
def cplRecord (tag : Nat) (st : Status) (isCmd late noSlot : Bool) (slot result idx : Nat) : List Byte :=
  leBytes 16 (tag % 2 ^ 32 + statusCode st * 2 ^ 32 + bit isCmd * 2 ^ 40 + bit late * 2 ^ 41 + bit noSlot * 2 ^ 42 +
    slot % 2 ^ 13 * 2 ^ 48 + result % 2 ^ 32 * 2 ^ 64 + idx % 2 ^ 32 * 2 ^ 96)

/-- A token record (Table HST-6) of at most five tokens. -/
def tokRecord (tag slot pos : Nat) (late more : Bool) (toks : List Nat) : List Byte :=
  leBytes 12 (tag % 2 ^ 32 + slot % 2 ^ 13 * 2 ^ 32 + toks.length % 8 * 2 ^ 45 + bit late * 2 ^ 48 + bit more * 2 ^ 49 +
    pos % 2 ^ 32 * 2 ^ 64) ++
    (List.range 5).flatMap (fun i => leBytes 4 (nth 0 toks i))

/-- The request slot a record belongs to; none for a command's completion or one without a slot. -/
def recordSlot (r : Nat) (bytes : List Byte) : Option Nat :=
  let w := leAt bytes 4 4
  if r = ringTok then some (w % 2 ^ 13)
  else if bitOf w 8 || bitOf w 10 then none
  else some (bitsOf w 16 13)

/-- The records of one commit: five tokens to a record, MORE on every one but the last. -/
def tokRecords (tag slot : Nat) (late : Bool) : Nat → Nat → List Nat → List (List Byte)
  | 0, _, _ => []
  | fuel + 1, pos, toks =>
    if toks.isEmpty then []
    else tokRecord tag slot pos late (decide (5 < toks.length)) (toks.take 5) ::
      tokRecords tag slot late fuel (pos + 5) (toks.drop 5)

/-! ## Posting (R545) -/

/-- Devices of the slice's live ranks but this one, in ascending rank. -/
def State.otherMembers (s : State) : List Nat :=
  if s.sliceSt = 0 then []
  else ((List.range (s.sliceSize + 1)).filter (fun r => r != s.sliceRank && s.fld (Reg.slcRank r) 12 1 == 1)).map
    (fun r => s.fld (Reg.slcRank r) 0 12)

/-- CHAIN_FREE and RELEASE for a request that this device admitted go to every other member of its slice. -/
def State.tellRelease (s : State) (n : Nat) : State :=
  match s.slot? n with
  | some x => if x.lead = s.devId && decide (1 < x.sliceSize) && !x.refine then
      s.otherMembers.foldl (fun s d => s.sendCtrl d 2 n false) s else s
  | none => s

/-- A slot whose completion has been posted goes FREE: its plates and its reservations are released (R388, R394). -/
def State.freeReq (s : State) (n : Nat) : State :=
  let s1 := (s.tellRelease n).freeChain n
  { s1 with
    dlr := { s1.dlr with slots := del s1.dlr.slots n }
    plt := { s1.plt with pools := s1.plt.pools.map (fun (x : Nat × PoolSlots) => (x.1, { x.2 with rsv := del x.2.rsv n })) } }

/-- Post what can be posted of a function's records, in order. A record waits behind an earlier one of its ring, and behind an
earlier one of its request (R545). -/
def postList (f : Nat) : List (Nat × List Byte) → List Nat → List Nat → State → State × List (Nat × List Byte)
  | [], _, _, s => (s, [])
  | (r, bytes) :: rest, rings, slots, s =>
    let own := recordSlot r bytes
    let held := rings.contains r || own.any (fun n => slots.contains n) || !s.ringOpen f r
    if held then
      let x := postList f rest (r :: rings) (own.toList ++ slots) s
      (x.1, (r, bytes) :: x.2)
    else
      let s1 := s.postNow f r bytes
      let s2 := match (if r = ringCpl then own else none) with
        | some n => s1.freeReq n
        | none => s1
      postList f rest rings slots s2

/-- R545: deferred records are posted once their cause clears. -/
def State.flush (s : State) (f : Nat) : State :=
  let x := postList f (s.fn f).deferred [] [] s
  x.1.updFn f (fun y => { y with deferred := x.2 })

/-- Post a record, or defer it. -/
def State.post (s : State) (f r : Nat) (bytes : List Byte) : State :=
  (s.updFn f (fun x => { x with deferred := x.deferred ++ [(r, bytes)] })).flush f

/-- The completion of a command of a function (R551, R552). -/
def State.cmdDone (s : State) (f tag idx : Nat) (st : Status) (result : Nat) : State :=
  s.post f ringCpl (cplRecord tag st true false false 0 result idx)

/-! ## The end of a request (R388, R410 to R414) -/

/-- The counter of an ending status (Table DLR-9). -/
def State.countEnd (s : State) (st : Status) : State :=
  match st with
  | .eNoroom => s.bump Reg.dlrNoroomCnt 1
  | .eLate => s.bump Reg.dlrLateCnt 1
  | .eDeadline => s.bump Reg.dlrDeadlineCnt 1
  | .eCancelled => s.bump Reg.dlrCancelCnt 1
  | _ => s

/-- A request ends: its slot goes to ENDING and its completion is posted or deferred. Records of a reset function are discarded,
and its slot goes FREE (R548); so does that of a member of a slice, which posts nothing (R475). -/
def State.endReq (s : State) (n : Nat) (st : Status) : State :=
  match s.slot? n with
  | none => s
  | some x =>
    if x.st = .ending then s
    else
      let s1 := ((s.dropPrepared n).countEnd st).updSlot n (fun x => { x with st := .ending, result := some st })
      if x.discard || (s.sliceMember && x.lead != s.devId) then s1.freeReq n
      else s1.post x.fn ringCpl (cplRecord x.tag st false x.late false n x.delivered x.descIdx)

/-- Tokens of one commit leave for the host (R550), beginning at a position. -/
def State.deliverTokens (s : State) (n pos : Nat) (late : Bool) (toks : List Nat) : State :=
  match s.slot? n with
  | none => s
  | some x =>
    let s1 := s.updSlot n (fun x => { x with delivered := x.delivered + toks.length, late := x.late || late })
    if x.discard || (s.sliceMember && x.lead != s.devId) then s1
    else (tokRecords x.tag n late (toks.length + 1) pos toks).foldl (fun s b => s.post x.fn ringTok b) s1

end Sys2Proof.Machine
end

