-- ==== Sys2Proof/Machine/Proofs.lean ====
section
/-! DEFINITION. The proof ring and the timing log: CRC-32C, room under both policies, OPEN, TURN and timing records (R485 to R495). -/

namespace Sys2Proof.Machine

/-! ## CRC-32C (R488) -/

/-- Eight reflected steps of the polynomial 0x1EDC6F41. -/
def crcByte : Nat → Nat → Nat
  | 0, c => c
  | k + 1, c => crcByte k (if c % 2 = 1 then Nat.xor (c / 2) 0x82F63B78 else c / 2)

/-- The CRC register over bytes in ascending address. -/
def crcRun : List Byte → Nat → Nat
  | [], c => c
  | b :: bs, c => crcRun bs (crcByte 8 (Nat.xor c b.toNat))

def crc32c (bs : List Byte) : Nat := Nat.xor (crcRun bs 0xFFFFFFFF) 0xFFFFFFFF

/-! ## Rings (R490, R491, R493) -/

/-- The registers of a ring of the DET block. -/
structure LogRing where
  tlog : Bool
  base : Nat
  size : Nat
  head : Nat
  tail : Nat

def proofRing : LogRing := ⟨false, Reg.detRingBase, Reg.detRingSize, Reg.detRingHead, Reg.detRingTail⟩
def timingRing : LogRing := ⟨true, Reg.detTlogBase, Reg.detTlogSize, Reg.detTlogHead, Reg.detTlogTail⟩

/-- The records of a ring that have not been released. -/
def State.ringRecs (s : State) (g : LogRing) : List RingRec := if g.tlog then s.det.tlogs else s.det.proofs
def State.setRecs (s : State) (g : LogRing) (rs : List RingRec) : State :=
  { s with det := if g.tlog then { s.det with tlogs := rs } else { s.det with proofs := rs } }

/-- Bytes of a ring, free bytes, and the bytes a record of `n` bytes takes with the PAD that may precede it (R485). -/
def State.ringBytes (s : State) (g : LogRing) : Nat := s.fld g.size 0 24 * 4096
def State.ringRoom (s : State) (g : LogRing) : Nat := s.ringBytes g - (s.reg g.head - s.reg g.tail)
def State.padBytes (s : State) (g : LogRing) (n : Nat) : Nat :=
  let off := s.reg g.head % s.ringBytes g
  if s.ringBytes g < off + n then s.ringBytes g - off else 0
def State.ringFits (s : State) (g : LogRing) (n : Nat) : Bool := decide (s.padBytes g n + n ≤ s.ringRoom g)

/-- May a record be written now: recording is off, the policy overwrites, or it fits (R491, R493)? -/
def State.ringReady (s : State) (g : LogRing) (n : Nat) : Bool :=
  s.fld Reg.detCfg 0 1 == 0 || s.fld Reg.detCfg 1 1 == 0 || s.ringFits g n

/-- OVERWRITE: TAIL passes whole records, oldest first, until `n` bytes fit. -/
def makeRoom (g : LogRing) (n : Nat) : List RingRec → State → State
  | [], s => s.setRecs g []
  | r :: rs, s =>
    if s.ringFits g n then s.setRecs g (r :: rs)
    else
      let s1 := s.setReg g.tail (r.start + r.bytes)
      makeRoom g n rs (if r.counted then (s1.bump Reg.detLostCnt 1).setFld Reg.detStatus 0 1 1 else s1)

/-- Write bytes at the head of a ring and advance HEAD past them; a write that fails is recorded, and leaves free bytes (R493). -/
def State.ringPut (s : State) (g : LogRing) (bytes : List Byte) (span : Nat) (counted : Bool) : State :=
  let h := s.reg g.head
  let a := s.reg g.base + h % s.ringBytes g
  let lost := fun (s : State) => (s.bump Reg.detWerrCnt 1).setFld Reg.detStatus 2 1 1
  let spoil := fun (s : State) =>
    { s with mem := s.mem.write a (freeBytes s.freeCount bytes.length), freeCount := s.freeCount + bytes.length }
  let s1 := if !s.gddrOk a bytes.length then lost (spoil s)
    else if (s.failedWrites a bytes.length).isEmpty then s.writeGddr a bytes else lost (spoil (s.writeGddr a bytes))
  (s1.setRecs g (s1.ringRecs g ++ [⟨h, span, counted⟩])).setReg g.head (h + span)

/-- The magic number that opens every record of the proof ring (R485). -/
def recMagic : Nat := 0x31505254

/-- Write one record into a ring. -/
def State.ringWrite (s : State) (g : LogRing) (bytes : List Byte) : State :=
  if s.fld Reg.detCfg 0 1 = 0 then s
  else
    let n := bytes.length
    let s1 := if s.ringFits g n then s else makeRoom g n (s.ringRecs g) s
    let pad := s1.padBytes g n
    let s2 := if pad = 0 then s1 else s1.ringPut g (leBytes 64 recMagic) pad false
    s2.ringPut g bytes n true

/-- Take the next serial (R489). -/
def State.takeSerial (s : State) : State := s.bump Reg.detSerial 1

/-! ## OPEN (R487) -/

/-- A record's bytes with its CRC in the last word of its 64-byte header. -/
def sealRecord (head tail : List Byte) : List Byte :=
  head ++ leBytes 4 (crc32c (head ++ zeroBytes 4 ++ tail)) ++ tail

/-- The OPEN record of a request, before its CRC. -/
def openHead (serial : Nat) (x : Slot) (prompt : List Byte) : List Byte :=
  leBytes 60 (recMagic + 2 * 2 ^ 32 + x.d % 8 * 2 ^ 36 + bit x.refine * 2 ^ 39 + x.tenant % 64 * 2 ^ 40 +
    x.model % 2 ^ 16 * 2 ^ 48 + serial % 2 ^ 64 * 2 ^ 64 + x.arrival % 2 ^ 64 * 2 ^ 128 + x.seed % 2 ^ 128 * 2 ^ 192 +
    x.temp % 2 ^ 32 * 2 ^ 320 + x.topK % 2 ^ 9 * 2 ^ 352 + x.topP % 2 ^ 16 * 2 ^ 368 + x.delta % 2 ^ 16 * 2 ^ 384 +
    x.promptLen % 2 ^ 32 * 2 ^ 416 + crc32c prompt * 2 ^ 448)

/-- R487: the OPEN record of a request whose prompt is `prompt`. -/
def State.writeOpen (s : State) (x : Slot) (prompt : List Byte) : State :=
  (s.ringWrite proofRing (sealRecord (openHead (s.reg Reg.detSerial) x prompt) [])).takeSerial

/-! ## TURN (R486, R488) -/

/-- The inputs of an entry as the CRC takes them: a draft adds its probability. -/
def inputBytes (e : Entry) : List Byte :=
  e.inputs.flatMap (fun i => leBytes 4 i.1 ++ (match i.2 with
    | some p => leBytes 4 p
    | none => []))

/-- What a turn put out for an entry: committed tokens, then drafts with their probabilities. -/
def outputBytes (o : SeqOut) : List Byte :=
  o.tokens.flatMap (leBytes 4) ++ o.drafts.flatMap (fun d => leBytes 4 d.1 ++ leBytes 4 d.2)

/-- The output of one sequence of a turn. -/
def outOf (outs : List SeqOut) (slot : Nat) : SeqOut :=
  (outs.find? (fun o => o.slot == slot)).getD ⟨slot, [], []⟩

/-- CRC of a turn's outputs, in batch order. -/
def outCrc (batch : List Entry) (outs : List SeqOut) : Nat := crc32c (batch.flatMap (fun e => outputBytes (outOf outs e.slot)))

/-- One entry of a TURN record (Table DET-5). -/
def turnEntry (e : Entry) (o : SeqOut) : List Byte :=
  leBytes 16 (e.slot % 2 ^ 13 + e.ekind % 8 * 2 ^ 13 + e.inputs.length % 2 ^ 13 * 2 ^ 16 +
    (if e.ekind = 0 then (o.tokens.length - 1) % 8 else 0) * 2 ^ 29 + e.pos % 2 ^ 32 * 2 ^ 32 + e.arr % 2 ^ 32 * 2 ^ 64 +
    crc32c (inputBytes e) * 2 ^ 96)

/-- The cores' turn frames up to the last END, saturating (Table DET-4). -/
def State.turnFrames (s : State) (t : Team) : Nat :=
  min 0xFFFF ((t.cores.map (fun n => (s.core n).turnCyc / 2048 + 1)).foldl max 0)

/-- The header of a TURN record before its CRC (Table DET-4), for a run of the turn: its rank, what it put out, its frames (R494). -/
def State.turnHead (s : State) (team : Nat) (t : Team) (run : Nat × List SeqOut × Nat) (tlogN : Nat) : List Byte :=
  leBytes 60 (recMagic + 1 * 2 ^ 32 + t.role % 4 * 2 ^ 36 + t.attempt % 4 * 2 ^ 38 + team % 64 * 2 ^ 40 +
    t.batch.length % 2 ^ 12 * 2 ^ 48 + t.turn % 2 ^ 64 * 2 ^ 64 + s.reg Reg.glbDetClass % 2 ^ 64 * 2 ^ 128 +
    t.image.programId % 2 ^ 64 * 2 ^ 192 + t.pltVer % 2 ^ 64 * 2 ^ 256 + s.reg Reg.detSerial % 2 ^ 64 * 2 ^ 320 +
    outCrc t.batch run.2.1 * 2 ^ 384 + tlogN % 2 ^ 16 * 2 ^ 416 + run.2.2 % 2 ^ 16 * 2 ^ 432 + s.devId * 2 ^ 448 +
    run.1 % 2 ^ 7 * 2 ^ 460 + s.sliceSize % 2 ^ 7 * 2 ^ 467)

/-- The whole TURN record of a run of a team's turn, from the batch that is held since it was final (R405); the bytes up to the next 64-byte
boundary follow as zeros (R485). -/
def State.turnRecord (s : State) (team : Nat) (t : Team) (run : Nat × List SeqOut × Nat) (tlogN : Nat) : List Byte :=
  let r := sealRecord (s.turnHead team t run tlogN) (t.batch.flatMap (fun e => turnEntry e (outOf run.2.1 e.slot)))
  r ++ zeroBytes (ceilDiv r.length 64 * 64 - r.length)

/-! ## The timing log (R495) -/

/-- Does a section carry a flag of R150? -/
def SectLog.flagged (x : SectLog) : Bool := x.late || x.stalled || x.loose || x.barrier

/-- One timing entry: flags of every core that flagged the section, how many did, the largest stall in frames. -/
structure TimingEntry where
  id : Nat
  late : Bool
  stalled : Bool
  loose : Bool
  barrier : Bool
  cores : Nat
  lost : Nat
deriving DecidableEq, Repr

/-- The entry of a section id over the section logs of a team's cores. -/
def timingEntry (logs : List (List SectLog)) (id : Nat) : TimingEntry :=
  let xs := (logs.flatMap (fun l => l)).filter (fun x => x.flagged && x.id == id)
  { id := id, late := xs.any SectLog.late, stalled := xs.any SectLog.stalled, loose := xs.any SectLog.loose
    barrier := xs.any SectLog.barrier
    cores := (logs.filter (fun l => l.any (fun x => x.flagged && x.id == id))).length
    lost := (xs.map (fun x => ceilDiv x.lost 2048)).foldl max 0 }

/-- The ids that some core flagged, ascending. -/
def flaggedIds (logs : List (List SectLog)) : List Nat :=
  sortBy (fun a b => decide (a ≤ b)) (((logs.flatMap (fun l => l)).filter SectLog.flagged).map SectLog.id).dedup

/-- Two entries merged under the id of the first (R495). -/
def TimingEntry.merge (a b : TimingEntry) : TimingEntry :=
  { a with late := a.late || b.late, stalled := a.stalled || b.stalled, loose := a.loose || b.loose
           barrier := a.barrier || b.barrier, cores := max a.cores b.cores, lost := max a.lost b.lost }

/-- The bytes of a timing entry (Table DET-7). -/
def TimingEntry.bytes (x : TimingEntry) (serial : Nat) (merged : Bool) : List Byte :=
  leBytes 16 (serial % 2 ^ 64 + x.id % 2 ^ 16 * 2 ^ 64 + bit x.late * 2 ^ 80 + bit x.stalled * 2 ^ 81 + bit x.loose * 2 ^ 82 +
    bit x.barrier * 2 ^ 83 + x.cores % 2 ^ 13 * 2 ^ 84 + bit merged * 2 ^ 97 + min x.lost 0xFFFF * 2 ^ 112)

/-- The timing entries of a turn: at most 1,024, the last one merged where there are more. -/
def timingEntries (logs : List (List SectLog)) : List (TimingEntry × Bool) :=
  let es := (flaggedIds logs).map (timingEntry logs)
  if es.length ≤ 1024 then es.map (fun e => (e, false))
  else
    (es.take 1023).map (fun e => (e, false)) ++
      (match es.drop 1023 with
        | [] => []
        | e :: rest => [(rest.foldl TimingEntry.merge e, true)])

/-- The section logs of a team's cores. -/
def State.teamLogs (s : State) (t : Team) : List (List SectLog) := t.cores.map (fun n => (s.core n).sectLog)

/-- Do records of these lengths fit in a ring one after another, each with the PAD that it needs, from a value of HEAD? -/
def State.recordsFit (s : State) (g : LogRing) : List Nat → Nat → Bool
  | [], h => decide (h ≤ s.reg g.tail + s.ringBytes g)
  | n :: ns, h =>
    let off := h % s.ringBytes g
    s.recordsFit g ns (h + (if s.ringBytes g < off + n then s.ringBytes g - off else 0) + n)

/-- May records be written now (R491, R493)? -/
def State.ringTakes (s : State) (g : LogRing) (ns : List Nat) : Bool :=
  s.fld Reg.detCfg 0 1 == 0 || s.fld Reg.detCfg 1 1 == 0 || s.recordsFit g ns (s.reg g.head)

/-- The runs of a turn, one for each rank that the program ran for (R477). -/
def State.turnRuns (s : State) (t : Team) : List (Nat × List SeqOut × Nat) :=
  if t.ran.isEmpty then s.ranksRun.map (fun r => (r, t.outputs, s.turnFrames t)) else t.ran

/-- Has each ring room for a turn's records (R491)? -/
def State.turnRoom (s : State) (team : Nat) (t : Team) : Bool :=
  let n := (timingEntries (s.teamLogs t)).length
  s.ringTakes timingRing ((List.range n).map (fun _ => 16)) &&
    s.ringTakes proofRing ((s.turnRuns t).map (fun r => (s.turnRecord team t r n).length))

/-- R486, R494, R495: step 2 writes the timing entries, then the TURN record of each rank. -/
def State.writeTurn (s : State) (team : Nat) (t : Team) : State :=
  let es := timingEntries (s.teamLogs t)
  let serial := s.reg Reg.detSerial
  let s1 := es.foldl (fun s e => s.ringWrite timingRing (e.1.bytes serial e.2)) s
  (s.turnRuns t).foldl (fun s r => (s.ringWrite proofRing (s.turnRecord team t r es.length)).takeSerial) s1

end Sys2Proof.Machine
end

