-- ==== Sys2Proof/Machine/Golden.lean ====
section
/-! DEFINITION. The golden-copy area: where a golden byte lies, reading a unit with rebuild, writing whole stripes (R299 to R301). -/

namespace Sys2Proof.Machine

/-- Region and offset of golden unit `u` (R299). -/
def State.goldUnit (s : State) (u : Nat) : Nat :=
  let t := u / 28
  let j := u % 28
  gddrBase (8 * (j % 4) + (t % 8 + 1 + j / 4) % 8) + s.goldLo + t * 4096

/-- The parity unit of stripe `t` in group `pg`. -/
def State.goldParity (s : State) (t pg : Nat) : Nat := gddrBase (8 * pg + t % 8) + s.goldLo + t * 4096

/-- The golden engine reads the bytes stored at a unit's place, and its sectors count (R295); none where its region is out of service or a
sector is bad. -/
def State.unitAt (s : State) (a : Nat) : State × Option (List Byte) :=
  if s.gddrOk a 4096 then
    (let r := s.readGddr a 4096
     (r.1, if r.2.1 = .ok then some r.2.2 else none))
  else (s, none)

/-- Bytewise XOR. -/
def xorBytes (a b : List Byte) : List Byte := (a.zip b).map (fun p => p.1 ^^^ p.2)

/-- The XOR of the units at some places; none where one cannot be read. -/
def State.xorUnits (s : State) (as : List Nat) : State × Option (List Byte) :=
  as.foldl (fun (acc : State × Option (List Byte)) a =>
    let r := acc.1.unitAt a
    (r.1, acc.2.bind (fun x => r.2.map (xorBytes x)))) (s, some (zeroBytes 4096))

/-- R299: the golden engine reads a unit. One that cannot be read where it lies is rebuilt from its stripe, which counts; none where that
fails too, or where the device has no such unit (R301). -/
def State.readUnit (s : State) (u : Nat) : State × Option (List Byte) :=
  let t := u / 28
  let pg := u % 28 % 4
  if s.goldLen ≤ t * 4096 then (s, none)
  else
    match s.unitAt (s.goldUnit u) with
    | (s1, some b) => (s1, some b)
    | (s1, none) =>
      let others := ((List.range 7).map (fun d => 28 * t + pg + 4 * d)).filter (fun v => v != u)
      let r := s1.xorUnits (s.goldParity t pg :: others.map s.goldUnit)
      (if r.2.isSome then r.1.bump Reg.gdrReconCnt 1 else r.1, r.2)

/-- The golden units that 32 bytes from `g` touch. -/
def unitsOf (g : Nat) : List Nat := [g / 4096, (g + 31) / 4096].dedup

/-- 32 golden bytes from `g`, from this device's units. -/
def State.readGold (s : State) (g : Nat) : State × Option (List Byte) :=
  let r := (unitsOf g).foldl (fun (acc : State × Option (List Byte)) u =>
    let x := acc.1.readUnit u
    (x.1, acc.2.bind (fun b => x.2.map (fun c => b ++ c)))) (s, some [])
  (r.1, r.2.map (fun b => (b.drop (g % 4096)).take 32))

/-- Can the golden peer be asked (R519, Table FLT-12): it is configured, and there is a route to it in class 1? -/
def State.peerReach (s : State) : Bool :=
  s.fld Reg.fltGoldPeer 12 1 == 1 && (s.routeTo (s.fld Reg.fltGoldPeer 0 12) 1 0).isSome

/-- What a source came to: bytes of this device; bytes of the golden peer; no copy that can be reached. -/
inductive Found where
  | here (bs : List Byte)
  | peer (bs : List Byte)
  | gone
deriving DecidableEq, Repr

/-- R516, R519: the bytes of a source. Golden units that this device cannot deliver, or that `distrust` says it must not (R517), are read
from the peer. Image bytes have no other copy. -/
def State.findSource (s : State) (src : LineSrc) (peer : Option (List Byte)) (distrust : Bool) : State × Found :=
  let remote := fun (s : State) => match peer with
    | some bs => if s.peerReach then ((s.bump Reg.fltPeerCnt 1).setFld Reg.fltStatus 2 1 1, Found.peer bs) else (s, .gone)
    | none => (s, .gone)
  let gold := fun (g : Nat) =>
    if distrust then remote s
    else
      match s.readGold g with
      | (s1, some bs) => (s1, Found.here bs)
      | (s1, none) => remote s1
  match src with
  | .base g => gold g
  | .delta _ g => gold g
  | .image a =>
    let r := s.readGddr a 32
    if s.gddrOk a 32 && r.2.1 == .ok then (r.1, .here r.2.2) else (r.1, .gone)

/-- Write one unit where its region is in service. -/
def State.putUnit (s : State) (a : Nat) (b : List Byte) : State := if s.gddrOk a 4096 then s.writeGddr a b else s

/-- R300: write one stripe: its data units, as far as they are known, and the parity unit of every group whose seven are. -/
def State.writeUnits (s : State) (t : Nat) (unit : Nat → Option (List Byte)) : State :=
  let s1 := (List.range 28).foldl (fun s j => (unit j).elim s (s.putUnit (s.goldUnit (28 * t + j)))) s
  (List.range 4).foldl (fun s pg =>
    ((List.range 7).foldl (fun acc d => acc.bind (fun x => (unit (pg + 4 * d)).map (xorBytes x))) (some (zeroBytes 4096))).elim s
      (s.putUnit (s.goldParity t pg))) s1

/-- Write a whole stripe. -/
def State.writeStripe (s : State) (t : Nat) (data : List Byte) : State := s.writeUnits t (fun j => some ((data.drop (4096 * j)).take 4096))

/-- Rewrite bytes of one golden unit, from offset `k`: the stripe is read, and written whole with its parity (R300, R517). What of the unit
cannot be read is zero. -/
def State.mendUnit (s : State) (u k : Nat) (bs : List Byte) : State :=
  let t := u / 28
  if s.goldLen ≤ t * 4096 then s
  else
    let r := (List.range 28).foldl (fun (acc : State × List (Option (List Byte))) j =>
      let x := acc.1.readUnit (28 * t + j)
      (x.1, acc.2 ++ [x.2])) (s, [])
    let own := (r.2.getD (u % 28) none).getD (zeroBytes 4096)
    r.1.writeUnits t (fun j => if j = u % 28 then some (own.take k ++ bs ++ own.drop (k + bs.length)) else r.2.getD j none)

/-- Bytes of a stripe's data. -/
def stripeBytes : Nat := 28 * 4096

/-- Stripes of the golden space, and the stripes that models and deltas hold: first and count. -/
def State.goldStripes (s : State) : Nat := s.goldLen / 4096
def Model.spans (m : Model) : List (Nat × Nat) :=
  (m.off / stripeBytes, ceilDiv m.len stripeBytes) :: m.deltas.map (fun d => (d.2.2.1 / stripeBytes, ceilDiv d.2.2.2 stripeBytes))
def State.goldUsed (s : State) : List (Nat × Nat) :=
  s.dlr.models.flatMap (fun m => m.2.spans) ++
    s.dlr.golden.map (fun g => (g.off / stripeBytes, ceilDiv g.len stripeBytes))

/-- The lowest run of free stripes for `len` bytes (the place is the model's choice, log entry 10). -/
def State.goldFind (s : State) (len : Nat) : Option Nat :=
  let n := ceilDiv len stripeBytes
  (List.range (s.goldStripes + 1 - n)).find? (fun t => !s.goldUsed.any (fun u => overlaps t n u.1 u.2))

/-- Write bytes into the golden space at offset `off`. -/
def State.goldWrite (s : State) (off : Nat) (bytes : List Byte) : State :=
  (List.range (ceilDiv bytes.length stripeBytes)).foldl (fun s k =>
    let b := (bytes.drop (k * stripeBytes)).take stripeBytes
    s.writeStripe (off / stripeBytes + k) (b ++ zeroBytes (stripeBytes - b.length))) s

end Sys2Proof.Machine
end

