-- ==== Sys2Proof/Machine/Serving.lean ====
section
/-! DEFINITION. Teams and sequences: which team can seat a sequence, rebinding, failing sequences, losing a column, stopping and
reloading a team (R246, R395, R406, R513, R518, R521 to R525). -/

namespace Sys2Proof.Machine

/-! ## Models and teams -/

/-- A loaded model. -/
def State.model? (s : State) (m : Nat) : Option Model := find? s.dlr.models m

/-- The teams of a model that are loaded and not stopped. -/
def State.teamsOf (s : State) (m : Nat) : List (Nat × Team) :=
  s.teams.filter (fun t => t.2.loaded && !t.2.stopped && t.2.model == m)

/-- The model's teams outside the REFINE role, by the role of the turn that each has prepared or prepares next (R406). -/
def State.workTeams (s : State) (m : Nat) : List (Nat × Team) := (s.teamsOf m).filter (fun t => t.2.prepRole != 2)

/-- Does a team count as a DECODE team: by that role, or as its model's only team outside the REFINE role (R406)? -/
def State.isDecode (s : State) (t : Nat × Team) : Bool :=
  t.2.prepRole == 1 || (t.2.prepRole != 2 && decide ((s.workTeams t.2.model).length ≤ 1))

/-- Does a replay job run, and on which team (Tables DET-14, DET-15)? -/
def State.jobRuns (s : State) : Bool := s.fld Reg.detJobStatus 0 2 == 1
def State.jobTeam (s : State) : Nat := s.fld Reg.detJobCtrl 2 6

/-- The teams of a model that admission may bind a sequence to: a replay job's team is set aside (R500), and one that is being
unloaded. -/
def State.openTeams (s : State) (m : Nat) : List (Nat × Team) :=
  (s.teamsOf m).filter (fun t => !(s.jobRuns && s.jobTeam == t.1) && t.2.unloading.isNone)

/-- The DECODE teams of a model that take sequences, ids ascending. -/
def State.decodeTeams (s : State) (m : Nat) : List (Nat × Team) := (s.openTeams m).filter s.isDecode

/-- L_res of a request (R390). -/
def Slot.lres (x : Slot) : Nat := x.promptLen + x.maxTokens + 2 * x.d + 1

/-- Seats of a team: a seat holds until its slot is FREE (R395). -/
def State.seats (s : State) (t : Nat) : Nat := (s.dlr.slots.filter (fun x => x.2.seat == some t)).length

/-- May the team seat the request (R395)? -/
def State.canSeat (s : State) (t : Nat × Team) (x : Slot) : Bool :=
  decide (x.d ≤ t.2.dMax) && decide (x.lres ≤ t.2.ctxMax) && decide (s.seats t.1 < t.2.bMax)

/-- The team with the fewest seats, the lowest id winning ties. -/
def State.fewest (s : State) : List (Nat × Team) → Option Nat
  | [] => none
  | t :: ts =>
    match s.fewest ts with
    | none => some t.1
    | some u => if s.seats t.1 ≤ s.seats u then some t.1 else some u

/-- The team that takes a request, leaving out team `but`. -/
def State.seatFor (s : State) (x : Slot) (but : Option Nat) : Option Nat :=
  s.fewest ((s.decodeTeams x.model).filter (fun t => some t.1 != but && s.canSeat t x))

/-- Request slots bound to a team, until they are FREE (R395, R399). -/
def State.bound (s : State) (t : Nat) : List Nat := (s.dlr.slots.filter (fun x => x.2.team == some t)).map Prod.fst

/-- The live ones that are bound to a team or have a seat on it: not ENDING. -/
def State.attached (s : State) (t : Nat) : List Nat :=
  (s.dlr.slots.filter (fun x => (x.2.team == some t || x.2.seat == some t) && x.2.st != .ending)).map Prod.fst

/-- Move a sequence's seat to a team, and its binding where it was bound to its old seat (R395, R406). -/
def State.moveSeat (s : State) (n t : Nat) : State :=
  match s.slot? n with
  | none => s
  | some x =>
    let s1 := s.updSlot n (fun x => { x with seat := some t })
    if x.team.isSome && x.team == x.seat then (s1.updSlot n (fun x => { x with team := some t })).bindSeq n (some t)
    else s1

/-! ## Failing sequences (R513, R518) -/

/-- The sequences a fault fails: counted, flagged, ended with a status. -/
def State.failSeqs (s : State) (ns : List Nat) (st : Status) : State :=
  if ns.isEmpty then s
  else (ns.foldl (fun s n => s.endReq n st) (s.bump Reg.fltSeqfailCnt ns.length)).setFld Reg.fltStatus 1 1 1

/-- A sequence that no team can take: R518 counts it among the failed ones, R524 does not. -/
def State.noTeam (s : State) (n : Nat) (st : Status) : State :=
  if st = .eMedia then s.failSeqs [n] st else s.endReq n st

/-! ## A turn of a team ends or is dropped -/

/-- No turn of the team runs any more: its cores stand idle and the slots that waited for its end are freed (R370). -/
def State.dropTurn (s : State) (t : Nat) : State :=
  let tm := s.team t
  let s1 := tm.cores.foldl (fun s n => s.updCore n (fun c =>
    { c with exec := .idle, inTurn := false, seedLoaded := false, timeline := [], caps := [], fmtPend := {}, accPend := {} })) s
  let s2 := (s1.updTeam t (fun t => { t with running := false, batch := [], gone := [], ran := [], watchdog := none })).pltDiscard t tm.turn tm.attempt
  let s3 := { s2 with plt := { s2.plt with turns := upd {} s2.plt.turns t (fun p =>
    { p with running := [], ended := p.epoch }) } }
  s3.reclaim t

/-! ## The end of a replay job (R499 to R503) -/

/-- The sequence id of the plates of the job's sequence number `k`. -/
def jobSlot (k : Nat) : Nat := 8192 + k

/-- The job ends with a status: its plates go, the team's T and role stand again. -/
def State.endJob (s : State) (st : Status) (captured : Bool) : State :=
  let team := s.jobTeam
  let s1 := (List.range s.det.jobSeqs.length).foldl (fun s k => s.freeChain (jobSlot k)) s
  let s2 := s1.updTeam team (fun t =>
    { t with turn := t.savedTurn.getD t.turn, savedTurn := none, prepared := [], batch := [], attempt := 0, step := 0
             role := t.savedRoles.elim t.role Prod.fst, prepRole := t.savedRoles.elim t.prepRole Prod.snd, savedRoles := none })
  { ((((s2.setFld Reg.detJobStatus 0 2 2).setFld Reg.detJobStatus 2 8 (statusCode st)).setFld Reg.detJobStatus 10 1
      (bit captured)).setFld Reg.detJobCtrl 0 2 0) with det := { s2.det with jobTurns := [], jobSeqs := [], abort := false } }

/-! ## Stopping and reloading a team (R524, R525) -/

/-- Clusters of a placement. -/
def clustersAt (ox oy cw ch : Nat) : List Nat :=
  (List.range ch).flatMap (fun j => (List.range cw).map (fun i => (oy + j) * 8 + (ox + i)))
def Team.clusters (t : Team) : List Nat := clustersAt t.ox t.oy t.cw t.ch

/-- Is a cluster out of service (R246)? -/
def Cluster.lost (c : Cluster) : Bool := c.cols.contains 0xA

/-- Are all clusters of a placement free and in service? -/
def State.placeFree (s : State) (ox oy cw ch : Nat) : Bool :=
  (clustersAt ox oy cw ch).all (fun c => (s.cluster c).team.isNone && !(s.cluster c).lost)

/-- The lowest free placement of a shape, in cluster-number order of its origin (R385). -/
def State.placement (s : State) (cw ch : Nat) : Option (Nat × Nat) :=
  ((List.range 64).filter (fun c => c % 8 % cw == 0 && c / 8 % ch == 0 && decide (c % 8 + cw ≤ 8) && decide (c / 8 + ch ≤ 8))).map
    (fun c => (c % 8, c / 8)) |>.find? (fun o => s.placeFree o.1 o.2 cw ch)

/-- Give clusters to a team, or take them back. -/
def State.setClusters (s : State) (cs : List Nat) (t : Option Nat) : State :=
  cs.foldl (fun s c => s.updCluster c (fun x => { x with team := t })) s

/-- Wake a cluster (R248); the first wake starts the CORE domain (R612). A stop that waits still takes effect; `Cluster.frame` then wakes the cluster again for its team (R250). -/
def State.wakeCluster (s : State) (c : Nat) : State :=
  ({ s with clk := { s.clk with coreOn := true } } : State).updCluster c (fun x => if x.dom = .off then { x with wakeReq := true } else x)

/-- R525: a stopped team is loaded again at the lowest free placement of its size, where its own clusters count as free; with none it is
left stopped (DESIGN CHOICE, log entry 157). -/
def State.autoReload (s : State) (t : Nat) : State :=
  let tm := s.team t
  if s.fld Reg.fltPolicy 21 1 = 0 then s
  else
    let s0 := s.setClusters tm.clusters none
    match s0.placement tm.cw tm.ch with
    | none => s.updTeam t (fun t => { t with stranded := true })
    | some o =>
      let s1 := s0.updTeam t (fun t => { t with ox := o.1, oy := o.2, reloading := true, turn := 0 })
      ((s1.team t).clusters.foldl State.wakeCluster s1).setClusters (s1.team t).clusters (some t)

/-- A team's prepared batch is given up. -/
def State.unprepare (s : State) (t : Nat) : State :=
  { s.updTeam t (fun t => { t with prepared := [] }) with
    plt := { s.plt with turns := s.plt.turns.map (fun (p : Nat × TurnPlates) => if p.1 = t then (p.1, { p.2 with prepared := [] }) else p) } }

/-- The CORE windows of a team stop answering: a copy of each serves them (R537, R625). -/
def State.keepWindows (s : State) (t : Team) : State :=
  { s with windows := s.windows.filter (fun w => !t.cores.contains w.1) ++ t.cores.map (fun n => (n, s.liveCore n)) }

/-- R524, R518: a team stops; its sequences go to teams that can seat them, or fail with `st`. A replay job on it ends with `st` (DESIGN
CHOICE, log entry 156). -/
def State.stopTeam (s : State) (t : Nat) (st : Status) (reload : Bool) : State :=
  let tm := s.team t
  if !tm.loaded || tm.stopped then s
  else
    let k := s.keepWindows tm
    let s1 := if tm.running then (k.dropTurn t).bump Reg.dlrDiscardCnt 1 else k
    let s0 := if s1.jobRuns && s1.jobTeam == t then s1.endJob st false else s1
    let s2 := ((s0.unprepare t).updTeam t (fun t => { t with stopped := true, idle := 0 })).loseWhere
      (fun p => p.tier == 0 && s1.poolTeam p.hpool == t)
    let s3 := (s2.attached t).foldl (fun s n =>
      match s.slot? n with
      | none => s
      | some x =>
        if x.refine then s.noTeam n st
        else
          match s.seatFor x (some t) with
          | some u => s.moveSeat n u
          | none => s.noTeam n st) s2
    if reload then s3.autoReload t else s3

/-! ## Columns (R246, R521) -/

/-- Set the repair state of a logical core's column; CLU_REPAIR_CNT counts it (R258) and the Umpire records it (R247). -/
def State.setCol (s : State) (lid v : Nat) : State :=
  let c := clusterOf lid
  let s1 := (s.updCluster c (fun x => { x with cols := setNth x.cols (lid % 8) v }.shown)).bump (Reg.cluRepairCnt c) 1
  { s1 with mgt := { s1.mgt with fieldRepairs := s1.mgt.fieldRepairs ++ [(c, lid % 8, v)] } }

/-- R246: a column becomes LOST: the cluster leaves service and its team stops. -/
def State.loseColumn (s : State) (lid : Nat) : State :=
  let c := clusterOf lid
  let t := (s.cluster c).team
  let s1 := (s.setCol lid 0xA).logFault
    { src := srcClusterLost, cls := 3, loc := c, action := if t.isSome then 5 else 6, team := t }
  match t with
  | some t => s1.stopTeam t .eFault true
  | none => s1

/-- R521: the device declares a core site failed. With AUTO_STANDIN, or for a host command, the stand-in waits for the next gap of
the team; a column without a spare is LOST. -/
def State.declareFailed (s : State) (lid : Nat) (byHost : Bool) : State :=
  let s1 := s.logFault { src := srcSiteFail, cls := 3, loc := lid, team := s.teamOfCore lid }
  if !byHost && s.fld Reg.fltPolicy 20 1 == 0 then s1
  else if s1.colState lid = 8 then
    (if s1.dlr.repairs.contains lid then s1 else { s1 with dlr := { s1.dlr with repairs := s1.dlr.repairs ++ [lid] } })
  else if s1.colState lid = 0xA then s1
  else s1.loseColumn lid

end Sys2Proof.Machine
end

