-- ==== Sys2Proof/Machine/Admission.lean ====
section
/-! DEFINITION. Descriptors and admission: the checks of a request descriptor, the memory check with its reservations, the time
check, the order of the queue (R382, R387, R389 to R399, R549). -/

namespace Sys2Proof.Machine

/-! ## Request descriptors (R389, R549) -/

/-- Fields of a request descriptor (Table HST-5). -/
structure ReqDesc where
  opc : Nat
  cls : Nat
  waitf : Bool
  dpol : Nat
  d : Nat
  tag : Nat
  model : Nat
  delta : Nat
  seed : Nat
  temp : Nat
  topK : Nat
  topP : Nat
  deadline : Nat
  maxTokens : Nat
  promptLen : Nat
  promptAddr : Nat
  reserved : Bool

/-- Read a descriptor's 128 bytes. -/
def reqDescOf (bs : List Byte) : ReqDesc :=
  let w := leNat (bs.take 128)
  { opc := bitsOf w 0 4, cls := bitsOf w 4 2, waitf := bitOf w 6, dpol := bitsOf w 8 2, d := bitsOf w 10 3
    tag := bitsOf w 32 32, model := bitsOf w 64 16, delta := bitsOf w 80 16, seed := bitsOf w 96 128
    temp := bitsOf w 224 32, topK := bitsOf w 256 9, topP := bitsOf w 272 16, deadline := bitsOf w 288 64
    maxTokens := bitsOf w 352 32, promptLen := bitsOf w 384 32, promptAddr := bitsOf w 448 64
    reserved := bitOf w 7 || bitsOf w 13 19 != 0 || bitsOf w 265 7 != 0 || bitsOf w 416 32 != 0 || bitsOf w 512 512 != 0 }

/-- Is an FP32 word negative or not finite? Negative zero is not negative here (DESIGN CHOICE, log entry 154). -/
def badTemp (t : Nat) : Bool := bitsOf t 23 8 == 255 || (bitOf t 31 && t % 2 ^ 31 != 0)

/-- The slot a descriptor fills. -/
def slotOf (r : ReqDesc) (fn tenant arrival idx : Nat) : Slot :=
  { st := .queued, cls := r.cls, waitf := r.waitf, refine := r.opc == 2, dpol := r.dpol, d := r.d, tenant := tenant, fn := fn
    tag := r.tag, model := r.model, delta := r.delta, seed := r.seed, temp := r.temp, topK := r.topK, topP := r.topP
    deadline := r.deadline, maxTokens := r.maxTokens, promptLen := r.promptLen, promptAddr := r.promptAddr
    arrival := arrival, descIdx := idx }

/-- Is the model, or the delta named, loaded for the tenant (R389)? -/
def Model.serves (m : Model) (tenant delta : Nat) : Bool :=
  m.ready && bitOf m.tenants tenant && (delta == 0 || m.deltas.any (fun d => d.1 == delta && d.2.1 == tenant))

/-- The checks of a descriptor, in order (R389, R549). -/
def State.descChecks (s : State) (kind : Nat) (r : ReqDesc) (tenant : Nat) (free : Bool) : List (Bool × Status) :=
  let teams := s.teamsOf r.model
  let x := slotOf r 0 tenant 0 0
  [(r.opc != kind || r.reserved || r.dpol == 3 || r.topP == 0 || decide (32768 < r.topP) || badTemp r.temp ||
      r.maxTokens == 0 || (kind == 1 && (r.promptLen == 0 || r.promptAddr % 4 != 0)) ||
      (kind == 2 && (r.promptAddr % 4 != 0 || r.delta == 0 || !s.gddrOk r.promptAddr r.promptLen)), .eArg),
   (decide (256 < r.topK) || (!teams.isEmpty && teams.all (fun t => decide (t.2.dMax < r.d))) ||
      (kind == 1 && !teams.isEmpty &&
        teams.all (fun t => decide (t.2.dMax < r.d) || decide (t.2.ctxMax < x.lres))), .eRange),
   (!(s.model? r.model).any (fun m => m.serves tenant r.delta), .ePerm),
   (teams.isEmpty || (kind == 2 && teams.all (fun t => t.2.image.entryRefine == 0x3FF)), .eUnsupported),
   (!free, .eBusy)]

/-- The lowest FREE slot. -/
def State.freeSlotNo (s : State) : Option Nat := (List.range 8192).find? (fun n => (s.slot? n).isNone)

/-- R382, R389: a queue core checks a descriptor and stamps it, or rejects it with a completion record. -/
def State.takeReq (s : State) (fn idx kind : Nat) (bytes : List Byte) : State :=
  let r := reqDescOf bytes
  let tenant := s.fld (Reg.fnTenant fn) 0 6
  match s.freeSlotNo, firstCheck (s.descChecks kind r tenant s.freeSlotNo.isSome) with
  | some n, none =>
    let x := slotOf r fn tenant (s.reg Reg.dlrArrival) idx
    { s with dlr := { s.dlr with slots := put s.dlr.slots n { x with lead := s.devId } } }.bump Reg.dlrArrival 1
  | _, st => s.post fn ringCpl (cplRecord r.tag (st.getD .eBusy) false false true 0 0 idx)

/-! ## What a request needs on this device (R387, R391) -/

/-- Plate indices of this device's share, and of the ranks it carries, below a length (R391, R477). -/
def State.shareIndices (s : State) (p : PlatePlan) (share len : Nat) : List Nat :=
  (List.range (ceilDiv len (2 ^ p.log2n))).filter (fun j => s.ranksRun.contains (s.shareRank p.log2n share j))

/-- The bits of a field that counts to `n`: the smallest `b` with 2^b above `n`. -/
def bitsAbove (n : Nat) : Nat := if n = 0 then 0 else Nat.log2 n + 1

/-- JB, LHB and DEPTH of a chain (R362, R391). -/
def chainShape (p : PlatePlan) (len : Nat) : Nat × Nat × Nat :=
  let jb := bitsAbove ((len - 1) / 2 ^ p.log2n)
  let lhb := bitsAbove (p.lhs - 1)
  (jb, lhb, max 1 (ceilDiv (lhb + jb) 6))

/-- Chain nodes: the distinct prefixes of the keys at each level (R391). -/
def chainNodes (p : PlatePlan) (len : Nat) (js : List Nat) : Nat :=
  let sh := chainShape p len
  let keys := (List.range p.lhs).flatMap (fun lh => js.map (fun j => lh * 2 ^ sh.1 + j))
  ((List.range sh.2.2).map (fun i => (keys.map (fun k => k / 2 ^ (6 * (sh.2.2 - i)))).dedup.length)).sum

/-- Slots of a pool for plate indices: one for each plate, or the most that a core holds under the plate plan (R391). -/
def State.slotDemand (s : State) (pool : Nat) (p : PlatePlan) (share : Nat) (js : List Nat) : Nat :=
  if s.poolTier pool = 0 then
    let hs := (List.range p.lhs).flatMap (fun lh => js.map (fun j => (p.holder lh (s.rangeNo p share p.log2n j)).1))
    (hs.dedup.map (fun h => hs.count h)).foldl max 0
  else p.lhs * js.length

/-- Add to a pool's reservation, if it has room (R359). -/
def State.reserve (s : State) (pool seq n : Nat) : Option State :=
  if !s.poolOn pool || decide (s.poolFree pool < s.poolRsv pool + n) then none
  else some (s.updPool pool (fun x => { x with rsv := upd 0 x.rsv seq (fun k => k + n) }))

/-- Places for chain nodes (log entry 8). -/
def State.nodePlaces (s : State) : Nat :=
  Config.nodeCount + (((List.range 64).filter (fun p => s.poolOn p && s.poolTier p == 3 && decide (32 ≤ s.poolLines p))).map s.poolCount).sum

/-- Nodes that a request's chain holds, and those reserved for requests and not yet allocated (R391, R392). -/
def State.nodesHeld (s : State) (n : Nat) : Nat :=
  ((s.chain? n).elim [] (fun c => (c.tree ++ c.pubTree).map (fun x => x.2.2))).dedup.length
def State.nodesOwed (s : State) : Nat := (s.dlr.slots.map (fun x => x.2.rnodes - s.nodesHeld x.1)).sum

/-- Can `k` more nodes be reserved (R392)? -/
def State.nodesFit (s : State) (k : Nat) : Bool := decide (s.plt.nodes.length + s.nodesOwed + k ≤ s.nodePlaces)

/-- Units of a token history (R387), and those that are taken. -/
def histUnits (x : Slot) : Nat := ceilDiv (64 + 4 * x.lres) 4096
def State.histTaken (s : State) : List (Nat × Nat) :=
  (s.dlr.slots.filter (fun x => x.2.histAddr != 0)).map (fun x => (x.2.histAddr, 4096 * histUnits x.2))

/-- The lowest free run of units in the history area (the place is the model's choice, log entry 10). -/
def State.histFind (s : State) (x : Slot) : Option Nat :=
  let n := histUnits x
  let base := s.reg Reg.dlrHistBase
  ((List.range (s.reg Reg.dlrHistUnits + 1 - n)).map (fun k => base + 4096 * k)).find?
    (fun a => !s.histTaken.any (fun u => overlaps a (4096 * n) u.1 u.2))

/-- Does every other member of the slice accept its reservation? Each is asked in ascending rank; its answer is a free value (log
entry 2). Where one refuses, those asked before it release theirs. -/
def askMembers (slot : Nat) : List Nat → List Nat → State → State × Bool
  | [], _, s => (s, true)
  | d :: ds, done, s =>
    let s1 := { s.sendCtrl d 1 slot false with freeCount := s.freeCount + 1 }
    if (Config.freeValue s.freeCount).toNat % 2 = 0 then askMembers slot ds (d :: done) s1
    else (done.foldl (fun s d => s.sendCtrl d 2 slot false) s1, false)

/-- R391 to R395: try one home pool; the state after, and whether every reservation is made. Where a member refuses, this device keeps
nothing reserved either. -/
def State.tryPool (s : State) (n : Nat) (x : Slot) (pool : Nat) : State × Bool :=
  let vault := s.poolTier pool == 0
  let seat := if vault then
      ((s.decodeTeams x.model).find? (fun t => t.1 == s.poolTeam pool && s.canSeat t x)).map Prod.fst
    else s.seatFor x none
  match seat, s.histFind x with
  | some t, some h =>
    let tm := s.team t
    let js := s.shareIndices tm.plan tm.share x.lres
    let tp := if vault then Config.transitPool x.model else pool
    let tjs := s.shareIndices tm.plan tm.share x.promptLen
    let rs := s.slotDemand pool tm.plan tm.share js
    let ts := if vault then s.slotDemand tp tm.plan tm.share tjs else 0
    let ns := chainNodes tm.plan x.lres js
    match (if s.nodesFit ns then (s.reserve pool n rs).bind (fun s => if vault then s.reserve tp n ts else some s) else none) with
    | none => (s, false)
    | some s1 =>
      let asked := askMembers n s.otherMembers [] s1
      if !asked.2 then ({ asked.1 with plt := s.plt }, false)
      else
        let sh := chainShape tm.plan x.lres
        let s2 := asked.1.createChain n
          { tenant := x.tenant, log2n := tm.plan.log2n, kvw := tm.plan.kvw, depth := sh.2.2, jb := sh.1, lhb := sh.2.1
            hpool := tp, lhs := tm.plan.lhs }
        ((s2.updSlot n (fun x =>
          { x with
            st := .prefill, seat := some t, rpool := pool, tpool := tp, rslots := rs, tslots := ts, histAddr := h
            rnodes := ns, sliceRank := s.sliceRank, sliceSize := s.sliceSize + 1
            lead := s.devId, leadSlot := n })).bump Reg.dlrAdmitCnt 1, true)
  | _, _ => (s, false)

/-- Try the pools in list order. -/
def State.tryPools (s : State) (n : Nat) (x : Slot) : List Nat → State × Bool
  | [] => (s, false)
  | p :: ps =>
    match s.tryPool n x p with
    | (s1, true) => (s1, true)
    | (s1, false) => s1.tryPools n x ps

/-! ## Time (R396, R397) -/

/-- Rack time in µs (R563). -/
def State.rackTime (s : State) : Nat := s.reg Reg.uhlRrc * 4 / 625

/-- Length up to which PREFILL turns run: the prompt until its last chunk has committed, then the committed length (R416). -/
def Slot.target (x : Slot) : Nat := if x.generated = 0 then x.promptLen else x.committed

/-- Is the next chunk of the request a recompute chunk: of positions that were committed (R416)? The rest of a prompt whose prefill a loss
broke off follows as prompt chunks, in RECOVER (log entry 173). -/
def Slot.recomputing (x : Slot) : Bool := x.st == .recover && decide (x.next < x.committed)

/-- Where a chunk that starts at a position ends at the latest. -/
def Slot.chunkEnd (x : Slot) (p : Nat) : Nat := if x.st = .recover && p < x.committed then x.committed else x.target

/-- Tokens of a request that still wait for PREFILL turns. -/
def Slot.waiting (x : Slot) : Nat :=
  match x.st with
  | .prefill => x.promptLen - x.next
  | .recover => x.target - x.next
  | _ => 0

/-- Is `a` taken before `b` (R398, R416)? Recompute chunks stand at the head of their class. -/
def Slot.before (a b : Slot) : Bool :=
  decide (a.cls < b.cls) || (a.cls == b.cls && (a.recomputing && !b.recomputing)) ||
    (a.cls == b.cls && a.recomputing == b.recomputing && decide (a.arrival < b.arrival))

/-- Waiting tokens of a model; ahead of a request where one is given. -/
def State.waitingTokens (s : State) (m : Nat) (x : Option Slot) : Nat :=
  ((s.dlr.slots.filter (fun y => y.2.model == m && x.all (fun x => y.2.before x))).map (fun y => y.2.waiting)).sum

/-- Does the projected finish meet the deadline, with `b` waiting tokens ahead? -/
def State.inTime (s : State) (x : Slot) (t : Team) (b : Nat) : Bool :=
  let np := ((s.teamsOf x.model).filter (fun t => t.2.role == 0)).length
  let turns := if x.refine then x.maxTokens
    else ceilDiv (ceilDiv (b + x.promptLen) (max t.pfTok 1)) (max np 1) + x.maxTokens
  x.deadline == 0 ||
    decide (s.rackTime * 1100 + (t.image.framesMax + s.fld Reg.dlrAdmCfg 0 8) * 2048 * turns ≤ x.deadline * 1100)

/-! ## The queue (R398, R399) -/

/-- What the examination of one request comes to, and the state after it. -/
inductive Verdict where
  | taken (s : State)
  | stay (s : State)
  | block (s : State)
  | refuse (s : State) (st : Status)

/-- The time check of a request whose memory check passed with the state `s1` (R396, R397). Where it fails, nothing stays reserved, and the
members release what they reserved. -/
def State.timeCheck (s s1 : State) (x : Slot) (t : Team) (members : List Nat) (n : Nat) : Verdict :=
  let b := if x.refine then 0 else s.waitingTokens x.model (some x)
  let undone := if x.refine then s
    else { s1 with plt := s.plt, dlr := s.dlr }.setReg Reg.dlrAdmitCnt (s.reg Reg.dlrAdmitCnt)
  let back := members.foldl (fun s d => s.sendCtrl d 2 n false) undone
  if s.inTime x t b then .taken s1
  else if !s.inTime x t 0 || !x.waitf then .refuse back .eLate
  else .stay back

/-- Examine one QUEUED request. A REFINE request that passes has its OPEN record written (R487); where HOLD lets none be written it stays QUEUED
(R491; log entry 174). -/
def State.examine (s : State) (n : Nat) (x : Slot) : Verdict :=
  let noRoom := fun (s : State) => if x.waitf then Verdict.block s else .refuse s .eNoroom
  if x.refine then
    match (s.openTeams x.model).find? (fun t => t.2.role == 2 && t.2.prepRole == 2 && (s.bound t.1).isEmpty) with
    | none => noRoom s
    | some t =>
      if !s.ringReady proofRing 64 then .stay s
      else s.timeCheck (((s.updSlot n (fun x => { x with st := .refine, team := some t.1, seat := some t.1 })).bump
        Reg.dlrAdmitCnt 1).writeOpen x []) x t.2 [] n
  else
    match s.tryPools n x (Config.homePools x.model x.tenant) with
    | (s1, false) => noRoom s1
    | (s1, true) => s.timeCheck s1 x (s1.team (((s1.slot? n).bind Slot.seat).getD 0)) s.otherMembers n

/-- The next QUEUED request in order, after the ones already seen. -/
def State.nextQueued (s : State) (seen : List Nat) : Option (Nat × Slot) :=
  (s.dlr.slots.filter (fun x => x.2.st == .queued && !seen.contains x.1)).foldl (fun acc x =>
    match acc with
    | none => some x
    | some y => if x.2.before y.2 then some x else some y) none

/-- R398: the admission core examines the QUEUED requests in order. -/
def admitLoop : Nat → List Nat → State → State
  | 0, _, s => s
  | fuel + 1, seen, s =>
    match s.nextQueued seen with
    | none => s.setFld Reg.dlrStatus 28 1 0
    | some (n, x) =>
      match s.examine n x with
      | .taken s1 => admitLoop fuel (n :: seen) s1
      | .stay s1 => admitLoop fuel (n :: seen) s1
      | .block s1 => s1.setFld Reg.dlrStatus 28 1 1
      | .refuse s1 st => admitLoop fuel (n :: seen) (s1.endReq n st)

/-- Admission, unless ADM_EN is 0 or the device is in the rest state. -/
def State.admitAll (s : State) : State :=
  if s.fld Reg.dlrAdmCfg 8 1 = 0 || s.fld Reg.pwrStatus 0 2 ≠ 0 then s
  else admitLoop (s.dlr.slots.length + 1) [] s

/-- Is more free in `s` than in `s0`: a request slot, or slots of a pool that no reservation holds? -/
def State.released (s0 s : State) : Bool :=
  s0.dlr.slots.any (fun x => !listed s.dlr.slots x.1) ||
    (List.range 64).any (fun p => decide (s0.poolFree p - s0.poolRsv p < s.poolFree p - s.poolRsv p))

/-- R398: the examination after a release: `s` is the state after a command that began in `s0`. -/
def State.examineAfter (s0 s : State) : State :=
  if (s.nextQueued []).isSome && s0.released s then s.admitAll else s

end Sys2Proof.Machine
end

