-- ==== Sys2Proof/Machine/VaultOps.lean ====
section
/-! DEFINITION. The vaults between turns: scrubber, row and column repair, hard programming, self-test (R269, R273 to R281). -/

namespace Sys2Proof.Machine

/-! ## Row repair (R277, R279) -/

/-- A site whose vault cannot be repaired is failed (R279): a reserve that stands idle leaves its column without a spare, any other
one is declared failed. -/
def State.siteUnrepairable (s : State) (site : Nat) : State :=
  let s1 := s.updSite site (fun x => { x with failed := true, weak := [] })
  match s.lidOf site with
  | some n => s1.declareFailed n false
  | none =>
    let n := (site / 64 / 9 * 8) * 64 + site % 64
    if site / 64 % 9 = 8 && s1.colState n = 8 then s1.setCol n 9 else s1

/-- Is the site's team between turns: it runs none, or the site has no loaded team (R277, R522)? -/
def State.siteIdle (s : State) (site : Nat) : Bool :=
  match (s.lidOf site).bind s.teamOfCore with
  | some t => !(s.team t).running
  | none => true

/-- Is a row being copied at any site (VLT_STATUS.REPAIR_BUSY)? -/
def State.repairBusy (s : State) : Bool := s.sites.any (fun x => x.2.copying.isSome)

/-- R277 step 1: the 16 lines of a row queue at the background port, to be copied into a spare row. -/
def State.startCopy (s : State) (site row : Nat) : State :=
  match s.vaultAt site with
  | none => s
  | some v =>
    (s.updSite site (fun x => { x with copying := some row })).bgAsk
      ((rowLines row).map (fun l => (v, { line := l, act := .copy, owner := .rowCopy, first := 0, len := 32, off := 0 })))

/-- A row is repaired at once; none where the vault cannot be repaired (R279). -/
def State.repairRow (s : State) (site row : Nat) : Option State :=
  if s.canSoft site (row / 8192) (row % 8192) false then
    some ((s.vaultAt site).elim s (fun v => (s.startCopy site row).bgDrain v))
  else none

/-- Copies that have begun end before a turn starts (R277: the start waits for them). -/
def State.finishCopies (s : State) : State :=
  s.sites.foldl (fun s x => if x.2.copying.isSome then (s.vaultAt x.1).elim s s.bgDrain else s) s

/-- R277: the next row due for repair at a site begins to be copied to a spare row; a copy that has begun is carried to its end. The rest
of the list waits for the next gap, and behind the stand-ins of the team (R511). -/
def execVaultRowRepair (col : BitVec 6) (row : BitVec 7) (s : State) : Host.Outcome State Fault Refusal :=
  let site := siteAt col.toNat row.toNat
  .next (match s.vaultAt site with
    | none => s
    | some v =>
      if (s.site site).copying.isSome then s.bgDrain v
      else if s.fld Reg.vltCtrl 12 1 = 1 && decide (row.toNat < 72) && s.siteIdle site &&
          ((s.lidOf site).bind s.teamOfCore).all (fun k => !s.fieldPause k) then
        (match (s.site site).weak with
        | [] => s
        | r :: _ => if s.canSoft site (r / 8192) (r % 8192) false then s.startCopy site r else s.siteUnrepairable site)
      else s)

/-! ## Scrubbing (R273, R274) -/

/-- What a scrub finds at a line: one with an error that the code corrects is written back by a request that goes before the others that
wait; one that fails is poisoned. A core write of the same cycle leaves nothing to write back. -/
def State.scrubLine (s0 : State) (v line cyc : Nat) (err : LineErr) : State :=
  let f := s0.lineFound v line cyc err
  let s1 := f.1.copyRead v line f.2 .scrub
  if (s0.lineTaken v line cyc).isSome then s1
  else if f.2.bad then s1.poison v line
  else if f.2.err = ([], 0#3) then s1
  else
    { s1 with bgq := upd [] s1.bgq v (fun q =>
        { line := line, act := .back f.2.read.2, owner := .scrub, first := 0, len := 32, off := 0 } :: q) }

/-- May a vault's scrubber read in cycle `cyc`: one line in every 2^SCRUB_LOG2 cycles (R273)? -/
def State.scrubDue (s : State) (site cyc : Nat) : Bool :=
  let p := 2 ^ s.fld Reg.vltCtrl 1 4
  (s.site site).scrubAt.elim true (fun t => t / p != cyc / p)

/-- R273, R274: the scrubber of a vault reads its next line where the background port has a slot in its cycle. -/
def execVaultScrub (col : BitVec 6) (row : BitVec 7) (read : ScrubRead) (s : State) : Host.Outcome State Fault Refusal :=
  let cyc := read.cyc
  let err := read.err
  let site := siteAt col.toNat row.toNat
  .next (match s.vaultAt site with
    | none => s
    | some v =>
      if s.fld Reg.vltCtrl 0 1 = 0 || 72 ≤ row.toNat || s.resting || s.bgSlot v cyc ≠ cyc || !s.scrubDue site cyc then s
      else
        let line := (s.site site).scrubPtr
        let off := (s.cluster (siteCluster site)).dom == .off
        (s.scrubLine v line cyc err).updSite site (fun x =>
          { x with bgFree := cyc + (if off then 16 else 1), scrubAt := some cyc, scrubPtr := (line + 1) % 524288
                   pass := if line + 1 = 524288 then x.pass + 1 else x.pass }))

/-! ## Hard repair (R278) -/

/-- R278: the Umpire starts to program the next hard entry. -/
def execHardRepairProgram (s : State) : Host.Outcome State Fault Refusal :=
  .next (if s.mgt.hardQueue.isEmpty || s.fld Reg.vltStatus 1 1 = 1 then s else s.setFld Reg.vltStatus 1 1 1)

/-- Has the hard-repair entry of a bank's spare been programmed? The array holds one entry for each spare, programmable once (R275, R278). -/
def State.spentSpare (s : State) (site bank spare : Nat) (col : Bool) : Bool :=
  let x := s.site site
  (sparesIn bank (if col then factoryCols site ++ x.hardCols else factoryRows site ++ x.hardRows)).contains spare

/-- R278: programming ends; the entry takes effect at the next POR#, where the newest entry of a row or column governs. Where the spare's
entry has been programmed before, the Umpire keeps the repair in its record, to reapply it after POR#. -/
def execHardRepairDone (s : State) : Host.Outcome State Fault Refusal :=
  .next (if s.fld Reg.vltStatus 1 1 = 0 then s
    else
      match s.mgt.hardQueue with
      | [] => s.setFld Reg.vltStatus 1 1 0
      | (site, kb, i, spare) :: rest =>
        let s1 := { s with mgt := { s.mgt with hardQueue := rest } }
        let col := decide (4 ≤ kb)
        let s2 := if s.spentSpare site (kb % 4) spare col then
            { s1 with mgt := { s1.mgt with softRecord := s1.mgt.softRecord ++ [(site, kb, i, spare)] } }
          else
            s1.updSite site (fun x =>
              if col then { x with hardCols := (kb % 4, i, spare) :: x.hardCols } else { x with hardRows := (kb % 4, i, spare) :: x.hardRows })
        s2.setFld Reg.vltStatus 1 1 0)

/-! ## Host repair commands (R280, Table VLT-9) -/

/-- The selected site (VLT_SITE_SEL). -/
def State.selSite (s : State) : Nat := siteAt (s.fld Reg.vltSiteSel 0 6) (s.fld Reg.vltSiteSel 8 7)

/-- CMD_STATUS of a command. -/
def State.vltDone (s : State) (st : Status) : State := s.setFld Reg.vltStatus 4 4 (statusCode st % 16)

/-- A VLT_REPAIR_CMD or VLT_BIST_CTRL write: refused with the first failing check, or carried out; CMD_STATUS tells. -/
def State.vltCmd (s : State) (fn : BitVec 6) (off : Nat) (checks : List (Bool × Status)) (f : State → State) : State :=
  s.hostWrite fn off [] (fun s =>
    match firstCheck checks with
    | some st => (s.reject 0 st 0 off false).vltDone st
    | none => (f s).vltDone .ok)

/-- Does the site belong to a loaded team that is not paused for repair? -/
def State.siteBusy (s : State) (site : Nat) : Bool :=
  match (s.lidOf site).bind s.teamOfCore with
  | some t => (s.team t).loaded && !s.fieldPause t
  | none => false

/-- The checks of a repair command, in the order of R280. -/
def State.repairChecks (s : State) (bank i : Nat) (col hard : Bool) (key : Nat) : List (Bool × Status) :=
  let site := s.selSite
  [(s.siteBusy site, .eState),
   (!(if hard then !(s.freeSpares site bank col).isEmpty else s.canSoft site bank i col), .eNoroom),
   (decide ((if col then 560 else 8192) ≤ i), .eRange),
   (s.repairBusy || s.fld Reg.vltStatus 1 1 != 0, .eBusy),
   (hard && key != 0xA5, .ePerm)]

/-- R280: soft row repair of the selected site: the row is copied as R277 states. -/
def execSoftRow (fn : BitVec 6) (bank : BitVec 2) (index : BitVec 13) (s : State) : Host.Outcome State Fault Refusal :=
  .next (s.vltCmd fn Reg.vltRepairCmd (s.repairChecks bank.toNat index.toNat false false 0)
    (fun s => s.startCopy s.selSite (bank.toNat * 8192 + index.toNat)))

/-- R280: soft column repair of the selected site. -/
def execSoftColumn (fn : BitVec 6) (bank : BitVec 2) (index : BitVec 13) (s : State) : Host.Outcome State Fault Refusal :=
  .next (s.vltCmd fn Reg.vltRepairCmd (s.repairChecks bank.toNat index.toNat true false 0)
    (fun s => s.softRepair s.selSite bank.toNat index.toNat true))

/-- Start programming a hard entry at once. -/
def State.programHard (s : State) (bank i : Nat) (col : Bool) : State :=
  let site := s.selSite
  let spare := (s.freeSpares site bank col).headD 0
  ({ s with mgt := { s.mgt with hardQueue := (site, bank + 4 * bit col, i, spare) :: s.mgt.hardQueue } }).setFld Reg.vltStatus 1 1 1

/-- R280: program a hard row entry. -/
def execProgramHardRow (fn : BitVec 6) (bank : BitVec 2) (index : BitVec 13) (key : BitVec 8) (s : State) :
    Host.Outcome State Fault Refusal :=
  .next (s.vltCmd fn Reg.vltRepairCmd (s.repairChecks bank.toNat index.toNat false true key.toNat)
    (fun s => s.programHard bank.toNat index.toNat false))

/-- R280: program a hard column entry. -/
def execProgramHardColumn (fn : BitVec 6) (bank : BitVec 2) (index : BitVec 13) (key : BitVec 8) (s : State) :
    Host.Outcome State Fault Refusal :=
  .next (s.vltCmd fn Reg.vltRepairCmd (s.repairChecks bank.toNat index.toNat true true key.toNat)
    (fun s => s.programHard bank.toNat index.toNat true))

/-! ## Self-test (R281) -/

/-- Undefined bytes over a whole vault: every line is written whole, so no flag and no stored error stays (R264). -/
def State.scrambleVault (s : State) (v : Nat) : State :=
  let s1 := { s with vpoison := s.vpoison.filter (fun k => k / 2 ^ 19 != v), verr := s.verr.filter (fun e => e.1 / 2 ^ 19 != v) }
  { s1 with mem := s.mem.write (lineAddr v 0) (freeBytes s.freeCount (2 ^ 24)), freeCount := s.freeCount + 2 ^ 24 }

/-- A self-test overwrites the vault of its site. -/
def State.scrambleSite (s : State) (site : Nat) : State := (s.vaultAt site).elim s s.scrambleVault

/-- May the site be tested: its cluster runs outside a team, or it is a reserve in state SPARE? -/
def State.testable (s : State) (site : Nat) : Bool :=
  let c := s.cluster (siteCluster site)
  (c.dom == .run && !(c.team.any (fun t => (s.team t).loaded))) ||
    (site / 64 % 9 == 8 && nth 8 c.cols (site % 8) == 8)

/-- Start a self-test of a site. -/
def State.startTest (s : State) (site pattern : Nat) : State :=
  (s.scrambleSite site).updSite site (fun x => { x with testing := some pattern })

/-- R281: start the self-test of the selected site. -/
def execBistStart (fn : BitVec 6) (pattern : BitVec 4) (s : State) : Host.Outcome State Fault Refusal :=
  let site := s.selSite
  .next (s.vltCmd fn Reg.vltBistCtrl [(decide (4 ≤ pattern.toNat), .eArg), (!s.testable site, .eState)]
    (fun s => ((s.startTest site pattern.toNat).setReg Reg.vltBistCtrl pattern.toNat)))

/-- R281: the self-test of a site ends: failing symbols, and each failing line with its symbol; lines from 524,288 are those of the spare
rows (log entry 140). -/
def execBistDone (col : BitVec 6) (row : BitVec 7) (fails : Nat) (lines : List (Nat × Nat)) (s : State) :
    Host.Outcome State Fault Refusal :=
  let site := siteAt col.toNat row.toNat
  .next (if (s.site site).testing.isNone then s
    else
      let s1 := ((s.scrambleSite site).updSite site (fun x => { x with testing := none, testFailed := decide (0 < fails) })).setReg
        Reg.vltBistFailCnt fails
      (lines.take 64).foldl (fun s l => s.logSite site (s.lidOf site) (l.1 % 528384) (l.2 % 64) 1 VPath.selfTest.code) s1)


end Sys2Proof.Machine
end

