-- ==== Sys2Proof/Machine/Repair.lean ====
section
/-! DEFINITION. Filling a team's cores from its image, restoring load-area lines, stand-ins of reserve cores (R221, R245, R516 to
R523). -/

namespace Sys2Proof.Machine

/-! ## What the image holds for a core -/

/-- Team rank of a logical core (R251). -/
def Team.rankOf (t : Team) (lid : Nat) : Nat := teamY t lid * t.width + teamX t lid

/-- Write a core's resident data-memory area. -/
def State.fillResident (s : State) (t : Team) (lid : Nat) : State :=
  { s with mem := s.mem.write (dmAddr lid 0) ((look [] t.bytes.resident (t.rankOf lid)).take t.resTop) }

/-- R221: bank A from the image, bank B cleared. -/
def State.fillBanks (s : State) (t : Team) (lid : Nat) : State :=
  let a := (look [] t.bytes.bankA (t.rankOf lid) ++ zeroBytes 8192).take 8192
  ({ s with mem := (s.mem.write (imAddr lid 0) a).write (imAddr lid 512) (zeroBytes 8192) }).updCore lid
    (fun c => { c with ovlA := 0, ovlB := 0 })

/-- Write a core's load area, through its background port. -/
def State.fillLoad (s : State) (t : Team) (lid : Nat) : State :=
  (t.bytes.weights.filter (fun w => w.1 == t.rankOf lid)).foldl (fun s w => (s.writeLocal (vaultBase lid + w.2.1) w.2.2).1) s

/-- The image's byte at a vault offset of a rank, where its load area has one. -/
def Team.loadByte (t : Team) (rank off : Nat) : Option Byte :=
  (t.bytes.weights.find? (fun w => w.1 == rank && decide (w.2.1 ≤ off) && decide (off < w.2.1 + w.2.2.length))).map
    (fun w => nth 0#8 w.2.2 (off - w.2.1))

/-- The bytes a load-area line is restored to: its source's, and the stored ones where the line reaches past the area. -/
def State.loadLine (s : State) (t : Team) (lid line : Nat) (bytes : List Byte) : List Byte :=
  (List.range 32).map (fun i =>
    if (t.loadByte (t.rankOf lid) (32 * line + i)).isSome then nth 0#8 bytes i else nth 0#8 (s.vread lid line).2 i)

/-- Is a line of a core in its team's load area? -/
def Team.loadLine (t : Team) (line : Nat) : Bool := t.loadArea.any (fun x => overlaps (32 * line) 32 x.1 x.2)

/-- Does repair work hold the team: rows due, stand-ins waiting or running (R277, R511, R522)? -/
def State.repairDue (s : State) (t : Team) : Bool :=
  s.dlr.repairs.any (fun n => t.cores.contains n) || s.dlr.standing.any (fun n => t.cores.contains n) ||
    (s.fld Reg.vltCtrl 12 1 == 1 && t.cores.any (fun n => !(s.site (s.siteOf n)).weak.isEmpty))

/-- R515: a slice member whose result carried the REPAIR mark tells the lead READY once no repair of the team is due. -/
def State.sendReady (s : State) (team : Nat) : State :=
  let t := s.team team
  if s.sliceMember && t.marked && !t.running && !s.repairDue t then
    (s.sendCtrl (s.fld (Reg.slcRank 0) 0 12) 5 team true).updTeam team (fun t => { t with marked := false })
  else s

/-! ## Stopping for want of a source (R518, R523) -/

/-- Region of the golden unit that holds golden byte `g` (R299). -/
def State.goldRegion (s : State) (g : Nat) : Nat := (s.goldUnit (g / 4096) - gddrBase 0) / (gddrBase 1 - gddrBase 0)

/-- R518: no copy of the base block at golden byte `g` can be reached: the batch fails at once and the team stops. -/
def State.noBaseCopy (s : State) (team g : Nat) : State :=
  let ns := ((s.team team).batch.map Entry.slot).filter (fun n => (s.slot? n).isSome)
  ((s.failSeqs ns .eMedia).logFault
    { src := srcGolden, team := some team, action := 5, loc := s.goldRegion g, naff := ns.length
      first := (ns.head?).getD 0xFFFF }).stopTeam team .eMedia false

/-- R518: no copy of the delta block at golden byte `g` can be reached: its sequences of this team's batches fail and the delta counts as
not loaded. -/
def State.noDeltaCopy (s : State) (team delta g : Nat) : State :=
  let t := s.team team
  let ns := ((t.batch ++ t.prepared).map Entry.slot).dedup.filter (fun n => (s.slot? n).any (fun x => x.delta == delta))
  let s1 := (s.failSeqs ns .eMedia).logFault
    { src := srcGolden, team := some team, action := 4, loc := s.goldRegion g, naff := ns.length
      first := (ns.head?).getD 0xFFFF }
  let s2 := s1.updTeam team (fun t => { t with batch := t.batch.filter (fun e => !ns.contains e.slot) })
  let s3 := { s2 with dlr := { s2.dlr with
      models := s2.dlr.models.map (fun (m : Nat × Model) =>
        (m.1, if m.1 = t.model then { m.2 with deltas := m.2.deltas.filter (fun d => d.1 != delta) } else m.2)) } }
  if s3.jobRuns && s3.jobTeam == team then s3.endJob .eMedia false else s3

/-- R523: image bytes that a repair needs cannot be read: the team stops as R524 states. The record's source is the model's choice:
DESIGN CHOICE, log entry 187. -/
def State.noImage (s : State) (team : Nat) : State :=
  (s.logFault { src := srcWeightMedia, cls := 3, team := some team, action := 5 }).stopTeam team .eFault true

/-! ## Restoring load-area lines (R516, R517) -/

/-- The row of a line is repaired first where it is due (R516 step 3). -/
def State.repairFirst (s : State) (lid line : Nat) : State :=
  let site := s.siteOf lid
  let row := lineBank line * 8192 + lineRow line
  if (s.site site).weak.contains row && s.fld Reg.vltCtrl 12 1 == 1 then (s.repairRow site row).getD (s.siteUnrepairable site)
  else s

/-- Has the line's row been repaired, or can it not be (R517)? -/
def State.rowSpent (s : State) (lid line : Nat) : Bool :=
  let site := s.siteOf lid
  (s.spareOf site (lineBank line) (lineRow line)).isSome || !s.canSoft site (lineBank line) (lineRow line) false

/-- Did the attempt read the line clean, and find an invalid code in it (R517)? -/
def State.lineInvalid (s : State) (lid line : Nat) : Bool :=
  (s.core lid).poisonTile.contains line && !(s.core lid).ueLines.contains line && !s.lineBad lid line

/-- R516 steps 3 and 4, R517: restore one line of a team from its source's bytes. One that reads bad again after a restore, its row repaired
or not to be repaired, fails its site. -/
def State.restoreLine (s : State) (team lid line : Nat) (bytes : List Byte) : State :=
  let t := s.team team
  let fails := t.restored.contains (lid, line) && !s.lineInvalid lid line && s.rowSpent lid line
  let s1 := s.repairFirst lid line
  let s2 := (s1.writeLocal (vaultBase lid + 32 * line) (s1.loadLine t lid line bytes)).1
  let s3 := (s2.bump Reg.fltRestoreCnt 1).updTeam team (fun t => { t with restored := t.restored ++ [(lid, line)] })
  if fails then s3.declareFailed lid false else s3

/-- No source of a line can be read (R518, Table FLT-3). -/
def State.noSource (s : State) (team : Nat) : LineSrc → State
  | .base g => s.noBaseCopy team g
  | .delta d g => s.noDeltaCopy team d g
  | .image _ => s.noImage team

/-- The golden units that a source names are written again with what the peer returned (R517). -/
def State.mendGold (s : State) (src : LineSrc) (bytes : List Byte) : State :=
  match src with
  | .image _ => s
  | .base g => patch g
  | .delta _ g => patch g
where
  /-- Rewrite 32 golden bytes, in one unit or two. -/
  patch (g : Nat) : State :=
    let n := min 32 (4096 - g % 4096)
    let s1 := s.mendUnit (g / 4096) (g % 4096) (bytes.take n)
    if n = 32 then s1 else s1.mendUnit (g / 4096 + 1) 0 ((bytes.drop n).take (32 - n))

/-- The bytes that the image gives a load-area line. -/
def Team.imageLine (t : Team) (lid line : Nat) : List Byte :=
  (List.range 32).map (fun i => (t.loadByte (t.rankOf lid) (32 * line + i)).getD 0#8)

/-- The source that the image's layout gives a line. For a line that it does not name: golden bytes from the start of the team's model
(log entry 147). -/
def State.sourceOf (s : State) (team : Nat) (gs : List LineFrom) (l : Nat × Nat) : LineFrom :=
  (gs.find? (fun g => g.core == l.1 && g.line == l.2)).getD
    { core := l.1, line := l.2, src := .base ((find? s.dlr.models (s.team team).model).elim 0 Model.off) }

/-- R516 to R518: restore one line. A line that still holds an invalid code after a restore from this device's golden unit is read from the
peer, and the unit rewritten. A line whose source is not named gets the image's bytes (log entry 147). -/
def State.restoreFrom (s : State) (team : Nat) (gs : List LineFrom) (l : Nat × Nat) : State :=
  let x := s.sourceOf team gs l
  let named := gs.any (fun g => g.core == l.1 && g.line == l.2)
  let fill := fun (bs : List Byte) => if named then bs else (s.team team).imageLine x.core x.line
  let bad := (s.team team).restored.contains (x.core, x.line) && s.lineInvalid x.core x.line
  match s.findSource x.src x.peer bad with
  | (s1, .here bs) => s1.restoreLine team x.core x.line (fill bs)
  | (s1, .peer bs) => (if bad then s1.mendGold x.src bs else s1).restoreLine team x.core x.line (fill bs)
  | (s1, .gone) => s1.noSource team x.src

/-- Load-area lines of a team that are to be restored: those with their poison flag set, and those the attempt read bad. -/
def State.badLoadLines (s : State) (t : Team) : List (Nat × Nat) :=
  t.cores.flatMap (fun n =>
    ((((s.vpoison.filter (fun k => k / 2 ^ 19 == n)).map (fun k => k % 2 ^ 19)) ++ (s.core n).ueLines ++
      (s.core n).poisonTile).dedup.filter t.loadLine).map (fun l => (n, l)))

/-- R516: restore every bad load-area line of a team, and record the repair where a line was restored. What `Team.restored` keeps are the
lines of the last gap (R517). -/
def State.restoreTeam (s : State) (team : Nat) (gs : List LineFrom) : State :=
  let ls := s.badLoadLines (s.team team)
  let s1 := ls.foldl (fun s l => if (s.team team).stopped then s else s.restoreFrom team gs l) s
  let done := (s1.team team).restored.drop (s.team team).restored.length
  let s2 := s1.updTeam team (fun t => { t with restored := done })
  if done.isEmpty then s2
  else s2.logFault { src := srcWeightMedia, cls := 3, team := some team, action := 2, loc := (done.map Prod.fst).foldl min 4095 }

/-! ## Bad lines outside the load area (Table FLT-3, R520) -/

/-- Does a slot of a pool at a rank hold a vault line? -/
def State.slotHolds (s : State) (pool rank slot a : Nat) : Bool :=
  s.poolTier pool == 0 &&
    (let g := gLoc (s.slotAddr pool rank slot)
     decide (g ≤ a) && decide (a < g + 32 * s.poolLines pool))

/-- A staged copy is given up, to be staged again. -/
def State.unstage (s : State) (seq : Nat) (p : Plate) : State :=
  (s.releaseSlot seq p.spool p.srank p.sslot).editPlate seq p.key (fun p => { p with staged := false })

/-- Lose the plates homed at an address of a vault; stage again the copies that stand there. -/
def State.plateLineBad (s : State) (at_ : Nat × Nat × Nat → Bool) : State :=
  s.plt.chains.foldl (fun s c => c.2.shadow.foldl (fun s p =>
    if p.tier = 0 && !p.lost && at_ (p.hpool, p.homeRank, p.hslot) then s.losePlate c.1 p.key
    else if p.tier ≠ 0 && p.staged && at_ (p.spool, p.srank, p.sslot) then
      (let s1 := s.unstage c.1 p
       match c.2.team with
       | some t => (s1.stagePlate c.1 t p.spool c.2 { p with staged := false }).1
       | none => s1)
    else s) s) s

/-- A bad line outside the load area: in a plate slot, as the plate; elsewhere rewritten as zero (R520). -/
def State.otherLine (s : State) (lid line : Nat) : State :=
  let a := vaultBase lid + 32 * line
  let at_ := fun (x : Nat × Nat × Nat) => s.slotHolds x.1 x.2.1 x.2.2 a
  let inPool := (List.range 64).any (fun p => s.poolOn p && s.poolTier p == 0 &&
    (s.poolSpans 0 (s.poolTeam p) (s.poolBase p) (s.poolCount p * s.poolLines p * 32)).any (fun x => decide (x.1 ≤ a) && decide (a < x.1 + x.2)))
  if inPool then s.plateLineBad at_ else (s.writeLocal a (zeroBytes 32)).1

/-- Every line outside the load area that the attempt read bad. -/
def State.otherLines (s : State) (team : Nat) : State :=
  let t := s.team team
  (t.cores.flatMap (fun n => ((s.core n).ueLines.dedup.filter (fun l => !t.loadLine l)).map (fun l => (n, l)))).foldl
    (fun s x => s.otherLine x.1 x.2) s

/-! ## Stand-ins (R245, R521 to R523) -/

/-- A core moves to another site: what waited at its background port is served before, its vault, data memory and instruction memory hold
undefined bytes, and the flags and stored errors of the site's vault are its own now (log entry 138). -/
def State.freshSite (s : State) (lid site : Nat) : State :=
  let old := idleVault site
  let move := fun (k : Nat) => if k / 2 ^ 19 = old then poisonKey lid (k % 2 ^ 19) else k
  let s1 := (s.bgDrain lid).scrambleVault lid
  { s1 with
    mem := s1.mem.write (coreWindow lid) (freeBytes s1.freeCount 0x14000), freeCount := s1.freeCount + 0x14000
    vpoison := s1.vpoison.map move
    verr := (s1.verr.filter (fun e => e.1 / 2 ^ 19 == old)).foldl (fun l e => put l (move e.1) e.2)
      (s1.verr.filter (fun e => e.1 / 2 ^ 19 != old)) }

/-- R522 steps 1 and 2: the reserve of a core whose stand-in waits is tested and takes its place; a failed test loses the column. -/
def execStandIn (core : BitVec 12) (passed : Bool) (s : State) : Host.Outcome State Fault Refusal :=
  let n := core.toNat
  if !s.dlr.repairs.contains n || !s.siteIdle (s.siteOf n) then .next s
  else
    let s1 := { s with dlr := { s.dlr with repairs := s.dlr.repairs.filter (fun m => m != n) } }
    .next (if s1.colState n ≠ 8 || !passed then s1.loseColumn n
      else
        let s2 := (s1.freshSite n (siteAt (n % 64) (n / 512 * 9 + 8))).setCol n (n / 64 % 8)
        let at_ := fun (x : Nat × Nat × Nat) => s.poolTier x.1 == 0 &&
          gLoc (s.slotAddr x.1 x.2.1 x.2.2) / 2 ^ 24 == n
        { s2 with dlr := { s2.dlr with standing := s2.dlr.standing ++ [n] } }.plateLineBad at_)

/-- Read the sources of a load area: the state after, and the first that has no copy. -/
def State.readSources (s : State) (srcs : List (LineSrc × Option (List Byte))) : State × Option LineSrc :=
  srcs.foldl (fun (acc : State × Option LineSrc) x =>
    match acc.1.findSource x.1 x.2 false with
    | (s1, .gone) => (s1, acc.2.or (some x.1))
    | (s1, _) => (s1, acc.2)) (s, none)

/-- Lines of a core's load area. -/
def Team.loadLines (t : Team) (lid : Nat) : Nat :=
  ((t.bytes.weights.filter (fun w => w.1 == t.rankOf lid)).map (fun w => ceilDiv (w.2.1 % 32 + w.2.2.length) 32)).sum

/-- R522 steps 3 to 5, R523: the refill of a stand-in ends. `failed` says that the reserve failed meanwhile; `srcs` are the sources of its
load area. Every line refilled counts as restored (R516). A refill that lost a packet fails with E_MEDIA (R257), as one whose image cannot be
read: DESIGN CHOICE, log entry 172. -/
def execStandInComplete (core : BitVec 12) (failed : Bool) (srcs : List (LineSrc × Option (List Byte))) (s : State) :
    Host.Outcome State Fault Refusal :=
  let n := core.toNat
  if !s.dlr.standing.contains n then .next s
  else
    let s1 := { s with dlr := { s.dlr with standing := s.dlr.standing.filter (fun m => m != n) } }
    let team := s.teamOfCore n
    let t := s.teamRec n
    .next (if failed then s1.loseColumn n
      else
        let r := if team.isSome then s1.readSources srcs else (s1, none)
        let s2 := if team.isSome then (((r.1.fillLoad t n).fillResident t n).fillBanks t n).bump Reg.fltRestoreCnt (t.loadLines n) else s1
        let s3 := (s2.bump Reg.fltStandinCnt 1).logFault
          { src := srcSiteFail, cls := 3, loc := n, team := team, action := 3 }
        match team, r.2 with
        | some k, some src => s3.noSource k src
        | some k, none => if t.loadBad then (s3.updTeam k (fun t => { t with loadBad := false })).noImage k else s3.sendReady k
        | none, _ => s3)

end Sys2Proof.Machine
end

