-- ==== Sys2Proof/Machine/Slices.lean ====
section
/-! DEFINITION. Slices: forming, dissolving, losing a member, T2 shape mode (R463 to R469, R474 to R480). -/

namespace Sys2Proof.Machine

/-! ## SLC_CTRL (R463, R464, R469, R479, R480) -/

/-- LAST_STATUS of an SLC_CTRL write. -/
def State.slcDone (s : State) (st : Status) : State := s.setFld Reg.slcStatus 12 8 (statusCode st)

/-- An SLC_CTRL write: rejected with its first failing check, or carried out; LAST_STATUS tells of its own checks. -/
def State.slcCmd (s : State) (fn : BitVec 6) (checks : List (Bool × Status)) (f : State → State) : State :=
  s.hostWrite fn Reg.slcCtrl [] (fun s =>
    match firstCheck checks with
    | some st => (s.reject 0 st 0 Reg.slcCtrl false).slcDone st
    | none => (f s).slcDone .ok)

/-- Fields of the slice (Tables SLC-6, SLC-9). -/
def State.slcSize (s : State) : Nat := s.fld Reg.slcCfg 16 8
def State.slcRankNo (s : State) : Nat := s.fld Reg.slcCfg 24 7
def State.rankDev (s : State) (r : Nat) : Nat := s.fld (Reg.slcRank r) 0 12
def State.rankLive (s : State) (r : Nat) : Bool := s.fld (Reg.slcRank r) 12 1 == 1
def State.t2Shape (s : State) : Bool := s.fld Reg.slcCfg 31 1 == 1

/-- Devices of the other live ranks, as the rank map names them. -/
def State.others (s : State) : List Nat :=
  ((List.range s.slcSize).filter (fun r => r != s.slcRankNo && s.rankLive r)).map s.rankDev

/-- Would a port be permitted in a slice of this device and these other members (R465)? -/
def State.portServes (s : State) (ms : List Nat) (p : Nat) : Bool :=
  bitOf (s.reg Reg.slcUplink) p || (s.fld (Reg.portPeer p) 12 1 == 1 && (s.devId :: ms).contains (s.fld (Reg.portPeer p) 0 12))

/-- Ports of a path of a destination entry. -/
def State.pathOf (s : State) (d : Nat) (b : Bool) : List Nat := onesOf 22 (bitsOf (s.reg (Reg.ngvDest d)) (if b then 22 else 0) 22)

/-- Is the port UP and allowed to send (R451)? -/
def State.portOpen (s : State) (p : Nat) : Bool := s.portSt p == 2 && s.fld (Reg.portCtrl p) 1 1 == 1

/-- Check 5 of Table SLC-1 over the paths that a choice takes: some member cannot be reached. -/
def State.unreached (s : State) (ms : List Nat) (useB : Nat → Nat → Bool) : Bool :=
  ms.any (fun m => s.fld (Reg.ngvDest m) 48 1 == 0 ||
    (List.range 4).any (fun c => ((s.pathOf m (useB m c)).filter (fun p => s.portOpen p && s.portServes ms p)).isEmpty))

/-- Check 6: a port of a member's path leads outside the slice. -/
def State.leadsOut (s : State) (ms : List Nat) (paths : List Bool) : Bool :=
  ms.any (fun m => paths.any (fun b => (s.pathOf m b).any (fun p => !s.portServes ms p)))

/-- The path a class of a member's entry takes by its CMAP. -/
def State.cmapB (s : State) (m c : Nat) : Bool := bitOf (s.fld (Reg.ngvDest m) 44 4) c

/-- Any request slot in use. -/
def State.slotsBusy (s : State) : Bool := !s.dlr.slots.isEmpty

/-- The configuration errors of check 4. -/
def State.mapBad (s : State) : Bool :=
  let n := s.slcSize
  n == 0 || decide (128 < n) || decide (n ≤ s.slcRankNo) || !((List.range n).map s.rankDev).Nodup ||
    (List.range n).any (fun r => !s.rankLive r) || s.rankDev s.slcRankNo != s.devId || s.fld Reg.ngvId 12 1 == 0

/-- Table SLC-1, orders 2 to 7. -/
def State.activateChecks (s : State) : List (Bool × Status) :=
  let ms := s.others
  [(s.sliceSt != 0, .eState), (s.slotsBusy, .eBusy), (s.mapBad, .eArg), (s.unreached ms s.cmapB, .eTopology),
   (s.leadsOut ms [false, true], .eTopology),
   (s.t2Shape && ms.any (fun m =>
      ((s.pathOf m true).filter (fun p => s.portOpen p && s.portServes ms p)).isEmpty ||
        (s.pathOf m true).any (fun p => !bitOf (s.reg Reg.slcUplink) p)), .eTopology)]

/-- Set STATE and LIVE. -/
def State.setSlice (s : State) (st live : Nat) : State := (s.setFld Reg.slcStatus 0 4 st).setFld Reg.slcStatus 4 8 live

/-- R463, R464: a device becomes a member of its slice; every rank carries itself, and none is cut. -/
def execActivate (fn : BitVec 6) (s : State) : Host.Outcome State Fault Refusal :=
  .next (s.slcCmd fn s.activateChecks (fun s =>
    (List.range s.slcSize).foldl (fun s r =>
        ((s.setFld (Reg.slcAcc (s.rankDev r)) 0 1 1).setFld (Reg.slcRank r) 15 7 r).setFld (Reg.slcRank r) 13 1 0)
      (s.setSlice 1 s.slcSize)))

/-- Clear every MEMBER bit. -/
def State.clearMembers (s : State) : State :=
  { s with regs := s.regs.map (fun (r : Nat × Nat) =>
      if Reg.slcAcc 0 ≤ r.1 ∧ r.1 < Reg.slcAcc 4096 then (r.1, putBits r.2 0 1 0) else r) }

/-- No rank is carried by another any more: that lasts until the slice is dissolved (R479). -/
def State.endCarrying (s : State) : State :=
  ((List.range 128).filter (fun r => s.fld (Reg.slcRank r) 13 1 == 1)).foldl (fun s r =>
    (s.setFld (Reg.slcRank r) 13 1 0).setFld (Reg.slcRank r) 15 7 r) s

/-- R469: the device leaves its slice. -/
def execDissolve (fn : BitVec 6) (s : State) : Host.Outcome State Fault Refusal :=
  .next (s.slcCmd fn [(s.slotsBusy, .eBusy), (s.sliceSt == 0, .eState)] (fun s =>
    (({ s with dlr := { s.dlr with cuts := [], breaking := false } }.clearMembers).endCarrying).setSlice 0 0))

/-- R479: path A again for the live members. -/
def execRestore (fn : BitVec 6) (s : State) : Host.Outcome State Fault Refusal :=
  .next (s.slcCmd fn [(s.sliceSt != 2, .eState),
      (s.unreached s.others (fun _ _ => false) || s.leadsOut s.others [false], .eTopology)]
    (fun s => s.setFld Reg.slcStatus 0 4 1))

/-! ## Losing a member (R474 to R478) -/

/-- The rank that takes over a lost rank: the nearest live one above it, else the nearest below (R476). -/
def State.successor (s : State) (f : Nat) : Nat :=
  let live := (List.range s.slcSize).filter (fun r => r != f && s.rankLive r)
  match live.filter (fun r => decide (f < r)) with
  | r :: _ => r
  | [] => live.foldl max 0

/-- Positions of this device's model share per stripe, of a request (R391). -/
def State.shareOfReq (s : State) (x : Slot) : Nat := max 1 (s.team (x.seat.getD 0)).share

/-- What a request needs on this device now, of the ranks that it runs (R391, R477): slots of its home pool and its transit pool. -/
def State.demandNow (s : State) (x : Slot) : Nat × Nat :=
  let t := s.team (x.seat.getD 0)
  let js := s.shareIndices t.plan t.share x.lres
  (s.slotDemand x.rpool t.plan t.share js,
   if x.tpool = x.rpool || x.tslots = 0 then 0 else s.slotDemand x.tpool t.plan t.share (s.shareIndices t.plan t.share x.promptLen))

/-- R478: RESERVE of the demand of a lost rank, on the device that carries it now. The lead reserves its own in its pools; another's answer is a
free value (log entry 2). -/
def State.reserveCarried (s : State) (u n : Nat) (x : Slot) : State × Bool :=
  if u ≠ s.sliceRank then askMembers n [s.rankDev u] [] s
  else
    let d := s.demandNow x
    let more := fun (p k : Nat) (s : State) => if k = 0 then some s else s.reserve p n k
    match (more x.rpool (d.1 - x.rslots) s).bind (more x.tpool (d.2 - x.tslots)) with
    | some s1 => (s1.updSlot n (fun x => { x with rslots := max x.rslots d.1, tslots := max x.tslots d.2 }), true)
    | none => (s, false)

/-- R478, on the lead: a sequence that holds positions on the lost rank `f`, or on one that `f` carried, recomputes them on the successor `u`, if
that reserves their room. `low` is the lowest of those ranks. -/
def State.recoverRank (s : State) (u low : Nat) (n : Nat) : State :=
  match s.slot? n with
  | none => s
  | some x =>
    if x.lead ≠ s.devId || x.refine || x.committed ≤ low * s.shareOfReq x then s
    else
      let a := s.reserveCarried u n x
      if a.2 then a.1.recoverFrom n (low * s.shareOfReq x) else a.1.endReq n .eTopology

/-- R476: one rank leaves the slice. -/
def State.applyCut (s : State) (f : Nat) : State :=
  if !s.rankLive f then s
  else
    let u := s.successor f
    let low := ((List.range s.slcSize).find? (fun r => s.fld (Reg.slcRank r) 15 7 == f)).getD f
    let s1 := (((s.setFld (Reg.slcAcc (s.rankDev f)) 0 1 0).setFld (Reg.slcRank f) 12 1 0).setFld (Reg.slcRank f) 13 1 1).setSlice 2
      (s.fld Reg.slcStatus 4 8 - 1)
    let s2 := (List.range s.slcSize).foldl (fun s r =>
      if s.fld (Reg.slcRank r) 15 7 = f then s.setFld (Reg.slcRank r) 15 7 u else s) s1
    (s2.dlr.slots.map Prod.fst).foldl (fun s n => s.recoverRank u low n) s2

/-- R475 steps 2 to 4: the slice breaks. -/
def State.breakSlice (s : State) : State :=
  let s1 := { s with dlr := { s.dlr with cuts := [], breaking := false } }.setFld Reg.slcStatus 0 4 3
  (s1.dlr.slots.map (fun x => (x.1, x.2.lead))).foldl (fun s x =>
    if x.2 = s.devId then s.endReq x.1 .eTopology else s.freeReq x.1) s1

/-- Every loss that waits, in ascending rank, once no team runs a turn that has yet to be discarded for it (R475, R476). -/
def State.applyCuts (s : State) : State :=
  if s.teams.any (fun t => t.2.cut && t.2.running) then s
  else if s.dlr.breaking then s.breakSlice
  else
    (sortBy (fun a b => decide (a ≤ b)) s.dlr.cuts).foldl State.applyCut { s with dlr := { s.dlr with cuts := [] } }

/-- Mark every running turn to be discarded at its boundary. -/
def State.markCut (s : State) : State :=
  { s with teams := s.teams.map (fun (t : Nat × Team) => (t.1, { t.2 with cut := t.2.cut || t.2.running })) }

/-- R474: this member declares a rank lost. Where the slice cannot be closed, it breaks (R475). -/
def State.declareLost (s : State) (f : Nat) : State :=
  if (s.sliceSt ≠ 1 && s.sliceSt ≠ 2) || s.slcSize ≤ f || !s.rankLive f || s.dlr.cuts.contains f then s
  else if !s.t2Shape || f = 0 then ({ s.markCut with dlr := { s.dlr with breaking := true } }).applyCuts
  else ({ s.markCut with dlr := { s.dlr with cuts := s.dlr.cuts ++ [f] } }).applyCuts

/-- R474, R480: the host driver declares a rank lost. -/
def execCut (fn : BitVec 6) (rank : BitVec 7) (s : State) : Host.Outcome State Fault Refusal :=
  let f := rank.toNat
  .next (s.slcCmd fn
    [(f == 0 || decide (s.slcSize ≤ f) || f == s.slcRankNo, .eArg), (s.sliceSt == 0 || s.sliceSt == 3, .eState)]
    (fun s => s.declareLost f))

/-- R474: a CUT control message of the lead names a rank. -/
def execCutMessage (rank : BitVec 7) (s : State) : Host.Outcome State Fault Refusal := .next (s.declareLost rank.toNat)

/-! ## Reduction contexts of a team (R446, R514) -/

/-- Set every context a team owns to EMPTY. -/
def State.clearContexts (s : State) (team : Nat) : State :=
  (List.range 256).foldl (fun s c => if s.ctx c 17 6 = team && s.ctx c 0 1 = 1 then s.setCtx c 206 2 0 else s) s

end Sys2Proof.Machine
end

