-- ==== Sys2Proof/Machine/Jobs.lean ====
section
/-! DEFINITION. Replay jobs: the job image, START, the job's turns and results, ABORT and the capture (R498 to R504). -/

namespace Sys2Proof.Machine

/-! ## The job image (R498) -/

/-- One record of a job image: an OPEN with its prompt, or a TURN. -/
inductive JobRec where
  | opened (x : JobSeq) (serial : Nat)
  | turn (bytes : List Byte) (serial : Nat)
deriving DecidableEq, Repr

/-- Does a record's CRC hold: the word at byte 60, over the record with that word zero (R488)? -/
def crcOk (bs : List Byte) : Bool := leAt bs 60 4 == crc32c (bs.take 60 ++ zeroBytes 4 ++ bs.drop 64)

/-- Little-endian words of a list of bytes. -/
def wordList : Nat → List Byte → List Nat
  | 0, _ => []
  | n + 1, bs => leNat (bs.take 4) :: wordList n (bs.drop 4)

/-- Length rounded up to whole 64 bytes. -/
def up64 (n : Nat) : Nat := ceilDiv n 64 * 64

/-- Read one record and the rest of the image; none where it is malformed (R499). -/
def readRecord (bs : List Byte) : Option (JobRec × List Byte) :=
  let w := leNat (bs.take 64)
  if bs.length < 64 || bitsOf w 0 32 != recMagic then none
  else if bitsOf w 32 4 = 2 then
    let n := bitsOf w 416 32
    let prompt := (bs.drop 64).take (4 * n)
    if !crcOk (bs.take 64) || prompt.length < 4 * n || bitsOf w 448 32 != crc32c prompt then none
    else some (.opened
      { arr := bitsOf w 128 32, seed := bitsOf w 192 128, d := bitsOf w 36 3, plen := n, tokens := wordList n prompt, drafts := []
        temp := bitsOf w 320 32, topK := bitsOf w 352 9, topP := bitsOf w 368 16, delta := bitsOf w 384 16 } (bitsOf w 64 64),
      bs.drop (64 + up64 (4 * n)))
  else if bitsOf w 32 4 = 1 then
    let len := 64 + 16 * bitsOf w 48 12
    let r := bs.take len
    if r.length < len || !crcOk r then none else some (.turn r (bitsOf w 320 64), bs.drop (up64 len))
  else none

/-- Every record of an image. -/
def readImage : Nat → List Byte → Option (List JobRec)
  | 0, _ => none
  | fuel + 1, bs =>
    if bs.isEmpty then some []
    else
      match readRecord bs with
      | none => none
      | some (r, rest) => (readImage fuel rest).map (fun rs => r :: rs)

/-- Serial of a record. -/
def JobRec.serial : JobRec → Nat
  | .opened _ n => n
  | .turn _ n => n

/-- The sequences and the turns of an image. -/
def openOf : JobRec → Option JobSeq
  | .opened x _ => some x
  | .turn _ _ => none
def turnOf : JobRec → Option (List Byte)
  | .opened _ _ => none
  | .turn bs _ => some bs

/-- A field of a TURN record's header. -/
def turnFld (bs : List Byte) (lo len : Nat) : Nat := bitsOf (leNat (bs.take 64)) lo len

/-- The entries of a TURN record, as 16-byte numbers. -/
def turnEntries (bs : List Byte) : List Nat := (List.range (turnFld bs 48 12)).map (fun i => leAt bs (64 + 16 * i) 16)

/-- Are the serials ascending? -/
def ascending : List Nat → Bool
  | [] => true
  | [_] => true
  | a :: b :: t => decide (a < b) && ascending (b :: t)

/-- Does every TURN entry name an ARR opened before it? -/
def openedBefore : List Nat → List JobRec → Bool
  | _, [] => true
  | seen, .opened x _ :: t => openedBefore (x.arr :: seen) t
  | seen, .turn bs _ :: t => (turnEntries bs).all (fun e => seen.contains (bitsOf e 64 32)) && openedBefore seen t

/-- One value throughout? -/
def uniform (xs : List Nat) : Bool := xs.all (fun x => x == xs.headD 0)

/-! ## START (R499, R502) -/

/-- The device reads the job's image, which counts (R295): the state after, the status, the bytes. -/
def State.jobImage (s : State) : State × Status × List Byte := s.readGddr (s.reg Reg.detJobSrc) (64 * s.reg Reg.detJobLen)

/-- Positions a job's sequence comes to: the end of its last entry and its drafts. -/
def jobLen (turns : List (List Byte)) (x : JobSeq) : Nat :=
  ((turns.flatMap turnEntries).filter (fun e => bitsOf e 64 32 == x.arr)).foldl
    (fun a e => max a (bitsOf e 32 32 + bitsOf e 16 13 + x.d + 1)) x.plen

/-- Reserve a job's plates in its pool; none where they do not fit. -/
def State.jobReserve (s : State) (pool team : Nat) (turns : List (List Byte)) : List (Nat × JobSeq) → Option State
  | [] => some s
  | (k, x) :: rest =>
    let t := s.team team
    let len := jobLen turns x
    let js := s.shareIndices t.plan t.share len
    let sh := chainShape t.plan len
    match s.reserve pool (jobSlot k) (s.slotDemand pool t.plan t.share js) with
    | none => none
    | some s1 => (s1.setChain (jobSlot k)
        { tenant := 0, log2n := t.plan.log2n, kvw := t.plan.kvw, depth := sh.2.2, jb := sh.1, lhb := sh.2.1, hpool := pool
          lhs := t.plan.lhs, team := some team }).jobReserve pool team turns rest

/-- The checks of START, in order, and that of the capture point (R505). `v` is the word written. -/
def State.startChecks (s : State) (v : Nat) (img : Option (List JobRec)) : List (Bool × Status) :=
  let team := bitsOf v 2 6
  let t := s.team team
  let rs := img.getD []
  let turns := rs.filterMap turnOf
  let opens := rs.filterMap openOf
  [(s.jobRuns, .eBusy),
   (!t.loaded || s.teamPaused team || !(s.bound team).isEmpty || t.stopped, .eState),
   (img.isNone || !ascending (rs.map JobRec.serial) || (!bitOf v 14 && !openedBefore [] rs) ||
      !uniform (turns.map (fun b => turnFld b 40 6)) || !uniform (turns.map (fun b => turnFld b 448 12)) ||
      !uniform (turns.map (fun b => turnFld b 460 7)), .eArg),
   (turns.any (fun b => turnFld b 128 64 != s.reg Reg.glbDetClass || turnFld b 192 64 != t.image.programId ||
      turnFld b 36 2 == 2), .eUnsupported),
   ((s.jobReserve (bitsOf v 8 6) team turns ((List.range opens.length).zip opens)).isNone, .eNoroom),
   (turns.any (fun b => turnFld b 467 7 != 0 && ((s.sliceSt != 1 && s.sliceSt != 2) ||
      s.sliceSize != turnFld b 467 7 || s.sliceRank != turnFld b 460 7)), .eTopology),
   (bitOf v 16 && decide (t.width * t.height ≤ s.fld Reg.detCapPoint 0 12), .eRange)]

/-- R498, R499: start a replay job. One whose image lies on a sector that cannot be read ends at once with E_MEDIA (DESIGN CHOICE, log entry
156). -/
def execStart (fn : BitVec 6) (value : Word) (s : State) : Host.Outcome State Fault Refusal :=
  let v := value.toNat
  let r := s.jobImage
  let img := readImage (s.reg Reg.detJobLen + 1) r.2.2
  let read := fun (t : State) => if fn ≠ 0#6 || s.jobRuns then t else t.jobImage.1
  .next (read (s.hostWrite fn Reg.detJobCtrl (s.startChecks v img) (fun s =>
    let rs := img.getD []
    let turns := rs.filterMap turnOf
    let opens := rs.filterMap openOf
    match s.jobReserve (bitsOf v 8 6) (bitsOf v 2 6) turns ((List.range opens.length).zip opens) with
    | none => s
    | some s1 =>
      let s2 := { ((s1.setReg Reg.detJobCtrl (v % 2 ^ 17 / 4 * 4 + 1)).setReg Reg.detJobStatus 1).setReg Reg.detJobDone 0 with
        det := { s1.det with jobTurns := turns, jobSeqs := opens, abort := false } }
      if r.2.1 ≠ .ok then s2.endJob .eMedia false
      else if turns.isEmpty then s2.endJob .ok false else s2)))

/-! ## The job's turns (R500, R501) -/

/-- The job's sequence behind a TURN entry, by ARR. -/
def State.jobSeqNo (s : State) (arr : Nat) : Option (Nat × JobSeq) :=
  ((List.range s.det.jobSeqs.length).zip s.det.jobSeqs).find? (fun x => x.2.arr == arr)

/-- Inputs that an entry of a job takes from the prompt or the job's earlier turns. -/
def jobInputs (x : JobSeq) (ekind pos nin : Nat) : List (Nat × Option Nat) :=
  if ekind = 0 then
    (nth 0 x.tokens pos, none) :: (x.drafts.take (nin - 1)).map (fun d => (d.1, some d.2))
  else ((List.range nin).map (fun i => (nth 0 x.tokens (pos + i), none)))

/-- The batch of a TURN record, without the entries that the image does not open (SUBSET). -/
def State.jobBatch (s : State) (bs : List Byte) : List Entry :=
  (turnEntries bs).filterMap (fun e => (s.jobSeqNo (bitsOf e 64 32)).map (fun x =>
    ⟨jobSlot x.1, bitsOf e 13 3, bitsOf e 32 32, jobInputs x.2 (bitsOf e 13 3) (bitsOf e 32 32) (bitsOf e 16 13), x.2.arr⟩))

/-- Do the records of the job that a team runs name no slice, so that its turns need no vote (R502)? -/
def State.jobAlone (s : State) (team : Nat) : Bool :=
  (s.team team).savedTurn.isSome && s.det.jobTurns.head?.any (fun b => turnFld b 467 7 == 0)

/-- Form the next turn of a job: the record's T, role and batch. -/
def State.formJob (s : State) (team : Nat) : State :=
  match s.det.jobTurns with
  | [] => s
  | bs :: _ =>
    let b := s.jobBatch bs
    let s1 := (s.pltPrepare team (Config.stagingPool team) (turnFld bs 64 64)
      (b.map (fun e => (e.slot, e.pos + e.inputs.length - 1)))).1
    s1.updTeam team (fun t =>
      { t with prepared := b, prepRole := turnFld bs 36 2, savedTurn := some (t.savedTurn.getD t.turn)
               savedRoles := some (t.savedRoles.getD (t.role, t.prepRole)), turn := turnFld bs 64 64 })

/-- What one turn makes of a job's sequence. -/
def JobSeq.after (x : JobSeq) (e : Entry) (o : SeqOut) : JobSeq :=
  let p := e.pos + (if e.ekind = 0 then 1 else e.inputs.length)
  if o.tokens.isEmpty then x else { x with tokens := x.tokens.take p ++ o.tokens, drafts := o.drafts }

/-- The first entry whose inputs differ, or whose accepted drafts do. -/
def firstBad (outs : List SeqOut) : Nat → List (Entry × Nat) → Option Nat
  | _, [] => none
  | i, (e, w) :: t =>
    if crc32c (inputBytes e) != bitsOf w 96 32 ||
        (e.ekind == 0 && (outOf outs e.slot).tokens.length != bitsOf w 29 3 + 1) then some i
    else firstBad outs (i + 1) t

/-- The device writes bytes of a job in GDDR, but never into the golden-copy area (R300; log entry 178). -/
def State.writeJob (s : State) (a : Nat) (bytes : List Byte) : State := if s.inGold a bytes.length then s else s.writeGddr a bytes

/-- R501: the result of one job turn, whose record is `bs`. Where only OUT_CRC differs the record does not say which entry: a free
value (log entry 2). -/
def State.jobResult (s : State) (team : Nat) (bs : List Byte) : State :=
  let t := s.team team
  let kept := (turnEntries bs).filter (fun e => (s.jobSeqNo (bitsOf e 64 32)).isSome)
  let pairs := t.batch.zip kept
  let oc := outCrc t.batch t.outputs
  let outOk := oc == turnFld bs 384 32
  let inOk := pairs.all (fun p => crc32c (inputBytes p.1) == bitsOf p.2 96 32)
  let bad := match firstBad t.outputs 0 pairs with
    | some i => i
    | none => if outOk then 0xFFFF else (Config.freeValue s.freeCount).toNat % max 1 pairs.length
  let flagged := !(timingEntries (s.teamLogs t)).isEmpty
  let k := s.reg Reg.detJobDone
  let s1 := ({ s with freeCount := s.freeCount + 1 }.writeJob (s.reg Reg.detJobRes + 16 * k)
    (leBytes 16 (turnFld bs 320 64 + oc * 2 ^ 64 + bit outOk * 2 ^ 96 + bit inOk * 2 ^ 97 + bit flagged * 2 ^ 98 + bad * 2 ^ 112))).setReg
      Reg.detJobDone (k + 1)
  if outOk && inOk then s1 else s1.setFld Reg.detJobStatus 12 1 1

/-- A committed turn of the job: its result, its tokens, and the end of the job where it is due. -/
def State.jobCommit (s : State) (team : Nat) : State :=
  match s.det.jobTurns with
  | [] => s
  | bs :: rest =>
    let t := s.team team
    let s1 := s.jobResult team bs
    let seqs := ((List.range s1.det.jobSeqs.length).zip s1.det.jobSeqs).map (fun x =>
      match t.batch.find? (fun e => e.slot == jobSlot x.1) with
      | some e => x.2.after e (outOf t.outputs e.slot)
      | none => x.2)
    let s2 := { s1 with det := { s1.det with jobTurns := rest, jobSeqs := seqs } }
    if s2.det.abort then s2.endJob .eCancelled false
    else if rest.isEmpty || (s2.fld Reg.detJobCtrl 15 1 = 1 && s2.fld Reg.detJobStatus 12 1 = 1) then s2.endJob .ok false
    else s2

/-- R499: a write of ABORT; the job ends at its next turn boundary, at once where no turn runs. -/
def execAbort (fn : BitVec 6) (s : State) : Host.Outcome State Fault Refusal :=
  .next (s.hostWrite fn Reg.detJobCtrl [] (fun s =>
    if !s.jobRuns then s
    else if (s.team s.jobTeam).running then { s.setFld Reg.detJobCtrl 1 1 1 with det := { s.det with abort := true } }
    else s.endJob .eCancelled false))

/-! ## Capture (R503, R504) -/

/-- Sections that a core has ended in this turn, those with an id. -/
def Core.ended (c : Core) (id : Nat) : List SectLog := c.sectLog.filter (fun x => x.id == id)

/-- The cycle of the bundle that ended the current section, where one has: its SECT, ALIGN wait or END. -/
def Core.sectEnd (c : Core) : Option Nat :=
  match c.exec with
  | .atSect => c.sectNext.map SectNext.issued
  | .atWait => (c.wait.filter WaitSt.align).map WaitSt.issued
  | .atEnd => some c.now
  | _ => none

/-- The turn cycle of the capture point on a core, and whether it has moved: the occurrence lasts to the cycle, or a LOOSE wait issued in it
before the cycle, and the next section has started (R503, R504). -/
def Core.capturePoint (c : Core) (id occ cyc : Nat) : Option (Nat × Bool) :=
  let at_ := 2048 * c.sect.startFrame + cyc
  let past := (c.ended id).length - (if c.exec = .atEnd then 1 else 0)
  if c.sect.id = id && past = occ && !(c.sect.loose && decide (c.sect.looseAt < at_)) then
    (if c.sectEnd.all (fun k => decide (at_ ≤ k)) then some (at_, false) else none)
  else if c.exec ≠ .atEnd && c.sectLog.getLast? == (c.ended id)[occ]? &&
      ((c.ended id)[occ]?).any (fun x => x.loose && decide (x.looseAt < x.start + cyc)) then
    some (2048 * c.sect.startFrame, true)
  else none

/-- R503: the replay reaches its capture point on a core: the team stops and the core's state is written out. -/
def execCapture (core : BitVec 12) (s : State) : Host.Outcome State Fault Refusal :=
  let n := core.toNat
  let team := s.jobTeam
  let t := s.team team
  let c := s.core n
  let here := s.jobRuns && s.fld Reg.detJobCtrl 16 1 == 1 && t.running && c.inTurn && s.teamOfCore n == some team &&
    t.rankOf n == s.fld Reg.detCapPoint 0 12 &&
    s.det.jobTurns.head?.any (fun b => turnFld b 320 64 == s.reg Reg.detCapSerial)
  match (if here then c.capturePoint (s.fld Reg.detCapPoint 16 16) (s.fld Reg.detCapCyc 28 4) (s.fld Reg.detCapCyc 0 28) else none) with
  | none => .next s
  | some (cyc, moved) =>
    if cyc < c.now then .next s
    else
      let s1 := t.cores.foldl (fun s m => s.updCore m (fun c => if c.inTurn then { c with exec := .halted, wait := none } else c)) s
      let s2 := (settle n cyc s1).updCore n (fun c => { c with turnCyc := cyc })
      .next ((((s2.writeJob (s.reg Reg.detCapAddr) (s2.captureImage n)).dropTurn team).endJob .ok true).setFld
        Reg.detJobStatus 11 1 (bit moved))

end Sys2Proof.Machine
end

