-- ==== Sys2Proof/Machine/Batches.lean ====
section
/-! DEFINITION. Batches: forming and preparing the next batch of a team, publishing plates, the final batch and its maps, the cores at the
start of a turn, what a lead sends its members (R122, R135, R141, R221, R364 to R367, R400 to R406, R416, R417, R477). -/

namespace Sys2Proof.Machine

/-! ## Entries of a batch (R401, R405, R511) -/

/-- Is a sequence in the running or prepared turn of a team other than this one, or in a batch that such a team replays? -/
def State.heldElsewhere (s : State) (n team : Nat) : Bool :=
  s.plt.turns.any (fun p => p.1 != team && (p.2.running.contains n || p.2.prepared.any (fun q => q.1 == n))) ||
    s.teams.any (fun t => t.1 != team && t.2.batch.any (fun e => e.slot == n))

/-- The live request that an entry names: its slot may have ended since the batch was final, or serve another request by now. -/
def State.entrySlot (s : State) (e : Entry) : Option Slot := (s.slot? e.slot).filter (fun x => x.arrival == e.arr && x.st != .ending)

/-- Does an entry of a final batch stay in it: its sequence, or that of a replay job, lives and has not entered RECOVER since (R511)? -/
def State.entryHeld (s : State) (t : Team) (e : Entry) : Bool :=
  (decide (8192 ≤ e.slot) || (s.entrySlot e).isSome) && !t.gone.contains e.slot

/-- May an entry of a prepared batch stand in the final one? -/
def State.entryLive (s : State) (team : Nat) (e : Entry) : Bool :=
  if 8192 ≤ e.slot then true
  else
    match s.entrySlot e with
    | none => false
    | some x =>
      match e.ekind with
      | 0 => x.st == .decode && x.team == some team
      | 1 => (x.st == .prefill || (x.st == .recover && decide (x.committed ≤ e.pos))) && x.next == e.pos
      | 2 => x.st == .recover && x.next == e.pos
      | _ => x.st == .refine

/-! ## Token histories (R387, R417) -/

/-- Words of a request's token history. -/
def State.histTokens (s : State) (x : Slot) (p n : Nat) : List Nat :=
  wordList n (s.readGddr (x.histAddr + 64 + 4 * p) (4 * n)).2.2

/-- The drafts in a request's draft area, with their probabilities. -/
def State.histDrafts (s : State) (x : Slot) : List (Nat × Option Nat) :=
  let bs := (s.readGddr x.histAddr (8 * x.ndrafts)).2.2
  (List.range x.ndrafts).map (fun i => (leAt bs (8 * i) 4, some (leAt bs (8 * i + 4) 4)))

/-- What the inputs of an entry are read from: spans of its request's history, the draft area among them where it has drafts. -/
def Slot.histSpans (x : Slot) (e : Entry) : List (Nat × Nat) :=
  if e.ekind = 3 then []
  else if e.ekind = 0 then
    (x.histAddr + 64 + 4 * e.pos, 4) :: (if x.ndrafts = 0 then [] else [(x.histAddr, 8 * x.ndrafts)])
  else [(x.histAddr + 64 + 4 * e.pos, 4 * e.inputs.length)]

/-- Is part of a history unreadable? -/
def State.histBad (s : State) (x : Slot) (e : Entry) : Bool :=
  (x.histSpans e).any (fun r => !s.gddrOk r.1 r.2 || s.sectorBad r.1 r.2)

/-- The inputs of the batch are read from the token histories, which counts (R295); a sequence whose history cannot be read fails with
E_MEDIA (R417). -/
def State.dropUnread (s : State) (es : List Entry) : State :=
  es.foldl (fun s e =>
    match s.entrySlot e with
    | some x =>
      let s1 := (x.histSpans e).foldl (fun s r => (s.readGddr r.1 r.2).1) s
      if s.histBad x e then s1.endReq e.slot .eMedia else s1
    | none => s) s

/-! ## Forming the next batch (R400, R401, R406) -/

/-- The entry of a DECODE sequence: the token at its committed length, then its drafts (Table DLR-7). -/
def State.decodeEntry (s : State) (n : Nat) (x : Slot) : Entry :=
  ⟨n, 0, x.committed, (s.histTokens x x.committed 1).map (fun t => (t, none)) ++ s.histDrafts x, x.arrival⟩

/-- Where the next chunk of a sequence starts: after the chunk the team runs, else where prefill or recompute stands. -/
def Team.chunkPos (t : Team) (n : Nat) (x : Slot) : Nat :=
  match t.batch.find? (fun e => e.slot == n && (e.ekind == 1 || e.ekind == 2)) with
  | some e => if t.gone.contains n then x.next else e.pos + e.inputs.length
  | none => x.next

/-- Tokens of the chunk of a sequence from a position. -/
def Team.chunkLen (t : Team) (x : Slot) (p : Nat) : Nat := min (x.chunkEnd p - p) t.pfTok

/-- The chunk entry of a sequence from a position. -/
def State.chunkEntry (s : State) (t : Team) (n : Nat) (x : Slot) (p : Nat) : Entry :=
  ⟨n, if x.st = .recover && p < x.committed then 2 else 1, p, (s.histTokens x p (t.chunkLen x p)).map (fun t => (t, none)), x.arrival⟩

/-- Sequences of a model with a chunk waiting, in the order of R398 and R401. -/
def State.chunkQueue (s : State) (team : Nat) (t : Team) : List (Nat × Slot) :=
  sortBy (fun a b => !b.2.before a.2) (s.dlr.slots.filter (fun x => x.2.model == t.model && (x.2.st == .recover || (x.2.st == .prefill && x.2.prompted)) &&
    decide (t.chunkPos x.1 x.2 < x.2.target) && !s.heldElsewhere x.1 team))

/-- Take chunks until the next would exceed the token or sequence limit (R401). -/
def takeChunks (t : Team) : List (Nat × Slot) → Nat → Nat → List (Nat × Slot)
  | [], _, _ => []
  | x :: xs, toks, k =>
    let n := t.chunkLen x.2 (t.chunkPos x.1 x.2)
    if t.pfTok < toks + n || t.bMax ≤ k then [] else x :: takeChunks t xs (toks + n) (k + 1)

/-- The entries of the next batch of a team in a role, slots ascending (R401). -/
def State.formEntries (s : State) (team role : Nat) : List Entry :=
  let t := s.team team
  if role = 0 then
    let xs := takeChunks t (s.chunkQueue team t) 0 0
    (s.dlr.slots.filter (fun x => xs.any (fun y => y.1 == x.1))).map
      (fun x => s.chunkEntry t x.1 x.2 (t.chunkPos x.1 x.2))
  else if role = 1 then
    ((s.dlr.slots.filter (fun x => x.2.st == .decode && x.2.team == some team && !s.heldElsewhere x.1 team)).take t.bMax).map
      (fun x => s.decodeEntry x.1 x.2)
  else if role = 2 then
    ((s.dlr.slots.filter (fun x => x.2.st == .refine && x.2.team == some team)).take 1).map
      (fun x => ⟨x.1, 3, 0, [((Config.freeValue s.freeCount).toNat % 2 ^ 32, none)], x.2.arrival⟩)
  else []

/-- The highest position that a PREPARE of an entry covers (R367). -/
def State.highPos (s : State) (team : Nat) (e : Entry) : Nat :=
  if e.ekind = 0 then
    match s.slot? e.slot with
    | some x => if (s.team team).batch.any (fun b => b.slot == e.slot) then x.committed + 2 * x.d + 1 else x.committed + x.d
    | none => e.pos
  else e.pos + e.inputs.length - 1

/-- What PREPARE is given: the sequences of a batch with their highest positions (R367). A REFINE request has no plates (R399). -/
def State.highs (s : State) (team : Nat) (es : List Entry) : List (Nat × Nat) :=
  (es.filter (fun e => e.ekind != 3)).map (fun e => (e.slot, s.highPos team e))

/-- Bind the sequences of chunks to the team that takes them (R416). -/
def State.bindChunks (s : State) (team : Nat) (es : List Entry) : State :=
  es.foldl (fun s e =>
    if e.ekind = 1 || e.ekind = 2 then (s.updSlot e.slot (fun x => { x with team := some team })).bindSeq e.slot (some team)
    else s) s

/-- R406: move every sequence and seat of a team to other DECODE teams; none where one finds no team. -/
def State.rebindAll (s : State) (team : Nat) : List Nat → Option State
  | [] => some s
  | n :: ns =>
    match s.slot? n with
    | none => s.rebindAll team ns
    | some x =>
      match s.seatFor x (some team) with
      | none => none
      | some u => (s.moveSeat n u).rebindAll team ns

/-- R406: the role of the turn about to be prepared. A DECODE team that others can relieve gives up its sequences first; one that a
sequence is bound to does not become REFINE (R408), and one that does gives up its seats. -/
def State.applyRole (s : State) (team : Nat) : State :=
  let t := s.team team
  match t.nextRole with
  | none => s
  | some r =>
    let s0 := s.updTeam team (fun t => { t with nextRole := none })
    if r = t.prepRole || (r = 2 && !(s.bound team).isEmpty) then s0
    else
      let go := fun (s : State) => (s.updTeam team (fun t => { t with prepRole := r })).bump Reg.dlrRoleswCnt 1
      if r = 2 || (t.prepRole = 1 && r = 0 && decide (1 < (s.workTeams t.model).length)) then
        (match s0.rebindAll team (s.attached team) with
        | some s1 => go s1
        | none => s0)
      else go s0

/-- R393, R416: prefill or recompute is done: the sequence goes to its seat team, its transit plates to their home pool, each once it may
move (R375). -/
def State.toDecode (s : State) (n : Nat) : State :=
  match s.slot? n with
  | none => s
  | some x =>
    let seat := x.seat.or (s.seatFor x none)
    let s1 := (s.updSlot n (fun x => { x with st := .decode, team := seat, seat := seat })).bindSeq n seat
    match s1.chain? n with
    | none => s1
    | some c => if x.tpool = x.rpool then s1 else (s1.setChain n { c with hpool := x.rpool }).moveTransit n

/-- R416: a sequence in RECOVER of which no committed position is lost has nothing to recompute. -/
def State.settleRecover (s : State) : State :=
  s.dlr.slots.foldl (fun s x =>
    if x.2.st == .recover && x.2.generated != 0 && decide (x.2.committed ≤ x.2.next) && (s.runningIn x.1).isNone then s.toDecode x.1 else s) s

/-- R400: form the next batch of a team and issue PREPARE for it, unless one is prepared. -/
def State.formTurn (s : State) (team : Nat) : State :=
  let t := s.team team
  if !t.prepared.isEmpty || t.stopped || !t.loaded then s
  else if s.jobRuns && s.jobTeam == team then (if t.running then s else s.formJob team)
  else if !s.isLead then s
  else
    let s1 := s.settleRecover.applyRole team
    let es := s1.formEntries team (s1.team team).prepRole
    if es.isEmpty then s1
    else
      let s2 := { s1.bindChunks team es with freeCount := s1.freeCount + 1 }
      match s2.pltPrepare team (Config.stagingPool team) (if t.running then t.turn + 1 else t.turn) (s2.highs team es) with
      | (s3, .ok) => s3.updTeam team (fun t => { t with prepared := es })
      | _ => s1

/-! ## Steps 5 and 6: publish, final batch, maps (R364, R366, R403) -/

/-- The entry with the inputs that stand now: a DECODE entry follows the last commit. -/
def State.freshEntry (s : State) (e : Entry) : Entry :=
  if 8192 ≤ e.slot || e.ekind ≠ 0 then e
  else
    match s.slot? e.slot with
    | some x => s.decodeEntry e.slot x
    | none => e

/-- R364: a turn boundary of a team publishes every chain that was edited while a turn of that team held its sequence. -/
def State.publishTurn (s : State) (team : Nat) : State :=
  ((s.plt.chains.filter (fun c => c.2.dirty && c.2.awaits.contains team)).map Prod.fst).foldl (fun s n => s.publishChain n) s

/-- One map entry (R366, R373, Table ISA-27). -/
def State.mapBytes (s : State) (team : Nat) (c : Chain) (p : Option Plate) : List Byte :=
  match p.filter (fun p => !p.lost) with
  | none => leBytes 16 (c.log2n * 2 ^ 24 + (c.kvw - 1) * 2 ^ 28)
  | some p =>
    let here := p.staged && s.poolTeam p.spool == team
    leBytes 16 ((if here then gLoc (s.slotAddr p.spool p.srank p.sslot) % 2 ^ 24 else 0) + c.log2n * 2 ^ 24 + (p.kvw - 1) * 2 ^ 28 +
      (if here then 1 else 2) * 2 ^ 32 + s.slotAddr p.hpool p.homeRank p.hslot * 2 ^ 64)

/-- WHERE of a plate under a team's map: 0 ABSENT, 1 VAULT, 2 REMOTE. -/
def State.whereOf (s : State) (team : Nat) (p : Plate) : Nat :=
  if p.lost then 0 else if p.staged && s.poolTeam p.spool == team then 1 else 2

/-- Note in both versions of a chain how its plates are mapped, for the order of evictions (R372). -/
def State.stampChain (s : State) (team seq : Nat) : State :=
  match s.chain? seq with
  | none => s
  | some c =>
    let f := fun (p : Plate) => { p with mapped := s.whereOf team p, stamp := s.plt.clock }
    s.setChain seq { c with published := c.published.map f, shadow := c.shadow.map (fun p =>
      match plateOf c.published p.key with
      | some q => { p with mapped := s.whereOf team q, stamp := s.plt.clock }
      | none => { p with mapped := 0 }) }

/-- R366, R477: write the map entries of the sequence at batch index `i` for the run of a slice rank, from the published version. -/
def State.mapSeq (s : State) (team rank i seq : Nat) : State :=
  match s.chain? seq with
  | none => s
  | some c =>
    let t := s.team team
    let s1 := t.plan.holders.foldl (fun s h =>
      let p := c.published.find? (fun p => p.key / 2 ^ c.jb == h.1 && s.rangeOf team c p.key == h.2.1 &&
        (s.sliceSt == 0 || s.shareRank c.log2n t.share (p.key % 2 ^ c.jb) == rank))
      let lid := coreAt t (h.2.2.1 % max t.width 1) (h.2.2.1 / max t.width 1)
      let a := t.plan.mapBase + (i * t.plan.u + h.2.2.2) * 16
      let s' := { s with mem := s.mem.write (dmAddr lid a) (s.mapBytes team c p) }
      if p.any (fun p => s.whereOf team p == 2) then s'.bump Reg.pltRemoteCnt 1 else s') s
    s1.stampChain team seq

/-- The rank that a turn runs for first (R477). -/
def State.firstRank (s : State) : Nat := s.ranksRun.headD s.sliceRank

/-- Write the maps of a team's batch for the run of a rank. -/
def State.writeMaps (s : State) (team rank : Nat) : State :=
  let b := (s.team team).batch
  let s1 := ((List.range b.length).zip b).foldl (fun s x => s.mapSeq team rank x.1 x.2.slot) s
  { s1 with plt := { s1.plt with clock := s1.plt.clock + 1 } }

/-- The turn that stands named by a team's maps: its sequences count as in the running turn (R347, R364). -/
def State.openTurn (s : State) (team : Nat) (ns : List Nat) : State :=
  { s with plt := { s.plt with turns := upd {} s.plt.turns team (fun p =>
      { p with running := ns, epoch := p.epoch + 1 }) } }

/-- R403 step 6: the prepared batch becomes final, in the role it was prepared for, and its maps are written. The batch of a replay job may be
empty (R500). -/
def State.finalTurn (s : State) (team : Nat) : State :=
  let t := s.team team
  let live := t.prepared.filter (fun e => s.entryLive team e)
  let s1 := s.dropUnread (live.map s.freshEntry)
  let es := (live.filter (fun e => s1.entryLive team e)).map s1.freshEntry
  let s2 := es.foldl (fun s e => if e.ekind = 0 then s.updSlot e.slot (fun x => { x with tentative := x.committed + x.d + 1 }) else s) s1
  let s3 := s2.updTeam team (fun t =>
    { t with batch := es, prepared := [], gone := [], role := t.prepRole, step := if es.isEmpty && t.savedTurn.isNone then 0 else 7 })
  let s4 := { s3 with plt := { s3.plt with turns := upd {} s3.plt.turns team (fun p => { p with prepared := [] }) } }
  if es.isEmpty then s4 else (s4.openTurn team (es.map Entry.slot)).writeMaps team s4.firstRank

/-- Bring a team that has no turn to its next one: admission, batch, PREPARE, publish, maps (R398, R403). -/
def State.nextTurn (s : State) (team : Nat) : State :=
  ((s.admitAll.formTurn team).publishTurn team).finalTurn team

/-- The team's turn has ended: the slots that waited for it are freed (R370). -/
def State.closeTurn (s : State) (team : Nat) : State :=
  let s1 := { s with plt := { s.plt with turns := upd {} s.plt.turns team (fun p =>
    { p with running := [], ended := p.epoch }) } }
  s1.reclaim team

/-- The batch that waits for its turn, without the sequences that have left it since the boundary: no map names a lost plate (R348, R366).
With none left, the next turn is formed. -/
def State.heldTurn (s : State) (team : Nat) : State :=
  let es := (s.team team).batch.filter (fun e => s.entryHeld (s.team team) e)
  let s1 := s.updTeam team (fun t => { t with batch := es })
  if (s.team team).batch.isEmpty then s.nextTurn team
  else if es.isEmpty then (s1.closeTurn team).nextTurn team
  else (s1.openTurn team (es.map Entry.slot)).writeMaps team s1.firstRank

/-! ## Starting a turn (R122, R135, R141, R221, R239, R249) -/

/-- Entry bundle of the role of a team's turn (R141). -/
def Team.entry (t : Team) : Nat :=
  if t.role = 0 then t.image.entryPrefill else if t.role = 1 then t.image.entryDecode else t.image.entryRefine

/-- Seed of a sequence of a batch. -/
def State.seedOf (s : State) (n : Nat) : Nat :=
  if 8192 ≤ n then ((s.det.jobSeqs[n - 8192]?).map JobSeq.seed).getD 0 else ((s.slot? n).map Slot.seed).getD 0

/-- The team seed: the XOR of the seeds of the turn's sequences (R122); on a member of a slice the one that the lead sent (R404). -/
def State.teamSeedOf (s : State) (t : Team) : Nat :=
  t.leadSeed.getD (t.batch.foldl (fun a e => Nat.xor a (s.seedOf e.slot)) 0)

/-- R135, R166, R239: a core at the start of a turn. What a program moved and counted stands; requests that wait at the vault port
go on. Where the program runs again within the turn (R477), what its first run counted is still to commit with the turn (R64, R108), and
its sections stay in the turn's timing log (R495).
CORE_STATUS.PC shows the entry bundle until the first bundle issues: DESIGN CHOICE, log entry 128. -/
def Core.startTurn (c : Core) (again : Bool) (entry seed turn rank : Nat) : Core :=
  { ({} : Core) with
    exec := .issuing, inTurn := true, jumped := true, pc := entry, nextPc := entry
    teamSeed := seed, turn := turn, rank := rank, seedLoaded := true
    eccNext := c.eccNext, stall := c.stall, lateCnt := c.lateCnt, ovlA := c.ovlA, ovlB := c.ovlB, faultCnt := c.faultCnt
    plnVecCnt := c.plnVecCnt, plnBusyCnt := c.plnBusyCnt, plnXcpCnt := c.plnXcpCnt, drawCnt := c.drawCnt
    vltLineCnt := c.vltLineCnt, vltCe := c.vltCe, vltUe := c.vltUe, meshErrCnt := c.meshErrCnt, meshBeatCnt := c.meshBeatCnt
    fmtPend := if again then c.fmtPend else {}, accPend := if again then c.accPend else {}
    sectLog := if again then c.sectLog else []
    fmt := c.fmt, fmtSticky := c.fmtSticky, accCnt := c.accCnt, resTop := c.resTop, pwkFmt := c.pwkFmt
    walkStatus := c.walkStatus, pwkVltCnt := c.pwkVltCnt, pwkStrCnt := c.pwkStrCnt, pwkTokCnt := c.pwkTokCnt
    vq := (c.vq.filter (fun r => match r.kind with
      | .tile _ => false
      | _ => true)).map (fun r => { r with earliest := 0 }) }

/-- A core that starts a turn with an SRAM error found since the last check has its first fault from the start (R510). -/
def Core.raiseEcc (c : Core) : Core :=
  match c.eccNext with
  | none => c
  | some p => { ({ c with eccNext := none }).record .sramEcc p.1 p.2 0 0 false with exec := .halted }

/-- Remove what is left on the mesh of a team's last turn. -/
def Mesh.clear (m : Mesh) (ns : List Nat) : Mesh :=
  let flows := (m.beats.filter (fun b => ns.contains b.src || ns.contains b.dst)).map Beat.flow
  { m with beats := m.beats.filter (fun b => !(ns.contains b.src || ns.contains b.dst))
           links := m.links.filter (fun l => !(flows.contains l.flow || ns.contains l.node))
           reds := m.reds.filter (fun r => !ns.contains r.core) }

/-- The cores of a team begin a turn. `placed` is what Dealer firmware places in data memory for it, seeds and inputs, where the
image names it: (team rank, address, bytes). -/
def State.startCores (s : State) (team : Nat) (again : Bool) (placed : List (Nat × Nat × List Byte)) : State :=
  let t := s.team team
  let seed := s.teamSeedOf t
  let s0 := { s with mesh := s.mesh.clear t.cores, windows := s.windows.filter (fun w => !t.cores.contains w.1) }
  let s1 := if t.reloadBanks then t.cores.foldl (fun s n => s.fillBanks t n) s0 else s0
  let s2 := t.cores.foldl (fun s n =>
    let c := ((s.core n).startTurn again t.entry seed t.turn (t.rankOf n)).raiseEcc
    (s.setCell n { cur := c, before := c }).updSite (s.siteOf n) (fun x => { x with bgFree := 0, bgWrote := [], scrubAt := none })) s1.finishCopies
  placed.foldl (fun s p =>
    { s with mem := s.mem.write (dmAddr (coreAt t (p.1 % max t.width 1) (p.1 / max t.width 1)) p.2.1) p.2.2 }) s2

/-! ## The turn of a slice's lead (R404, R487) -/

/-- Ranks whose results the lead needs: every other live rank that no one carries. -/
def State.votingRanks (s : State) : List Nat :=
  if s.sliceSt ≠ 1 && s.sliceSt ≠ 2 then []
  else (List.range s.slcSize).filter (fun r => r != s.slcRankNo && s.rankLive r)

/-- What a member fills its slot and its OPEN record with, where an entry is the first of its request. -/
def State.leadReq (s : State) (e : Entry) : Option LeadReq :=
  (s.entrySlot e).bind (fun x =>
    if (e.ekind = 1 && e.pos = 0) || (e.ekind = 3 && x.generated = 0) then
      some ⟨e.slot, x.refine, x.d, x.tenant, x.model, x.delta, x.seed, x.temp, x.topK, x.topP, x.maxTokens, x.arrival, x.rpool, x.tpool,
        if x.refine then [] else s.histTokens x 0 x.promptLen⟩
    else none)

/-- The lead sends the batch, with T and the inputs, to every other live member (log entry 175). -/
def State.sendTurn (s : State) (team : Nat) : State :=
  let t := s.team team
  if t.savedTurn.isSome || !s.isLead then s
  else
    let l : LeadTurn := ⟨t.turn, BitVec.ofNat 2 t.role, BitVec.ofNat 128 (s.teamSeedOf t),
      t.batch.map (fun e => ⟨e.slot, e.ekind, e.pos, e.inputs, e.arr⟩), t.batch.filterMap s.leadReq⟩
    s.votingRanks.foldl (fun s r => s.emit (.turn (s.rankDev r) team l)) s

/-- A member's slot of the request that a slot of the lead holds. -/
def State.memberSlot (s : State) (slot arr : Nat) : Option Nat :=
  (s.dlr.slots.find? (fun x => x.2.lead == s.rankDev 0 && x.2.leadSlot == slot && x.2.arrival == arr)).map Prod.fst

/-- The slot that a member fills for a request of its lead. What its lead does not send reads as zero: log entry 175. -/
def State.slotOfLead (s : State) (team : Nat) (r : LeadReq) : Slot :=
  { st := if r.refine then .refine else .prefill, cls := 0, waitf := false, refine := r.refine, dpol := 0, d := r.d, tenant := r.tenant
    team := some team, fn := 0, tag := 0, model := r.model, delta := r.delta, seed := r.seed, temp := r.temp, topK := r.topK
    topP := r.topP, deadline := 0, maxTokens := r.maxTokens, promptLen := r.prompt.length, promptAddr := 0, arrival := r.arrival
    rpool := r.rpool, tpool := r.tpool, sliceRank := s.sliceRank, sliceSize := s.sliceSize + 1, lead := s.rankDev 0, leadSlot := r.slot
    descIdx := 0, prompted := true }

/-- Add to a pool's reservation where it has room. -/
def State.reserveUp (s : State) (pool seq n : Nat) : State := (s.reserve pool seq n).getD s

/-- R487: a member fills its lowest free slot for a request of its lead, with its chain and what it reserved for it (R392), and writes the OPEN
record. -/
def State.openMember (s : State) (team : Nat) (r : LeadReq) : State :=
  if (s.memberSlot r.slot r.arrival).isSome then s
  else
    match s.freeSlotNo with
    | none => s
    | some n =>
      let x := s.slotOfLead team r
      let s1 := { s with dlr := { s.dlr with slots := put s.dlr.slots n x } }
      let t := s.team team
      let js := s.shareIndices t.plan t.share x.lres
      let sh := chainShape t.plan x.lres
      let rs := s.slotDemand r.rpool t.plan t.share js
      let ts := if r.tpool = r.rpool then 0 else s.slotDemand r.tpool t.plan t.share (s.shareIndices t.plan t.share x.promptLen)
      let s2 := if r.refine then s1
        else ((((s1.createChain n
          { tenant := x.tenant, log2n := t.plan.log2n, kvw := t.plan.kvw, depth := sh.2.2, jb := sh.1, lhb := sh.2.1
            hpool := r.tpool, lhs := t.plan.lhs }).reserveUp r.rpool n rs).reserveUp r.tpool n ts).updSlot n (fun x =>
              { x with rslots := rs, tslots := ts, rnodes := chainNodes t.plan x.lres js }))
      s2.writeOpen x (r.prompt.flatMap (leBytes 4))

/-- What an entry of the lead says of its sequence: where it stands, and the team that runs it. -/
def State.noteEntry (s : State) (team : Nat) (e : Entry) : State :=
  (s.updSlot e.slot (fun x => { x with
    team := some team
    st := if e.ekind = 0 then .decode else if e.ekind = 3 then .refine else .prefill
    committed := if e.ekind = 0 then e.pos else x.committed
    next := if e.ekind = 1 || e.ekind = 2 then e.pos else x.next })).bindSeq e.slot (some team)

/-- A member of a slice takes the turn that its lead sent (R404): T, role, seed and batch; it fills the slots of requests that are new to it,
and prepares the batch. None where its proof ring has no room for their OPEN records (R491), or PREPARE is refused. -/
def State.takeLead (s : State) (team : Nat) (l : LeadTurn) : Option State :=
  if !l.opens.isEmpty && !s.ringTakes proofRing (l.opens.map (fun _ => 64)) then none
  else
    let s0 := l.opens.foldl (fun s r => s.openMember team r) s
    let es := l.seqs.filterMap (fun q => (s0.memberSlot q.slot q.arr).map (fun n => (⟨n, q.ekind, q.pos, q.inputs, q.arr⟩ : Entry)))
    let s1 := (es.foldl (fun s e => s.noteEntry team e) s0).updTeam team (fun t =>
      { t with batch := [], turn := l.turn, role := l.role.toNat, prepRole := l.role.toNat, leadSeed := some l.seed.toNat, gone := [] })
    match s1.pltPrepare team (Config.stagingPool team) l.turn (s1.highs team es) with
    | (s2, .ok) =>
      let s3 := (s2.updTeam team (fun t => { t with batch := es })).publishTurn team
      let s4 := { s3 with plt := { s3.plt with turns := upd {} s3.plt.turns team (fun p => { p with prepared := [] }) } }
      some ((s4.openTurn team (es.map Entry.slot)).writeMaps team s4.firstRank)
    | _ => none

/-! ## Step 7: the turn starts (R141, R403) -/

/-- May a turn of the team start at this FREF boundary? -/
def State.mayStart (s : State) (team : Nat) : Bool :=
  let t := s.team team
  t.loaded && !t.stopped && t.loading.isNone && !t.reloading && !t.resetWait && !t.resetReq && !s.repairDue t &&
    decide (t.holdUntil ≤ s.fref) && t.clusters.all (fun c => (s.cluster c).dom == .run) && !s.clk.outOfService &&
    s.fld Reg.pwrStatus 0 2 == 0 &&
    t.results.all (fun r => r.2.1 || !r.2.2.repair || t.ready.contains r.1 || !s.rankLive r.1)

/-- Has the team a turn to start: a batch, a job's empty one among them, whose new plates are zeroed (R360)? -/
def State.turnReady (s : State) (team : Nat) : Bool :=
  let t := s.team team
  (!t.batch.isEmpty || (s.jobRuns && s.jobTeam == team && t.savedTurn.isSome)) && !s.seqsZeroing (t.batch.map Entry.slot)

/-- R403 step 7, R141: a turn of a team starts in turn frame 0. -/
def State.beginTurn (s : State) (team : Nat) (placed : List (Nat × Nat × List Byte)) : State :=
  let s1 := (s.sendTurn team).startCores team false placed
  let s2 := if s1.fld (Reg.dlrTeamRst team) 0 1 = 1 then s1.setFld (Reg.dlrTeamRst team) 0 1 0 else s1
  let s3 := { s2 with plt := { s2.plt with turns := upd {} s2.plt.turns team (fun p => { p with finished := none }) } }
  (s3.updTeam team (fun t =>
    { t with running := true, step := 0, startFrame := s.fref, pltVer := s.reg Reg.pltVersion, reloadBanks := false
             watchdog := none, dynFault := t.dynNext, dynNext := none
             plateLost := t.plateLost.filter (fun n => t.batch.any (fun e => e.slot == n))
             cut := false, results := [], ready := [], readyWait := [], marked := false, decision := none
             outputs := [], sources := [], runRank := s.firstRank, ran := []
             runs := if t.savedTurn.isSome then [] else s.ranksRun.drop 1 })).formTurn team

end Sys2Proof.Machine
end

