-- ==== Sys2Proof/Machine/Turns.lean ====
section
/-! DEFINITION. Turns: the steps of a turn boundary, the fault check, discard and replay, the vote of a slice, roles (R143, R364 to R371,
R400 to R417, R507 to R515, R601). -/

namespace Sys2Proof.Machine

/-! ## The fault check (R507, R508) -/

/-- Is a token word poisoned (R508)? -/
def State.badToken (_ : State) (model w : Nat) : Bool := w == 0x80000000 || decide (Config.vocab model ≤ w)

/-- The entries of a batch with a poisoned output word. -/
def State.badOutputs (s : State) (t : Team) : List Nat :=
  (t.batch.filter (fun e =>
    let o := outOf t.outputs e.slot
    o.tokens.any (s.badToken t.model) || o.drafts.any (fun d => s.badToken t.model d.1))).map Entry.slot

/-- Class of a DMA failure (Table FLT-1). -/
def dmaClass (code : Nat) : Nat :=
  if code = statusCode .eRange || code = statusCode .ePerm then 1 else if code = statusCode .eMedia then 3 else 2

/-- First failed descriptor of a core, lowest queue. -/
def Core.dmaFail (c : Core) : Option (Nat × Nat × Nat) :=
  ((List.range 8).filterMap (fun q => (((c.dq[q]?).getD {}).err).map (fun e => (q, e.1, e.2)))).head?

/-- Lines a core read bad, in its team's load area or not. -/
def Core.badIn (c : Core) (t : Team) (inside : Bool) : Bool := (c.ueLines ++ c.poisonTile).any (fun l => t.loadLine l == inside)

/-- A record for the first core of a list that meets a condition. -/
def faultAt (ns : List Nat) (p : Nat → Bool) (mk : Nat → FaultInfo) : List FaultInfo :=
  match ns.find? p with
  | some n => [mk n]
  | none => []

/-- What an attempt's fault check finds, one record per source, cores by ascending logical id (R272, R507, R532). -/
def State.turnFaults (s : State) (team : Nat) : List FaultInfo :=
  let t := s.team team
  let ns := t.cores
  let vault := fun n => (s.core n).badIn t true || (s.core n).badIn t false
  let base : FaultInfo := { src := 0, team := some team }
  faultAt ns (fun n => (s.core n).fault.code != 0 && (!vault n || (s.core n).fault.code == CoreFault.sramEcc.code)) (fun n =>
      let f := (s.core n).fault
      { base with src := srcCore, code := f.code, cls := f.cls, loc := n, aux := f.bundle % 1024 + f.slot * 2 ^ 10 }) ++
    faultAt ns (fun n => (s.core n).badIn t false) (fun n => { base with src := srcVaultUe, cls := 3, loc := n }) ++
    faultAt ns (fun n => (s.core n).badIn t true) (fun n => { base with src := srcWeightMedia, cls := 3, loc := n }) ++
    faultAt ns (fun n => (s.core n).dmaFail.isSome) (fun n =>
      let e := (s.core n).dmaFail.getD (0, 0, 0)
      { base with src := srcDma, code := e.2.1, cls := dmaClass e.2.1, loc := n, aux := e.1 + e.2.2 % 2 ^ 13 * 8 }) ++
    faultAt ns (fun n => (s.core n).meshErr) (fun n => { base with src := srcMesh, cls := 1, loc := n }) ++
    ((s.badOutputs t).take 1).map (fun n => { base with src := srcOutPoison, cls := 1, loc := n }) ++
    t.plateLost.toList.map (fun n => { base with src := srcPlateLost, cls := 3, loc := n }) ++
    t.dynFault.toList.map (fun c => { base with src := srcDynNet, cls := 3, loc := c }) ++
    t.watchdog.toList.map (fun n => { base with src := srcTurnTimeout, cls := 2, loc := n }) ++
    ((t.results.filter (fun r => !r.2.1)).take 1).map (fun r => { base with src := srcSliceVote, cls := 2, loc := r.1 })

/-! ## Step 4: what a commit delivers (R409 to R416) -/

/-- Does an entry sample: it is a DECODE entry, or holds the last tokens of its prompt? Other chunks and REFINE steps put out nothing
(R416, R488). -/
def State.samples (s : State) (e : Entry) : Bool :=
  let plen := if 8192 ≤ e.slot then (s.det.jobSeqs[e.slot - 8192]?).elim 0 JobSeq.plen else (s.entrySlot e).elim 0 Slot.promptLen
  e.ekind == 0 || (e.ekind == 1 && decide (plen ≤ e.pos + e.inputs.length))

/-- The output words of a batch: those of entries that sample. -/
def State.sampled (s : State) (batch : List Entry) (outs : List SeqOut) : List SeqOut :=
  outs.filter (fun o => batch.any (fun e => e.slot == o.slot && s.samples e))

/-- The tokens a commit delivers of those it committed, and whether the request ends there (R411). -/
def delivered (ends toks : List Nat) (left : Nat) : List Nat × Bool :=
  let upTo := match toks.findIdx? (fun t => ends.contains t) with
    | some i => toks.take (i + 1)
    | none => toks
  (upTo.take left, decide (upTo.length < toks.length) || toks.any (fun t => ends.contains t) || decide (left ≤ toks.length))

/-- The committed length after an entry (Table DLR-7). -/
def Entry.after (e : Entry) (o : SeqOut) : Nat :=
  if e.ekind = 0 then e.pos + o.tokens.length else if e.ekind = 3 then 0 else e.pos + e.inputs.length

/-- Write tokens and drafts of a commit into a request's history (R387). -/
def State.writeHist (s : State) (x : Slot) (p : Nat) (o : SeqOut) : State :=
  if x.histAddr = 0 then s
  else
    let s1 := if o.tokens.isEmpty then s else s.writeGddr (x.histAddr + 64 + 4 * p) (o.tokens.flatMap (leBytes 4))
    if o.drafts.isEmpty then s1
    else s1.writeGddr x.histAddr ((o.drafts.take 7).flatMap (fun d => leBytes 4 d.1 ++ leBytes 4 d.2))

/-- The request's state after an entry commits, before delivery. Where the sequence has lost a plate since its batch was final (`gone`), its
recompute begins where R416 says, whatever the chunk has covered. -/
def State.advance (s : State) (gone : Bool) (e : Entry) (o : SeqOut) (x : Slot) : State :=
  let toks := o.tokens
  match e.ekind with
  | 0 => (s.writeHist x (e.pos + 1) o).updSlot e.slot (fun x =>
      { x with committed := e.after o, tentative := e.after o, generated := x.generated + toks.length
               ndrafts := min 7 o.drafts.length })
  | 3 => s.updSlot e.slot (fun x => { x with generated := x.generated + 1 })
  | _ =>
    let c := e.after o
    let next := x.next == e.pos && !gone
    let s1 := s.updSlot e.slot (fun x =>
      { x with next := if next then c else x.next, committed := max x.committed c, tentative := max x.committed c })
    if c < x.target then s1
    else
      let s2 := if x.generated ≠ 0 then s1
        else (s1.writeHist x c o).updSlot e.slot (fun x => { x with generated := toks.length, ndrafts := min 7 o.drafts.length })
      if next then s2.toDecode e.slot else s2

/-- R410 to R415: step 4 for one sequence that its batch still holds. A member of a slice delivers nothing. -/
def State.deliverEntry (s : State) (t : Team) (ends : List Nat) (outs : List SeqOut) (e : Entry) : State :=
  match s.entrySlot e with
  | none => s
  | some x =>
    let o := outOf outs e.slot
    let s0 := s.advance (t.gone.contains e.slot) e o x
    let late := x.deadline != 0 && decide (x.deadline < s.rackTime)
    let out := if e.ekind = 3 then ([], decide (x.maxTokens ≤ x.generated + 1))
      else if o.tokens.isEmpty then ([], false) else delivered ends o.tokens (x.maxTokens - x.generated)
    let stop := late && x.dpol == 2
    let lateFlag := x.late || (late && x.dpol == 1)
    if !s.isLead then s0
    else
      let s1 := s0.updSlot e.slot (fun x => { x with late := lateFlag })
      let s2 := if out.1.isEmpty || x.cancel || stop then s1
        else (let s3 := s1.deliverTokens e.slot (if e.ekind = 0 then e.pos + 1 else e.after o) lateFlag out.1
              if lateFlag then s3.bump Reg.dlrLatedlvCnt 1 else s3)
      if out.2 && x.cancel then s2.endReq e.slot .eCancelled
      else if stop then s2.endReq e.slot .eDeadline
      else if out.2 then s2.endReq e.slot .ok
      else s2

/-! ## Roles (R407) -/

/-- Teams of a model that the role policy counts: outside the REFINE role and outside a replay job. -/
def State.policyTeams (s : State) (m : Nat) : List (Nat × Team) :=
  (s.workTeams m).filter (fun t => !(s.jobRuns && s.jobTeam == t.1))

/-- Ask for a role for a team's next turns. -/
def State.askRole (s : State) (team r : Nat) : State := s.updTeam team (fun t => { t with nextRole := some r })

/-- R407 for a model with one team: its roles follow the work that waits. -/
def State.soleRole (s : State) (team : Nat) (t : Team) : State :=
  let chunks := decide (0 < s.waitingTokens t.model none)
  let dec := s.dlr.slots.any (fun x => x.2.st == .decode && x.2.team == some team)
  if chunks && dec then s.askRole team (if t.prepRole = 0 then 1 else 0)
  else if chunks then s.askRole team 0
  else if dec then s.askRole team 1
  else s

/-- The DECODE team with the fewest bound sequences, ties to the lower id. -/
def State.fewestBound (s : State) : List (Nat × Team) → Option Nat
  | [] => none
  | t :: ts =>
    match s.fewestBound ts with
    | none => some t.1
    | some u => if (s.bound t.1).length ≤ (s.bound u).length then some t.1 else some u

/-- R407: the role policy at a boundary of a team. -/
def State.rolePolicy (s : State) (team : Nat) : State :=
  let t := s.team team
  let ts := s.policyTeams t.model
  if s.fld Reg.dlrRoleCfg 0 1 = 0 || !ts.any (fun u => u.1 == team) then s
  else if ts.length ≤ 1 then s.soleRole team t
  else if look 0 s.dlr.roleTicks t.model = s.reg Reg.glbTicks + 1 then s
  else
    let s1 := { s with dlr := { s.dlr with roleTicks := put s.dlr.roleTicks t.model (s.reg Reg.glbTicks + 1) } }
    let pf := ts.filter (fun u => u.2.role == 0)
    let de := ts.filter (fun u => u.2.role == 1)
    let cap := t.pfTok * max pf.length 1
    let b := s.waitingTokens t.model none
    if s.fld Reg.dlrRoleCfg 4 4 * cap < b && decide (s.fld Reg.dlrRoleCfg 18 6 < de.length) then
      (match s.fewestBound de with
      | some u => s1.askRole u 0
      | none => s1)
    else if b < s.fld Reg.dlrRoleCfg 8 4 * cap && decide (s.fld Reg.dlrRoleCfg 12 6 < pf.length) then
      (match pf.getLast? with
      | some u => s1.askRole u.1 1
      | none => s1)
    else s1

/-! ## The boundary (R403, Table DLR-6) -/

/-- The cores of a team between turns: their flags as `f` leaves them, no seed loaded (R64, Table ERR-4). What DICE_TURN, SEEDS and
DICE_SEED_MAP read between turns the spec does not say (R130): they keep the last turn's values. DESIGN CHOICE, log entry 133. -/
def State.closeCores (s : State) (t : Team) (f : Core → Core) : State :=
  t.cores.foldl (fun s n => s.updCore n (fun c => { f c with exec := .idle, inTurn := false, seedLoaded := false })) s

/-- R385, Table DLR-2: a team is unloaded: its clusters are free, its cores hold no plate format (R380). -/
def State.unloadTeam (s : State) (team : Nat) : State :=
  let t := s.team team
  let s0 := t.cores.foldl (fun s n => s.updCore n (fun c => { c with pwkFmt := 0#32 }))
    { s with windows := s.windows.filter (fun w => !t.cores.contains w.1) }
  let s1 := (s0.setClusters t.clusters none).updTeam team (fun _ => {})
  let s2 := if s1.fld (Reg.dlrTeamRst team) 0 1 = 1 then s1.setFld (Reg.dlrTeamRst team) 0 1 0 else s1
  match t.unloading with
  | some (fn, tag, idx) => s2.cmdDone fn tag idx .ok 0
  | none => s2

/-- R384: the unload of a team that waits is carried out once no sequence is bound to the team and its seats have gone to other teams; none
while a seat finds no other (log entry 176). -/
def State.tryUnload (s : State) (team : Nat) : Option State :=
  if (s.team team).unloading.isNone || !(s.bound team).isEmpty then none
  else (s.rebindAll team (s.attached team)).map (fun s => s.unloadTeam team)

/-- R601: throttling holds the team for its idle turns. -/
def State.idleTurns (s : State) (team : Nat) : State :=
  let t := s.team team
  let n := t.idle / 16
  if n = 0 then s
  else (s.updTeam team (fun t =>
    { t with idle := t.idle % 16
             holdUntil := s.fref + n * (t.image.framesMax + s.fld Reg.dlrAdmCfg 0 8) })).bump Reg.pwrIdleCnt n

/-! ## Firmware switchover (R421, R611) -/

/-- R611: the Umpire rewrites the older copy of the boot record. -/
def State.writeBoot (s : State) (ump dlr : Nat) : State :=
  { s with mgt := { s.mgt with boot :=
      match s.mgt.boot with
      | [a, b] => if a.1 ≤ b.1 then [(b.1 + 1, ump, dlr), b] else [a, (a.1 + 1, ump, dlr)]
      | x => x } }

/-- Slot of the image a component runs. -/
def State.runSlot (s : State) (comp : Nat) : Nat := look 0 s.mgt.running comp

/-- Table DLR-13 during a switchover of a pair: while its odd core restarts it is SWITCHING and the even one carries both duties, then the other
way round, then both are HEALTHY again (R421). A pair with a FAILED core keeps its states. -/
def State.switchMark (s : State) (p even odd : Nat) : State :=
  if s.fld (Reg.dlrPairState p) 0 2 = 2 || s.fld (Reg.dlrPairState p) 2 2 = 2 then s
  else (s.setFld (Reg.dlrPairState p) 0 2 even).setFld (Reg.dlrPairState p) 2 2 odd

/-- Both cores of a pair have switched; the next pair follows, or the switchover ends. The odd core of a pair restarts first, the even one at
the first boundary of each of the pair's teams (R421). That the odd one has restarted when the first of them comes is the model's choice (log
entry 177). -/
def switchPairs (slot : Nat) : Nat → Nat → State → State
  | 0, _, s =>
    { s with dlr := { s.dlr with switching := none }, mgt := { s.mgt with running := put s.mgt.running 2 slot } }.writeBoot
      (s.runSlot 1) slot
  | fuel + 1, p, s =>
    let s1 := s.setFld (Reg.dlrPairState p) 5 1 slot
    let ts := (s1.teams.filter (fun t => t.2.loaded && t.1 % 8 == p)).map Prod.fst
    if ts.isEmpty then switchPairs slot fuel (p + 1) (s1.setFld (Reg.dlrPairState p) 4 1 slot)
    else { (s1.switchMark p 1 3) with dlr := { s1.dlr with switching := some (slot, p, ts) } }

/-- A team of the pair that switches reaches a boundary, or is gone: the even core restarts for it. -/
def State.switchBoundary (s : State) (team : Nat) : State :=
  match s.dlr.switching with
  | none => s
  | some (slot, p, ts) =>
    let rest := ts.filter (fun t => t != team)
    if rest.isEmpty && !ts.isEmpty then switchPairs slot (7 - p) (p + 1) ((s.switchMark p 0 0).setFld (Reg.dlrPairState p) 4 1 slot)
    else if rest.length = ts.length then s
    else { (s.switchMark p 3 1) with dlr := { s.dlr with switching := some (slot, p, rest) } }

/-! ## The boundary (R403, Table DLR-6) -/

/-- What every boundary does between step 3 and the next turn: the switchover sees it, chains are published, the slots that waited for the
turn are freed, plates leave their transit pools, the role policy looks (R364, R370, R393, R407, R421). -/
def State.gap (s : State) (team : Nat) : State :=
  let s1 := ((s.switchBoundary team).publishTurn team).closeTurn team
  ((s1.dlr.slots.map Prod.fst).foldl State.moveTransit s1).rolePolicy team

/-- Steps 5 to 7 after a commit: publish, roles, admission, the next batch, its maps, idle turns; or the team is unloaded, which is a release
(R398). -/
def State.boundary (s : State) (team : Nat) : State :=
  let s1 := s.gap team
  match s1.tryUnload team with
  | some s2 => s2.admitAll
  | none => (s1.nextTurn team).idleTurns team

/-- Steps 2 to 4 of a turn that passed: proof, plates, flags, delivery. Load-area lines that went bad unread are restored in the gap (R510,
R516). What the run of this device's own rank put out is delivered (R477). -/
def State.commitTurn (s : State) (team : Nat) : State :=
  let t := s.team team
  let job := t.savedTurn.isSome
  let outs := ((t.ran.find? (fun r => r.1 == s.sliceRank)).map (fun r => r.2.1)).getD t.outputs
  let held := t.batch.filter (fun e => decide (8192 ≤ e.slot) || (s.entrySlot e).isSome)
  let s1 := if job then s else s.writeTurn team t
  let s2 := (s1.pltCommit team t.turn t.attempt (held.map (fun e => (e.slot, e.after (outOf outs e.slot)))) t.promote).closeCores t
    Core.commitFlags
  let s3 := if job then s2.jobCommit team
    else
      t.batch.foldl (fun s e => s.deliverEntry t (((s.model? t.model).map Model.ends).getD []) outs e) (s2.bump Reg.dlrCommitCnt 1)
  let s4 := s3.updTeam team (fun t =>
    { t with running := false, batch := [], outputs := [], ran := [], promote := [], attempt := 0, missing := [], step := 0
             turn := if job then t.turn else t.turn + 1, idle := t.idle + s.fld Reg.pwrStatus 2 6 })
  (s4.restoreTeam team t.sources).boundary team

/-- Step 2: the proof is written, or the boundary waits for ring room, as it does while another boundary waits (R491). -/
def State.passTurn (s : State) (team : Nat) : State :=
  let t := s.team team
  if t.savedTurn.isSome || (s.det.holding.isEmpty && s.turnRoom team t) then s.commitTurn team
  else
    { ((s.updTeam team (fun t => { t with step := 2 })).bump Reg.detHoldCnt 1).setFld Reg.detStatus 1 1 1 with
      det := { s.det with holding := s.det.holding ++ [team] } }

/-- A boundary no longer waits for ring room. -/
def State.endHold (s : State) (team : Nat) : State :=
  let hs := s.det.holding.filter (fun m => m != team)
  { s with det := { s.det with holding := hs } }.setFld Reg.detStatus 1 1 (bit (!hs.isEmpty))

/-! ## Discard, repair, replay (R402, R446, R476, R511 to R515, R520) -/

/-- The sequences that the third failed attempt of a turn fails for this device's own faults (Table FLT-2). `noCopy`: no line that it read bad
could be restored, so R518 says which sequences its bad lines fail. -/
def State.affected (s : State) (t : Team) (fs : List FaultInfo) (noCopy : Bool) : List Nat :=
  let ns := t.batch.map Entry.slot
  if fs.all (fun f => f.src == srcSliceVote) then []
  else if fs.all (fun f => f.src == srcOutPoison || f.src == srcSliceVote) then s.badOutputs t
  else if noCopy && fs.all (fun f => f.src == srcOutPoison || f.src == srcWeightMedia || f.src == srcSliceVote) then []
  else ns.filter (fun n => (s.slot? n).isSome)

/-- Those that the members' results name (R513), each with whether it ends with E_MEDIA. -/
def Team.voted (t : Team) : List (Nat × Bool) :=
  (t.results.filter (fun r => !r.2.1)).flatMap (fun r => r.2.2.affected.map (fun x => (x.1.toNat, x.2)))

/-- R511 step 1, R512: the batch that the next attempt runs. -/
def State.keepLive (s : State) (team : Nat) : State :=
  s.updTeam team (fun t => { t with batch := t.batch.filter (fun e => s.entryHeld t e) })

/-- R511 step 3: cores that raised SRAM_ECC are filled again from the image. -/
def State.refillEcc (s : State) (t : Team) (ns : List Nat) : State :=
  ns.foldl (fun s n => (s.fillResident t n).fillBanks t n) s

/-- Cores of a team whose fault of the attempt was SRAM_ECC. -/
def State.eccCores (s : State) (t : Team) : List Nat := t.cores.filter (fun n => (s.core n).fault.code == CoreFault.sramEcc.code)

/-- The discard of step 3: plates, flags, counters; the turn no longer runs. -/
def State.discardTurn (s : State) (team : Nat) : State :=
  let t := s.team team
  (((s.pltDiscard team t.turn t.attempt).closeCores t Core.dropFlags).bump Reg.dlrDiscardCnt 1).updTeam team (fun t =>
    { t with running := false, reloadBanks := true, outputs := [], ran := [], promote := [], runs := [], step := if t.batch.isEmpty then 0 else 7 })

/-- The boundary of a discarded attempt: the repairs of R511 that follow from what it read, in their order, and what the next attempt starts
from. -/
def State.repairTurn (s : State) (team : Nat) (ecc : List Nat) (gs : List LineFrom) : State :=
  let s1 := ((s.keepLive team).otherLines team).restoreTeam team gs
  let s2 := ((s1.refillEcc (s1.team team) ecc).keepLive team).gap team
  if (s2.team team).batch.isEmpty then s2.updTeam team (fun t => { t with step := 0 }) else s2

/-- A replay job whose ABORT was written ends at this boundary (R499). -/
def State.abortJob (s : State) (team : Nat) : State :=
  if s.jobRuns && s.jobTeam == team && s.det.abort then s.endJob .eCancelled false else s

/-- A discard that does not count: a member was cut out (R476), or the team was reset (R446). -/
def State.discardUncounted (s : State) (team : Nat) : State :=
  (((s.discardTurn team).updTeam team (fun t => { t with cut := false, resetWait := true })).repairTurn team [] []).abortJob team

/-- A failed attempt: discarded, recorded, repaired, and replayed, or its sequences failed after the third (R511 to R514). On a slice the lead
fails the union of what its members name, and a member none. -/
def State.failTurn (s : State) (team : Nat) : State :=
  let t := s.team team
  let fs := s.turnFaults team
  let third := decide (2 ≤ t.attempt)
  let job := t.savedTurn.isSome
  let ecc := s.eccCores t
  let s1 := s.discardTurn team
  let r := s1.repairTurn team ecc t.sources
  let stops := (r.team team).stopped
  let live := fun (n : Nat) => (r.slot? n).any (fun x => x.st != .ending)
  let media := ((t.voted.filter Prod.snd).map Prod.fst).dedup.filter live
  let aff := if !third || job || stops || s.sliceMember then []
    else ((s.affected t fs (r.reg Reg.fltRestoreCnt == s1.reg Reg.fltRestoreCnt)) ++ t.voted.map Prod.fst).dedup.filter live
  let action := if stops then 5 else if !third then 1 else if aff.isEmpty then 0 else 4
  let recs := fs.map (fun f => { f with action := action, naff := aff.length, first := (aff.head?).getD 0xFFFF })
  let s2 := (recs.foldl State.logFault s1).repairTurn team ecc t.sources
  if stops then s2
  else if job && s2.det.abort then s2.abortJob team
  else if !third then ((s2.bump Reg.fltReplayCnt 1).updTeam team (fun t => { t with attempt := t.attempt + 1 })).sendReady team
  else if job then (s2.endJob .eFault false).updTeam team (fun t => { t with resetWait := true })
  else
    ((((s2.failSeqs (aff.filter media.contains) .eMedia).failSeqs (aff.filter (fun n => !media.contains n)) .eFault).keepLive team).updTeam team
      (fun t => { t with attempt := 0, resetWait := true, missing := [] })).sendReady team

/-! ## The vote of a slice (R404, R474, R515) -/

/-- Send a control message about a team to every other live member. -/
def State.tellMembers (s : State) (kind value : Nat) : State := s.others.foldl (fun s d => s.sendCtrl d kind value false) s

/-- The code of a decision in the lead's message. -/
def SliceVerdictCode : SliceVerdict → Nat
  | .discard => 0
  | .commit => 1
  | .uncounted => 2

/-- The decision of step 1; on the lead, every member is told. A turn that a lost member cuts short is discarded without counting, whatever
its check found (R476). The boundary of a discarded attempt examines the queue too (R398). -/
def State.concludeVote (s : State) (team : Nat) (v : SliceVerdict) : State :=
  let v' := if (s.team team).cut then SliceVerdict.uncounted else v
  let s1 := if s.votingRanks.isEmpty || !s.isLead || s.jobAlone team then s else s.tellMembers 4 (team + 64 * SliceVerdictCode v')
  match v' with
  | .commit => s1.passTurn team
  | .discard => (s1.failTurn team).admitAll
  | .uncounted => ((s1.discardUncounted team).applyCuts).admitAll

/-- R491: the host has made room; a boundary that waited goes on. One whose turn a lost member cuts short meanwhile discards it (R476). -/
def execTurnBoundaryResume (team : BitVec 6) (rrc : BitVec 64) (s : State) : Host.Outcome State Fault Refusal :=
  let n := team.toNat
  let s0 := s.setReg Reg.uhlRrc (max (s.reg Reg.uhlRrc) rrc.toNat)
  .next (if !s.det.holding.contains n then s
    else if (s.team n).cut then (s0.endHold n).concludeVote n .uncounted
    else if s.turnRoom n (s.team n) then (s0.endHold n).commitTurn n
    else s)

/-- Does the team's own check pass? -/
def State.ownPass (s : State) (team : Nat) : Bool := (s.turnFaults team).isEmpty

/-- On the lead: every result is in, so the vote is taken; a team reset discards the attempt instead (R616). -/
def State.takeVote (s : State) (team : Nat) : State :=
  let t := s.team team
  if t.step = 1 && !t.resetReq && s.votingRanks.all (fun r => t.results.any (fun x => x.1 == r)) then
    s.concludeVote team (if s.ownPass team && t.results.all (fun r => r.2.1) then .commit else .discard)
  else s

/-- Does a member need a repair before its next attempt (R515)? -/
def State.needsRepair (s : State) (team : Nat) : Bool :=
  !(s.badLoadLines (s.team team)).isEmpty || !(s.eccCores (s.team team)).isEmpty || s.repairDue (s.team team)

/-- What a member tells its lead beside a result: the lead's slots of the sequences that its faults fail, and of those that lost a plate here,
with the first position of the lowest lost plate (R416, R513; log entry 175). What a lost plate means for the sequence is its lead's to say. -/
def State.tellLead (s : State) (team : Nat) : State :=
  let lead := s.rankDev 0
  let t := s.team team
  let s1 := ((s.affected t (s.turnFaults team) false).filterMap s.slot?).foldl (fun s x => s.sendCtrl lead 8 x.leadSlot false) s
  (s1.dlr.slots.filter (fun x => x.2.st == .recover)).foldl (fun s x =>
    (s.sendCtrl lead 7 (x.2.leadSlot + 2 ^ 13 * (x.2.next / 16)) false).updSlot x.1 (fun x => { x with st := .prefill })) s1

/-- A member's result, with its REPAIR mark where it failed and needs one (R404, R515). -/
def State.sendResult (s : State) (team : Nat) : State :=
  let marked := !s.ownPass team && s.needsRepair team
  (((s.tellLead team).sendCtrl (s.rankDev 0) 3 (team + 64 * bit (s.ownPass team) + 128 * bit marked) true)).updTeam team (fun t =>
    { t with marked := marked })

/-- Step 1 of a turn: on the lead or without a slice the vote, on a member its result to the lead. A job whose records name no slice votes
alone (R502). -/
def State.checkTurn (s : State) (team : Nat) : State :=
  let s1 := s.updTeam team (fun t => { t with step := 1 })
  if (s.sliceSt ≠ 1 && s.sliceSt ≠ 2) || s.jobAlone team then s1.concludeVote team (if s1.ownPass team then .commit else .discard)
  else if s.isLead then s1.takeVote team
  else
    let s2 := s1.sendResult team
    match (s2.team team).decision with
    | some d => s2.concludeVote team d
    | none => s2

/-- Has the turn's work ended: every core at END or stopped, every posted descriptor complete (R143, R216)? -/
def State.workDone (s : State) (t : Team) : Bool :=
  t.cores.all (fun n =>
    let c := s.core n
    (c.exec == .atEnd || c.exec == .halted) && c.dq.toList.all (fun q => q.descs.all DmaDesc.done))

/-- R403, R507: the turn boundary, or the end of the run for one of the ranks that the device carries. `outs` are the output words of the
output area per sequence: (slot, tokens, drafts); `sources` where the golden engine finds bad load-area lines: (logical id, line, source);
`promote` the plates that Dealer firmware promotes. -/
def execTurnEnd (team : BitVec 6) (rrc : BitVec 64) (outs : List (Nat × List Nat × List (Nat × Nat)))
    (sources : List LineFrom) (promote : List (Nat × Nat)) (s : State) : Host.Outcome State Fault Refusal :=
  let n := team.toNat
  let t := s.team n
  if !t.running || t.step ≠ 0 || t.resetReq || !s.workDone t then .next s
  else
    let s0 := s.setReg Reg.uhlRrc (max (s.reg Reg.uhlRrc) rrc.toNat)
    let s1 := t.cores.foldl (fun s m => missedPartials m (settle m (2 ^ 64) s)) (passLinks t.cores (2 ^ 64) s0)
    let put := s1.sampled t.batch (outs.map (fun o => ⟨o.1, o.2.1, o.2.2⟩))
    let s2 := s1.updTeam n (fun t =>
      { t with outputs := put, sources := sources, promote := promote, ran := t.ran ++ [(t.runRank, put, s1.turnFrames t)] })
    .next (if !t.runs.isEmpty && !t.cut && s2.ownPass n then s2.updTeam n (fun t => { t with step := 7 })
      else s2.checkTurn n)

/-- R404: a slice member's check result reaches the lead, which takes note of what it says of sequences that lost a plate (R416) and of a REPAIR
(R515). -/
def execSliceResult (team : BitVec 6) (rank : BitVec 7) (passed : Bool) (mark : SliceMark) (s : State) : Host.Outcome State Fault Refusal :=
  let n := team.toNat
  let r := rank.toNat
  .next (if !s.isLead || !s.votingRanks.contains r || !(s.team n).running then s
    else
      let s1 := mark.lost.foldl (fun s x => s.recoverFrom x.1.toNat x.2) s
      (s1.updTeam n (fun t => { t with
        results := t.results.filter (fun x => x.1 != r) ++ [(r, passed, mark)]
        missing := t.missing.filter (fun m => m != r)
        readyWait := if mark.repair && !passed then put t.readyWait r (s.reg Reg.glbTicks) else t.readyWait })).takeVote n)

/-- R474: a rank is missing; the second time in a row it is cut out, and every live member is told. -/
def State.missRank (s : State) (team r : Nat) : State :=
  if (s.team team).missing.contains r then
    ((s.others.filter (fun d => d != s.rankDev r)).foldl (fun s d => s.sendCtrl d 6 r true) s).declareLost r
  else s.updTeam team (fun t => { t with missing := t.missing ++ [r] })

/-- R404, R474: the results that have not arrived within 500 µs count as failed, for every sequence of the batch (R513). -/
def execSliceVoteTimeout (team : BitVec 6) (s : State) : Host.Outcome State Fault Refusal :=
  let n := team.toNat
  let t := s.team n
  .next (if !s.isLead || !t.running || t.step ≠ 1 then s
    else
      let miss := s.votingRanks.filter (fun r => !t.results.any (fun x => x.1 == r))
      let all : SliceMark := ⟨false, (t.batch.filter (fun e => decide (e.slot < 8192))).map (fun e => (BitVec.ofNat 13 e.slot, false)), []⟩
      let s1 := s.updTeam n (fun t => { t with results := t.results ++ miss.map (fun r => (r, false, all)) })
      (miss.foldl (fun s r => s.missRank n r) s1).takeVote n)

/-- R404: the lead's decision reaches a member, which applies it whatever its own result. -/
def execSliceDecision (team : BitVec 6) (verdict : SliceVerdict) (s : State) : Host.Outcome State Fault Refusal :=
  let n := team.toNat
  let t := s.team n
  .next (if s.isLead || !t.running then s
    else if t.resetReq && verdict ≠ .commit then s
    else if t.step = 1 then s.concludeVote n verdict
    else s.updTeam n (fun t => { t with decision := some verdict }))

/-- R515: a member's repair is done. -/
def execSliceReady (team : BitVec 6) (rank : BitVec 7) (s : State) : Host.Outcome State Fault Refusal :=
  .next (if s.isLead then s.updTeam team.toNat (fun t => { t with ready := t.ready ++ [rank.toNat] }) else s)

/-- R515: a READY did not arrive within READY_LIMIT ms of its REPAIR; the member counts as missing. -/
def execSliceReadyTimeout (team : BitVec 6) (rank : BitVec 7) (s : State) : Host.Outcome State Fault Refusal :=
  let n := team.toNat
  let r := rank.toNat
  let due := (find? (s.team n).readyWait r).any (fun k => decide (k + s.fld Reg.fltPolicy 22 8 ≤ s.reg Reg.glbTicks))
  .next (if !s.isLead || !due || (s.team n).ready.contains r then s
    else (s.missRank n r).updTeam n (fun t => { t with ready := t.ready ++ [r] }))

/-- R446, R514: 2 × TX_TIMEOUT have passed since the discard; the team's reduction contexts are set to EMPTY. -/
def execContextResetWait (team : BitVec 6) (s : State) : Host.Outcome State Fault Refusal :=
  let n := team.toNat
  .next (if !(s.team n).resetWait then s else (s.clearContexts n).updTeam n (fun t => { t with resetWait := false }))

/-- Static mesh transfers to a team's stopped cores are dropped (R154). -/
def State.dropStopped (s : State) (t : Team) : State :=
  { s with mesh := { s.mesh with beats := s.mesh.beats.filter (fun b => !(t.cores.contains b.dst && (s.core b.dst).exec == .halted)) } }

/-- R509: the turn watchdog expires unless the turn's work ended in time: every core of the team stops
as for a core fault (R154). -/
def execTurnWatchdog (team : BitVec 6) (s : State) : Host.Outcome State Fault Refusal :=
  let n := team.toNat
  let t := s.team n
  let due := decide (t.startFrame + t.image.framesMax + 16 * s.fld Reg.fltPolicy 0 8 < s.fref)
  .next (if !t.running || t.step ≠ 0 || t.watchdog.isSome || s.workDone t || !due then s
    else
      let late := (t.cores.find? (fun m => (s.core m).exec != .atEnd)).getD 0
      ((t.cores.foldl (fun s m => s.updCore m (fun c =>
        { c with exec := if c.exec = .atEnd then .atEnd else .halted, wait := none })) s).dropStopped t).updTeam n (fun t =>
          { t with watchdog := some late }))

/-! ## A turn starts (R141, R249, R402, R403) -/

/-- Before a turn of a team at a FREF boundary: load-area lines found bad since the last one are restored (R510, R516), a member tells its lead
that its repairs are done (R515), a team that waits to be unloaded is unloaded where it now may be. -/
def State.beforeTurn (s : State) (team : Nat) (gs : List LineFrom) : State :=
  let s1 := (if (s.badLoadLines (s.team team)).isEmpty then s else s.restoreTeam team gs).sendReady team
  if !(s1.team team).batch.isEmpty then s1
  else
    match s1.tryUnload team with
    | some s2 => (s2.switchBoundary team).admitAll
    | none => s1

/-- R141, R249, R402, R403: a turn starts at an FREF boundary; on a slice, a member's turn is the lead's. A device that carries a lost
rank runs the program again within the turn, with that rank's maps (R477). -/
def execTurnStart (team : BitVec 6) (input : TurnInput) (s : State) : Host.Outcome State Fault Refusal :=
  let n := team.toNat
  let t := s.team n
  if t.running then
    .next (if t.step = 7 then
      let r := t.runs.headD s.sliceRank
      ((s.writeMaps n r).startCores n true input.placed).updTeam n (fun t =>
        { t with step := 0, startFrame := s.fref, runRank := r, runs := t.runs.drop 1 })
    else s)
  else if !s.mayStart n then .next s
  else
    let s0 := s.beforeTurn n input.sources
    let own := s.isLead || (s.jobRuns && s.jobTeam == n)
    let s1 :=
      if !s0.mayStart n then none
      else if own then
        (let s2 := s0.updTeam n (fun t => { t with leadSeed := none })
         some ((if (s2.team n).batch.isEmpty then s2.rolePolicy n else s2).heldTurn n))
      else input.lead.bind (s0.takeLead n)
    .next (match s1 with
      | none => s0
      | some s2 => if s2.turnReady n then s2.beginTurn n input.placed else s2)

end Sys2Proof.Machine
end

