-- ==== Sys2Proof/Machine/CoreEvents.lean ====
section
/-! DEFINITION. Events of cores, clusters and the dynamic network: SRAM errors, the stop of a faulted team, frame boundaries, cluster
domains, self-refresh, packet CRC (R154, R156, R248 to R250, R257, R266, R268, R521, R588). -/

namespace Sys2Proof.Machine

/-! ## Core SRAM errors and the stop of a team (R154, R156, R521) -/

/-- Slot and bundle that the record of an SRAM_ECC names (R156). -/
def eccPlace (c : Core) : EccSite → Nat × Nat
  | .instr pc slot => (slot.toNat, pc)
  | .fetch pc => (0, pc)
  | .outside => (3, c.pc)

/-- Ticks of the SRAM_ECC faults a site has recorded, within the window of R521. -/
def State.eccWindow (s : State) (site : Nat) : List (Nat × Nat) :=
  s.dlr.eccTicks.filter (fun e => e.1 == site && decide (s.reg Reg.glbTicks ≤ e.2 + s.fld Reg.fltPolicy 12 8 * 1000))

/-- R154, R156, R521: an uncorrectable SRAM error faults its core, and the site fails once it has recorded ECC_REPEAT of them within the
window. One found after the check of an attempt or between turns belongs to the team's next attempt or turn, whose first fault it is from the
start (R510; log entry 183). -/
def execSramEccError (core : BitVec 12) (found : EccSite) (s : State) : Host.Outcome State Fault Refusal :=
  let n := core.toNat
  let c := s.core n
  let p := eccPlace c found
  let site := s.siteOf n
  let later := (s.teamOfCore n).any (fun k => !(s.team k).running || (s.team k).step != 0)
  let s1 := s.updCore n (fun c =>
    if later then (if c.eccNext.isNone then { c with eccNext := some p } else { c with faultCnt := c.faultCnt + 1 })
    else
      { c.record .sramEcc p.1 p.2 (s.liveCycle n) 0 false with
        exec := if c.inTurn then .halted else c.exec, bundleOpen := false, wait := if c.inTurn then none else c.wait })
  .next (if (if later then c.eccNext.isSome else c.fault.code != 0) then s1
    else
      let s2 := { s1 with dlr := { s1.dlr with eccTicks := s1.dlr.eccTicks ++ [(site, s1.reg Reg.glbTicks)] } }
      if s.fld Reg.fltPolicy 8 4 ≤ (s2.eccWindow site).length then s2.declareFailed n false else s2)

/-- Stop every core of a team; transfers to stopped cores are dropped (R154). A core at its END stays there. -/
def State.stopCores (s : State) (t : Team) : State :=
  (t.cores.foldl (fun s n => s.updCore n (fun c =>
    { c with exec := if c.exec = .atEnd || !c.inTurn then c.exec else .halted, wait := none })) s).dropStopped t

/-- R154: every core of a team stops after one of them has signalled a fault. -/
def execTeamFaultStop (team : BitVec 6) (s : State) : Host.Outcome State Fault Refusal :=
  let t := s.team team.toNat
  .next (if t.running && t.cores.any (fun n => (s.core n).fault.code != 0) then s.stopCores t else s)

/-! ## Clock sources (R585, R588) -/

/-- Is a clock domain's source running: 0 its own PLL, 1 and 2 OSC_FAST, 3 XA, 4 XB, 5 OSC_SLOW? CORE needs PLL0 and PLL1. -/
def State.sourceUp (s : State) (d src : Nat) : Bool :=
  match src with
  | 0 => (match d with
    | 0 => s.fld Reg.clkStatus 0 2 == 3
    | 1 => s.fld Reg.clkStatus 2 1 == 1
    | 2 => s.fld Reg.clkStatus 3 1 == 1
    | _ => s.fld Reg.clkStatus 5 1 == 1)
  | 3 => s.fld Reg.clkStatus 7 1 == 1
  | 4 => s.fld Reg.clkStatus 8 1 == 1
  | 1 => true
  | 2 => true
  | 5 => true
  | _ => false

/-- Does FREF count: the CORE domain has been started, its source runs and it is not switching (R588, R590, R612)? -/
def State.frefRuns (s : State) : Bool :=
  s.clk.coreOn && s.sourceUp 0 (s.fld (Reg.clkDomSel 0) 0 3) && s.fld Reg.clkStatus 18 1 == 0 && !s.clk.outOfService

/-! ## Frame boundaries (R248, R249, R266) -/

/-- Rows of a vault's rotation (R266). -/
def vaultRows : Nat := 33024

/-- What a FREF boundary does to a cluster: a waiting stop or wake takes effect, and the vaults of a cluster that is awake refresh 64
rows. The refresh follows the state the boundary gives: self-refresh is entered and left at it (R268). A cluster that a stop turns OFF
after a team was placed on it is woken again, since it must run before the team's load completes (R250). -/
def Cluster.frame (c : Cluster) (fref : Nat) : Cluster :=
  let d := match c.dom with
    | .off => if c.wakeReq then { c with dom := .waking, wakeReq := false, since := fref } else { c with stopReq := false }
    | .waking => c
    | .run => if c.stopReq then { c with dom := .off, stopReq := false, wakeReq := c.team.isSome } else c
  let d := if d.dom = c.dom then d else d.shown
  if d.dom = .off then d else { d with refreshRow := (d.refreshRow + 64) % vaultRows }

/-- The pattern of Table VLT-4 that suspends the refresh of its site; the rows it leaves out are counted (log entry 140). -/
def retention : Nat := 2

/-- R249: a frame passes: FREF counts it, the CORE domain has run 2,048 cycles. -/
def execFrameBoundary (s : State) : Host.Outcome State Fault Refusal :=
  .next (if !s.frefRuns then s
    else
      let f := s.fref + 1
      { (s.bump (Reg.clkDomCyc 0) 2048) with
        fref := f, clusters := s.clusters.map (fun (c : Nat × Cluster) => (c.1, c.2.frame f))
        sites := s.sites.map (fun (x : Nat × Site) =>
          (x.1, if x.2.testing = some retention then { x.2 with unrefreshed := x.2.unrefreshed + 64 } else x.2)) })

/-- A cluster wakes with undefined data and instruction memories: it was power-gated while it was OFF (R596, log entry 106). -/
def State.wokenSram (s : State) (c : Nat) : State :=
  (clusterCores c).foldl (fun s n =>
    { s with mem := s.mem.write (coreWindow n) (freeBytes s.freeCount 0x14000), freeCount := s.freeCount + 0x14000 }) s

/-- R248: a WAKING cluster has run its start sequence for one frame and enters RUN, or goes OFF where a stop crossed it. -/
def execClusterEnterRun (cluster : BitVec 6) (s : State) : Host.Outcome State Fault Refusal :=
  let n := cluster.toNat
  let c := s.cluster n
  .next (if c.dom ≠ .waking || !decide (c.since < s.fref) then s
    else if c.stopReq then s.updCluster n (fun c => { c with dom := .off, stopReq := false, wakeReq := c.team.isSome }.shown)
    else (s.updCluster n (fun c => { c with dom := .run }.shown)).wokenSram n)

/-- R268: a vault in self-refresh refreshes its next row: its cluster is OFF. -/
def execVaultSelfRefresh (col : BitVec 6) (row : BitVec 7) (s : State) : Host.Outcome State Fault Refusal :=
  let site := siteAt col.toNat row.toNat
  .next (if decide (72 ≤ row.toNat) || (s.cluster (siteCluster site)).dom != .off || (s.site site).testing == some retention then s
    else s.updSite site (fun x => { x with refresh := (x.refresh + 1) % vaultRows }))

/-! ## Dynamic-network packets (R257) -/

/-- The load or stand-in that a packet belongs to fails with E_MEDIA when it ends (R257). -/
def State.crcLoad (s : State) (team : Nat) : State :=
  let t := s.team team
  if t.loading.isSome || t.reloading || t.cores.any s.dlr.standing.contains then s.updTeam team (fun t => { t with loadBad := true }) else s
def State.crcModel (s : State) : State :=
  match s.dlr.golden with
  | [] => s
  | g :: rest => { s with dlr := { s.dlr with golden := { g with bad := true } :: rest } }

/-- R257: a packet of cluster `cluster` fails its CRC and is dropped. The descriptor or command it belongs to fails with E_MEDIA; a BARRIER
or CONTROL packet is sent again once, and a second failure is a hardware fault: of the attempt that runs, or after its check of the team's next
one (R510). -/
def execPacketCrcFail (cluster : BitVec 6) (again : Bool) (owner : PacketOwner) (s : State) : Host.Outcome State Fault Refusal :=
  let c := cluster.toNat
  .next (match owner with
    | .desc core q idx => s.crcDma core.toNat q.toNat idx
    | .plate seq key use => s.crcPlate seq.toNat key use
    | .teamLoad team => s.crcLoad team.toNat
    | .modelLoad => s.crcModel
    | .control =>
      if !again then s
      else
        match (s.cluster c).team with
        | some t => s.updTeam t (fun t =>
            if t.unchecked then { t with dynFault := some (t.dynFault.getD c) } else { t with dynNext := some (t.dynNext.getD c) })
        | none => s.logFault { src := srcDynNet, cls := 3, loc := c })

end Sys2Proof.Machine
end

