-- ==== Sys2Proof/Machine/Dealer.lean ====
section
/-! DEFINITION. Dealer commands and descriptors: models, deltas, teams, roles, cancelling, firmware switchover, heartbeats (R248, R250,
R384, R385, R389, R397, R399, R408, R413, R418 to R421, R552). -/

namespace Sys2Proof.Machine

/-! ## Command descriptors (R384, R551, R552) -/

/-- A field of a command descriptor (Table HST-8). -/
def cmdFld (d : BitVec 512) (lo len : Nat) : Nat := bitsOf d.toNat lo len

/-- Is a bit set outside OPC, HOST_TAG and the operands? -/
def cmdBad (d : BitVec 512) (used : List (Nat × Nat)) : Bool :=
  ((0, 8) :: (32, 32) :: used).foldl (fun x f => putBits x f.1 f.2 0) d.toNat != 0

/-- The end of a Dealer command: a refused one changes nothing (R384), every one is completed (R551). -/
def State.dealerCmd (s : State) (fn : BitVec 6) (idx : Word) (d : BitVec 512) (checks : List (Bool × Status))
    (f : State → State × Nat) : State :=
  match firstCheck checks with
  | some st => s.cmdDone fn.toNat (cmdFld d 32 32) idx.toNat st 0
  | none =>
    let r := f s
    r.1.cmdDone fn.toNat (cmdFld d 32 32) idx.toNat .ok r.2

/-- A command that completes later: its refusal completes at once. -/
def State.dealerStart (s : State) (fn : BitVec 6) (idx : Word) (d : BitVec 512) (checks : List (Bool × Status))
    (f : State → State) : State :=
  match firstCheck checks with
  | some st => s.cmdDone fn.toNat (cmdFld d 32 32) idx.toNat st 0
  | none => f s

/-- The checks before a command's own: a PF command from a VF, reserved bits (R384, R552). -/
def pfChecks (fn : BitVec 6) (d : BitVec 512) (used : List (Nat × Nat)) : List (Bool × Status) :=
  [(fn != 0#6, .ePerm), (cmdBad d used, .eArg)]

/-! ## Clusters (R248, R250) -/

/-- R248: wake a cluster. One that is WAKING or in RUN, as a team's clusters are, is not affected. -/
def execClusterWake (fn : BitVec 6) (idx : Word) (d : BitVec 512) (s : State) : Host.Outcome State Fault Refusal :=
  .next (s.dealerCmd fn idx d (pfChecks fn d [(64, 6)]) (fun s => (s.wakeCluster (cmdFld d 64 6), 0)))

/-- R248, R250: stop a cluster outside any team. -/
def execClusterStop (fn : BitVec 6) (idx : Word) (d : BitVec 512) (s : State) : Host.Outcome State Fault Refusal :=
  let c := cmdFld d 64 6
  .next (s.dealerCmd fn idx d (pfChecks fn d [(64, 6)] ++ [((s.cluster c).team.isSome, .eState)]) (fun s =>
    (s.updCluster c (fun c => if c.dom = .off then { c with wakeReq := false } else { c with stopReq := true }), 0)))

/-! ## Models and deltas (R300, R316, R384) -/

/-- Does a span that a load reads from lie in GDDR in service, outside the golden-copy area? -/
def State.stagedAt (s : State) (a len : Nat) : Bool := s.gddrOk a len && !s.inGold a len

/-- R384, R300: the golden engine is given a base model to write. The model is recorded with its place, and serves once it is written. -/
def execModelLoad (fn : BitVec 6) (idx : Word) (d : BitVec 512) (s : State) : Host.Outcome State Fault Refusal :=
  let m := cmdFld d 64 16
  let src := cmdFld d 128 64
  let len := cmdFld d 192 64
  .next (s.dealerStart fn idx d
    (pfChecks fn d [(64, 16), (128, 64), (192, 64), (256, 128), (384, 2), (448, 64)] ++
      [(len == 0, .eArg), (!s.stagedAt src len, .eRange), ((s.model? m).isSome, .eState), ((s.goldFind len).isNone, .eNoroom)])
    (fun s =>
      let off := (s.goldFind len).getD 0 * stripeBytes
      { s with dlr := { s.dlr with
          models := put s.dlr.models m
            { off := off, len := len, ends := (List.range (cmdFld d 384 2 + 1)).map (fun k => cmdFld d (256 + 32 * k) 32)
              tenants := cmdFld d 448 64, ready := false }
          golden := s.dlr.golden ++ [⟨fn.toNat, cmdFld d 32 32, idx.toNat, m, none, src, off, len, false⟩] } }))

/-- R384: remove a model that no team is loaded with. -/
def execModelUnload (fn : BitVec 6) (idx : Word) (d : BitVec 512) (s : State) : Host.Outcome State Fault Refusal :=
  let m := cmdFld d 64 16
  .next (s.dealerCmd fn idx d
    (pfChecks fn d [(64, 16)] ++ [((s.model? m).isNone, .eState),
      (s.teams.any (fun t => (t.2.loaded || t.2.loading.isSome) && t.2.model == m), .eBusy)])
    (fun s => ({ s with dlr := { s.dlr with models := del s.dlr.models m } }, 0)))

/-- R384, R316: the golden engine is given a tenant's delta streams to write. -/
def execDeltaLoad (fn : BitVec 6) (idx : Word) (d : BitVec 512) (s : State) : Host.Outcome State Fault Refusal :=
  let m := cmdFld d 64 16
  let delta := cmdFld d 80 16
  let src := cmdFld d 128 64
  let len := cmdFld d 192 64
  .next (s.dealerStart fn idx d
    (pfChecks fn d [(64, 16), (80, 16), (96, 6), (128, 64), (192, 64)] ++
      [(len == 0 || delta == 0, .eArg), (!s.stagedAt src len, .eRange),
       (!(s.model? m).any (fun x => x.ready && !x.deltas.any (fun e => e.1 == delta)), .eState), ((s.goldFind len).isNone, .eNoroom)])
    (fun s =>
      { s with dlr := { s.dlr with golden := s.dlr.golden ++
          [⟨fn.toNat, cmdFld d 32 32, idx.toNat, m, some (delta, cmdFld d 96 6), src, (s.goldFind len).getD 0 * stripeBytes, len, false⟩] } }))

/-- R300, R384: the golden engine has written a model or delta. One whose source cannot be read is not recorded. -/
def execModelLoadComplete (s : State) : Host.Outcome State Fault Refusal :=
  .next (match s.dlr.golden with
    | [] => s
    | g :: rest =>
      let s0 := { s with dlr := { s.dlr with golden := rest } }
      let r := s0.readGddr g.src g.len
      if !s.gddrOk g.src g.len || r.2.1 != .ok || g.bad then
        (((fun (s0 : State) => if g.delta.isNone then { s0 with dlr := { s0.dlr with models := del s0.dlr.models g.model } } else s0) r.1).cmdDone
          g.fn g.tag g.idx .eMedia 0)
      else
        let s1 := r.1.goldWrite g.off r.2.2
        let s2 := { s1 with dlr := { s1.dlr with models := s1.dlr.models.map (fun (m : Nat × Model) =>
          if m.1 ≠ g.model then m
          else match g.delta with
            | none => (m.1, { m.2 with ready := true })
            | some (k, tenant) => (m.1, { m.2 with deltas := m.2.deltas ++ [(k, tenant, g.off, g.len)] })) } }
        s2.cmdDone g.fn g.tag g.idx .ok 0)

/-! ## Teams (R159, R251, R252, R385) -/

/-- Shape of a team of a size (Table MSH-2): cw and ch. -/
def teamShape (clusters : Nat) : Option (Nat × Nat) :=
  match clusters with
  | 1 => some (1, 1)
  | 2 => some (2, 1)
  | 4 => some (2, 2)
  | 8 => some (4, 2)
  | 16 => some (4, 4)
  | 32 => some (8, 4)
  | 64 => some (8, 8)
  | _ => none

/-- A program image's header (Table ISA-7). -/
def imageHeader (a : Nat) (bs : List Byte) : Image × Nat × Nat × Nat :=
  let w := leNat bs
  ({ addr := a, programId := bitsOf w 32 64, clusters := bitsOf w 160 7, entryPrefill := bitsOf w 192 10
     entryDecode := bitsOf w 202 10, entryRefine := bitsOf w 212 10, overlays := bitsOf w 224 16, framesMax := bitsOf w 256 32 },
   bitsOf w 0 32, bitsOf w 96 64, bitsOf w 176 16)

/-- Is an entry field outside bank A (R141, Table ISA-7)? -/
def Image.badEntry (i : Image) : Bool :=
  decide (512 ≤ i.entryPrefill) || decide (512 ≤ i.entryDecode) || (decide (512 ≤ i.entryRefine) && i.entryRefine != 0x3FF)

/-- The placement that a load asks for: automatic, or at its origin. -/
def State.loadPlace (s : State) (shape : Nat × Nat) (auto : Bool) (origin : Nat) : Option (Nat × Nat) :=
  if auto then s.placement shape.1 shape.2
  else if s.placeFree (origin % 8) (origin / 8) shape.1 shape.2 then some (origin % 8, origin / 8) else none

/-- Does an origin fit the shape (R252)? -/
def originOk (shape : Nat × Nat) (origin : Nat) : Bool :=
  origin % 8 % shape.1 == 0 && origin / 8 % shape.2 == 0 && decide (origin % 8 + shape.1 ≤ 8) && decide (origin / 8 + shape.2 ≤ 8)

/-- The lowest team id not in use. -/
def State.freeTeam (s : State) : Option Nat :=
  (List.range 64).find? (fun t => !(s.team t).loaded && (s.team t).loading.isNone)

/-- R385, R159: place a team, wake its clusters and start its load. -/
def execTeamLoad (fn : BitVec 6) (idx : Word) (d : BitVec 512) (s : State) : Host.Outcome State Fault Refusal :=
  let m := cmdFld d 64 16
  let shape := (teamShape (cmdFld d 80 7)).getD (1, 1)
  let auto := bitOf d.toNat 87
  let origin := cmdFld d 88 6
  let role := cmdFld d 94 2
  let ia := cmdFld d 128 64
  let r := s.readGddr ia 64
  let h := imageHeader ia r.2.2
  let s0 := if fn ≠ 0#6 || !s.stagedAt ia 64 then s else r.1
  .next (s0.dealerStart fn idx d
    (pfChecks fn d [(64, 32), (128, 64), (192, 64), (256, 14), (288, 64)] ++
      [(!(s.model? m).any Model.ready, .eState),
       ((teamShape (cmdFld d 80 7)).isNone || role == 3 || cmdFld d 288 32 == 0 || cmdFld d 320 16 == 0 || cmdFld d 336 16 == 0 ||
          (!auto && !originOk shape origin), .eArg),
       (!s.stagedAt ia 64 || !s.gddrOk (cmdFld d 192 64) 1, .eRange), (r.2.1 != .ok, .eMedia),
       (h.2.2.1 != s.reg Reg.glbDetClass, .eUnsupported),
       (h.2.1 != 0x41445831 || h.1.clusters != cmdFld d 80 7 || h.1.badEntry, .eArg),
       (role == 2 && h.1.entryRefine == 0x3FF, .eUnsupported),
       ((s.loadPlace shape auto origin).isNone || s.freeTeam.isNone, .eNoroom)])
    (fun s =>
      let t := s.freeTeam.getD 0
      let o := (s.loadPlace shape auto origin).getD (0, 0)
      let s1 := s.updTeam t (fun _ =>
        { loading := some (fn.toNat, cmdFld d 32 32, idx.toNat), ox := o.1, oy := o.2, cw := shape.1, ch := shape.2
          role := role, prepRole := role, resTop := h.2.2.2, model := m, bMax := cmdFld d 256 11 + 1, dMax := cmdFld d 267 3
          ctxMax := cmdFld d 288 32, pfTok := 64 * cmdFld d 320 16, share := 64 * cmdFld d 336 16, image := h.1 })
      ((s1.team t).clusters.foldl State.wakeCluster s1).setClusters (s1.team t).clusters (some t)))

/-- Fill a team's vaults and cores, and write PWK_FMT (R385 steps 2 to 4). -/
def State.fillTeam (s : State) (team : Nat) : State :=
  let t := s.team team
  t.cores.foldl (fun s n =>
    (((s.fillLoad t n).fillResident t n).fillBanks t n).updCore n (fun c =>
      { c with resTop := t.resTop, pwkFmt := BitVec.ofNat 32 t.bytes.plateFmt })) s

/-- Write a team's reduction contexts and bind them to it (R442). -/
def State.loadContexts (s : State) (cs : List (Nat × Nat)) : State := cs.foldl (fun s c => s.setReg (Reg.ngvRctx c.1) c.2) s

/-- R385: the load of a team, or the load again of a stopped one (R525), has ended: once its clusters run, the team is LOADED with an
idle accumulator of 0 (R601). Where a cluster of the placement has left service meanwhile (R246), a load fails with E_NOROOM (R252)
and a stopped team is placed anew (R525). Where a source of the load area has no copy (R518), or a packet of the load failed its CRC
(R257), the load fails with E_MEDIA. `srcs` are the sources of its load area. -/
def execTeamLoadComplete (team : BitVec 6) (b : LoadBytes) (srcs : List (LineSrc × Option (List Byte))) (s : State) :
    Host.Outcome State Fault Refusal :=
  let n := team.toNat
  let t := s.team n
  .next (if (t.loading.isNone && !t.reloading) || t.clusters.any (fun c => (s.cluster c).dom != .run || (s.cluster c).stopReq) then s
    else if t.clusters.any (fun c => (s.cluster c).lost) then
      (match t.loading with
      | some (fn, tag, idx) => ((s.setClusters t.clusters none).updTeam n (fun _ => {})).cmdDone fn tag idx .eNoroom 0
      | none => ((s.setClusters t.clusters none).updTeam n (fun t => { t with reloading := false })).autoReload n)
    else
      let r := s.readSources srcs
      if t.loadBad || r.2.isSome then
        (match t.loading with
        | some (fn, tag, idx) => ((r.1.setClusters t.clusters none).updTeam n (fun _ => {})).cmdDone fn tag idx .eMedia 0
        | none => r.1.updTeam n (fun t => { t with reloading := false, loadBad := false }))
      else
      let s1 := r.1.updTeam n (fun t =>
        { t with
          loaded := true, loading := none, reloading := false, stopped := false, turn := 0, idle := 0, holdUntil := 0
          loadArea := b.weights.map (fun w => (w.2.1, w.2.2.length))
          plan := { mapBase := b.mapBase, u := b.u, ranges := b.ranges, holders := b.holders, log2n := b.log2n, kvw := b.kvw, lhs := b.lhs }
          bytes := { resident := b.resident, bankA := b.bankA, weights := b.weights, plateFmt := b.plateFmt } })
      let s2 := (s1.fillTeam n).loadContexts b.contexts
      match t.loading with
      | some (fn, tag, idx) => s2.cmdDone fn tag idx .ok n
      | none => s2)

/-- R384: unload a team at its next boundary, at once where it runs no turn; refused while a sequence is bound to it. -/
def execTeamUnload (fn : BitVec 6) (idx : Word) (d : BitVec 512) (s : State) : Host.Outcome State Fault Refusal :=
  let n := cmdFld d 64 6
  .next (s.dealerStart fn idx d
    (pfChecks fn d [(64, 6)] ++ [(!(s.team n).loaded || (s.team n).unloading.isSome, .eState),
      (!(s.bound n).isEmpty || (s.jobRuns && s.jobTeam == n), .eBusy)])
    (fun s =>
      let s1 := s.updTeam n (fun t => { t with unloading := some (fn.toNat, cmdFld d 32 32, idx.toNat) })
      if (s.team n).running then s1
      else
        match s1.tryUnload n with
        | some s2 => (s2.switchBoundary n).admitAll
        | none => s1))

/-- R408, R406: set a team's role for its next turns. -/
def execRoleSet (fn : BitVec 6) (idx : Word) (d : BitVec 512) (s : State) : Host.Outcome State Fault Refusal :=
  let n := cmdFld d 64 6
  let r := cmdFld d 70 2
  .next (s.dealerCmd fn idx d
    (pfChecks fn d [(64, 8)] ++ [(r == 3, .eArg), (!(s.team n).loaded || s.fld Reg.dlrRoleCfg 0 1 == 1, .eState),
      (r == 2 && (s.team n).image.entryRefine == 0x3FF, .eUnsupported), ((r == 2 && !(s.bound n).isEmpty) || (s.jobRuns && s.jobTeam == n), .eBusy)])
    (fun s => (s.askRole n r, 0)))

/-! ## Requests (R382, R389, R397, R399, R413) -/

/-- The bytes of a request descriptor. -/
def descBytes (d : BitVec 1024) : List Byte := leBytes 128 d.toNat

/-- R389, R549: a GENERATE descriptor is checked and queued, or rejected with a completion record. -/
def execGenerate (fn : BitVec 6) (idx : Word) (d : BitVec 1024) (s : State) : Host.Outcome State Fault Refusal :=
  .next (s.takeReq fn.toNat idx.toNat 1 (descBytes d))

/-- R399, R549: a REFINE descriptor is checked and queued, or rejected with a completion record. -/
def execRefine (fn : BitVec 6) (idx : Word) (d : BitVec 1024) (s : State) : Host.Outcome State Fault Refusal :=
  .next (s.takeReq fn.toNat idx.toNat 2 (descBytes d))

/-- Live requests of a function with a tag. -/
def State.tagged (s : State) (fn tag : Nat) : List (Nat × Slot) :=
  s.dlr.slots.filter (fun x => x.2.fn == fn && x.2.tag == tag && x.2.st != .ending)

/-- Cancel one request: a QUEUED one ends, a running one is marked (R413). -/
def State.cancelReq (s : State) (n : Nat) : State :=
  match s.slot? n with
  | none => s
  | some x => if x.st = .queued then s.endReq n .eCancelled else s.updSlot n (fun x => { x with cancel := true })

/-- R413: cancel the function's live requests with a tag; any function may. -/
def execCancel (fn : BitVec 6) (idx : Word) (d : BitVec 512) (s : State) : Host.Outcome State Fault Refusal :=
  let xs := s.tagged fn.toNat (cmdFld d 64 32)
  .next (s.dealerCmd fn idx d [(cmdBad d [(64, 32)], .eArg), (xs.isEmpty, .eState)]
    (fun s => (s.examineAfter (xs.foldl (fun s x => s.cancelReq x.1) s), xs.length)))

/-- R397: the deadline of a QUEUED request is reached. -/
def execQueuedDeadline (slot : BitVec 13) (rrc : Dword) (s : State) : Host.Outcome State Fault Refusal :=
  let s0 := s.setReg Reg.uhlRrc (max (s.reg Reg.uhlRrc) rrc.toNat)
  .next (match s.slot? slot.toNat with
    | none => s0
    | some x => if x.st = .queued && x.deadline != 0 && decide (x.deadline ≤ s0.rackTime) then s0.examineAfter (s0.endReq slot.toNat .eLate) else s0)

/-! ## Dealer cores (R418 to R421) -/

/-- State of a Dealer core (Table DLR-13): 0 RUN, 1 CARRY, 2 FAILED, 3 SWITCHING. -/
def State.dealerSt (s : State) (core : Nat) : Nat := s.fld (Reg.dlrPairState (core / 2)) (2 * (core % 2)) 2

/-- The partner of a Dealer core. -/
def partner (core : Nat) : Nat := if core % 2 = 0 then core + 1 else core - 1

/-- R418: a Dealer core writes its heartbeat word and checks its partner's. -/
def execDealerHeartbeat (core : BitVec 4) (s : State) : Host.Outcome State Fault Refusal :=
  let n := core.toNat
  let p := partner n
  .next (if s.dealerSt n = 2 then s
    else
      let d := s.dlr
      let beat := look 0 d.beats p
      let stale := if beat = look 0 d.seen p then look 0 d.stale p + 1 else 0
      { s with dlr := { d with beats := upd 0 d.beats n (fun k => k + 1), seen := put d.seen p beat, stale := put d.stale p stale } })

/-- R418 to R420: a core whose heartbeat has not advanced in ten checks is held in reset and its partner carries both duties; where the
partner has failed too, another pair takes the pair's duties, the budget exhausted (log entry 186). -/
def execDealerTakeover (core : BitVec 4) (s : State) : Host.Outcome State Fault Refusal :=
  let n := core.toNat
  let p := partner n
  let lost := s.dealerSt p == 2
  .next (if s.dealerSt n = 2 || (!lost && (decide (look 0 s.dlr.stale n < 10) || look 0 s.dlr.beats n != look 0 s.dlr.seen n)) then s
    else
      let s1 := ((s.setFld (Reg.dlrPairState (n / 2)) (2 * (n % 2)) 2 2).bump Reg.dlrTakeoverCnt 1).logFault
        { src := srcDealer, loc := n, action := if lost then 6 else 0 }
      if lost then s1.setFld (Reg.dlrPairState (n / 2)) 6 1 1
      else s1.setFld (Reg.dlrPairState (n / 2)) (2 * (p % 2)) 2 1)

/-- R421: switch Dealer firmware to the other image slot, pair by pair; the slot must hold a checked image. -/
def execFwSwitch (fn : BitVec 6) (idx : Word) (d : BitVec 512) (s : State) : Host.Outcome State Fault Refusal :=
  let slot := cmdFld d 64 1
  .next (s.dealerCmd fn idx d
    (pfChecks fn d [(64, 1)] ++ [(s.dlr.switching.isSome, .eBusy),
      (slot == s.runSlot 2 || !(find? s.mgt.slots (4 + slot)).any FlashSlot.valid, .eState)])
    (fun s => (switchPairs slot 8 0 s, 0)))

end Sys2Proof.Machine
end

