-- ==== Sys2Proof/Machine/Registers.lean ====
section
/-! DEFINITION. Host writes of BAR0: alignment and the two-access form, reserved bits, the checks of each chapter, and what an
accepted write does (R7 to R11, R23, R284, R299, R308, R422, R459, R464, R480, R492, R505, R533, R536, R540, R541, R553, R568, R577,
R581, R603, R622, R624). -/

namespace Sys2Proof.Machine

/-! ## Fields (R8, R9) -/

/-- Bits of a register that the host can write. -/
def RegDef.writable (d : RegDef) : Nat := Nat.lor (Nat.lor d.rw d.w1c) (Nat.lor d.w1s d.wo)

/-- Read-only fields of the registers that also have writable ones; all their other bits are writable or reserved. -/
def roFields : List (Nat × Nat) := [
  /- CLK_STATUS -/ (0x100000, 0x3C03FF),
  /- CLK_XCTRL -/ (0x100008, 0xC),
  /- VLT_LOG_HEAD -/ (0x700020, 0x7F3F),
  /- GDR_CFG -/ (0x800000, 0x1C),
  /- PORT_PRBS -/ (0x901058, 0x7F8),
  /- SLC_RANK -/ (0x904200, 0x3FA000),
  /- SLC_ACC -/ (0x930000, 0x1),
  /- DET_STATUS -/ (0xD00004, 0x2),
  /- FLT_STATUS -/ (0xC00000, 0x18),
  /- FLT_LOG_HEAD -/ (0xC00014, 0x1FFFF),
  /- FN_ACC_ERR -/ (0x310008, 0xFFFFFFFFFFFF07FF),
  /- UHL_STATUS -/ (0xA00000, 0x37FFFFF)]

/-- Bits of a register that are reserved (R9). -/
def RegDef.reserved (d : RegDef) : Nat :=
  2 ^ (8 * d.bytes) - 1 - Nat.lor d.writable (((roFields.find? (fun r => r.1 == d.base)).map Prod.snd).getD 0)

/-- What a write of `v` leaves in the register's fields (R8); WO bits read as zero and are not kept. -/
def RegDef.apply (d : RegDef) (old v : Nat) : Nat :=
  let keep := old - Nat.land old d.rw
  Nat.lor (Nat.lor (keep - Nat.land (Nat.land old v) d.w1c) (Nat.land v d.rw)) (Nat.land v d.w1s)

/-! ## Registers that a row of their own writes -/

/-- Does a write of `v` over `old` to the register at `b` belong to a command with a row of its own? -/
def ownRow (b old v : Nat) : Bool :=
  [Reg.burTableSel, Reg.ngvId, Reg.gdrRetireCmd, Reg.detCfg, Reg.detRingTail, Reg.detTlogTail, Reg.uhlRtSet, Reg.uhlSnapT, Reg.umpSwitch,
    Reg.umpSvcOut, Reg.clkXctrl, Reg.clkClkout, Reg.vltRepairCmd].contains b ||
  atStride b (Reg.burWinCfg 0) 16 0x10 || atStride b (Reg.ngvDest 0) 4096 8 || atStride b (Reg.portCtrl 0) 22 0x80 ||
  atStride b (Reg.portCred 0) 22 0x80 || atStride b (Reg.portPrbs 0) 22 0x80 || atStride b (Reg.clkPllCfg 0) 6 4 ||
  atStride b (Reg.clkDomSel 0) 4 4 || atStride b (Reg.dlrTeamRst 0) 64 0x20 ||
  (b == Reg.slcCtrl && decide (1 ≤ v % 8) && decide (v % 8 ≤ 4)) ||
  (b == Reg.vltBistCtrl && bitOf v 4) ||
  (b == Reg.detJobCtrl && (bitOf v 0 || (bitOf v 1 && bitOf old 0))) ||
  (b == Reg.umpStageCmd && (v % 4 == 1 || v % 4 == 2)) ||
  (b == Reg.secCmd && (v % 4 == 1 || v % 4 == 2)) ||
  (b == Reg.shcCmd && (bitsOf v 5 2 == 1 || bitsOf v 5 2 == 2)) ||
  (b == Reg.pwrCmd && (v % 4 == 1 || v % 4 == 2)) ||
  (decide (0x310100 ≤ b) && decide (b < 0x350000) && decide (0x100 ≤ b % 0x1000) && decide (b % 0x1000 < 0x200) && b % 0x40 == 0x10 &&
    ((bitOf v 0 && !bitOf old 0) || bitOf v 1))

/-! ## The checks of the chapters -/

/-- Any slot of a function that is not FREE. -/
def State.fnBusy (s : State) (f : Nat) : Bool := s.dlr.slots.any (fun x => x.2.fn == f)

/-- History area in use by a write: outside USABLE space, or in the golden-copy area; an area of no units is nowhere (R422). -/
def State.badArea (s : State) (base len : Nat) : Bool := len != 0 && (!s.gddrOk base len || s.inGold base len)

/-- Does the host hold the claim of timer `t` (R575, R577)? -/
def State.hostClaims (s : State) (r : Nat) : Bool := s.fld (Reg.shcClaim r) 0 3 == 5

/-- Checks of the ring registers of function `f`, ring `r`, at offset `k` of the ring (R553). -/
def State.ringChecks (s : State) (f r k old v : Nat) : List (Bool × Status) :=
  let en := s.fld (Reg.ringCfg f r) 0 1 == 1
  match k with
  | 0x00 => [(en, .eBusy), (v % 4096 != 0, .eAlign)]
  | 0x08 => [(en, .eBusy), (v % 8 != 0, .eAlign)]
  | 0x10 => [(en && bitsOf v 2 5 != bitsOf old 2 5, .eBusy), (decide (bitsOf v 2 5 < 4) || decide (16 < bitsOf v 2 5), .eRange)]
  | _ => []

/-- Checks of the control-plane and fabric registers. -/
def State.ctrlChecks (s : State) (b v : Nat) : List (Bool × Status) :=
  if b = Reg.dlrAdmCfg then [(v % 256 == 0, .eRange)]
  else if b = Reg.dlrRoleCfg then [(decide (bitsOf v 4 4 ≤ bitsOf v 8 4), .eRange)]
  else if b = Reg.dlrHistBase then
    [(v % 4096 != 0, .eAlign), (s.slotsBusy, .eState), (s.badArea v (4096 * s.reg Reg.dlrHistUnits), .eRange)]
  else if b = Reg.dlrHistUnits then [(s.slotsBusy, .eState), (s.badArea (s.reg Reg.dlrHistBase) (4096 * v), .eRange)]
  else if b = Reg.ngvCfg then
    [(bitsOf v 0 8 == 0 || bitsOf v 8 8 == 0 || bitsOf v 16 8 == 0 || bitsOf v 24 4 == 0, .eRange)]
  else if b = Reg.slcCfg || b = Reg.slcUplink || atStride b (Reg.slcRank 0) 128 4 then [(s.sliceSt != 0, .eState)]
  else if b = Reg.slcCtrl then [(true, .eArg)]
  else []

/-- Checks of the memory and fault registers. -/
def State.memChecks (s : State) (b old v : Nat) : List (Bool × Status) :=
  if b = Reg.vltCtrl then [(decide (bitsOf v 1 4 < 4) || bitsOf v 8 4 == 0, .eRange)]
  else if b = Reg.vltSiteSel then [(decide (71 < bitsOf v 8 7), .eRange)]
  else if b = Reg.gdrCfg then [(v % 4 == 3, .eRange), (bitOf old 5, .eState)]
  else if b = Reg.gdrGold then
    [(decide (s.usable < (bitsOf v 0 12 + bitsOf v 16 12) * 2 ^ 20), .eRange), (s.fld Reg.gdrCfg 5 1 == 1, .eState)]
  else if b = Reg.gdrPolicy then
    [(bitsOf v 0 8 == 0 || bitsOf v 8 8 == 0 || bitsOf v 16 8 == 0 || bitsOf v 24 4 == 0, .eRange)]
  else if b = Reg.fltPolicy then
    [(bitsOf v 0 8 == 0 || bitsOf v 8 4 == 0 || bitsOf v 12 8 == 0 || bitsOf v 22 8 == 0, .eRange)]
  else if b = Reg.fltGoldPeer then [(bitOf v 12 && v % 4096 == s.devId, .eArg)]
  else if b = Reg.fltRepairCmd then
    [(bitsOf v 24 8 != 0xC3, .ePerm), ((s.cluster (clusterOf (v % 4096))).lost, .eState), (s.colState (v % 4096) != 8, .eNoroom),
     (s.standIns.any (fun n => clusterOf n == clusterOf (v % 4096)), .eBusy)]
  else []

/-- Checks of the determinism registers (R505). -/
def State.detChecks (s : State) (b v : Nat) : List (Bool × Status) :=
  let t := s.team (bitsOf v 2 6)
  if b = Reg.detRingBase || b = Reg.detRingSize || b = Reg.detTlogBase || b = Reg.detTlogSize then
    [(s.fld Reg.detCfg 0 1 == 1, .eBusy)]
  else if b = Reg.detJobSrc || b = Reg.detCapAddr then [(v % 64 != 0, .eAlign), (s.jobRuns, .eBusy)]
  else if b = Reg.detJobRes then [(v % 16 != 0, .eAlign), (s.jobRuns, .eBusy)]
  else if b = Reg.detJobCtrl then
    [(s.jobRuns, .eBusy), (bitOf v 16 && t.loaded && decide (t.width * t.height ≤ s.fld Reg.detCapPoint 0 12), .eRange)]
  else if b = Reg.detJobLen || b = Reg.detCapSerial || b = Reg.detCapPoint || b = Reg.detCapCyc then [(s.jobRuns, .eBusy)]
  else []

/-- Checks of the power, management and shared-resource registers (R576, R577, R581, R597, R603). -/
def State.mgmtChecks (s : State) (b v : Nat) : List (Bool × Status) :=
  if b = Reg.pwrCfg then [(bitsOf v 1 4 == 0, .eRange)]
  else if b = Reg.pwrCap then [(decide (v < 100) || decide (680 < v), .eRange)]
  else if b = Reg.pwrCmd || b = Reg.umpStageCmd || b = Reg.secCmd || b = Reg.shcCmd then [(true, .eArg)]
  else if b = Reg.umpStageSrc then [(v % 64 != 0, .eAlign)]
  else if atStride b (Reg.shcTmrCfg 0) 8 0x10 then [(!s.hostClaims (0x11 + (b - Reg.shcTmrCfg 0) / 0x10), .ePerm)]
  else if atStride b (Reg.shcTmrPeriod 0) 8 0x10 then
    [(!s.hostClaims (0x11 + (b - Reg.shcTmrPeriod 0) / 0x10), .ePerm), (v == 0, .eRange)]
  else []

/-- Checks of the HST block (R553). -/
def State.hstChecks (s : State) (b old v : Nat) : List (Bool × Status) :=
  if b = Reg.hstCfg then [(v % 2 ^ 16 == 0, .eRange)]
  else if b = Reg.hstBar4Base then [(v % 2 ^ s.hst.bar4 != 0, .eAlign)]
  else if 0x310000 ≤ b && b < 0x350000 then
    (let f := (b - 0x310000) / 0x1000
     let o := b % 0x1000
     if o = 0x4 then [(s.fnBusy f, .eBusy)]
     else if o = 0x18 then [(v % 256 == 0, .eRange)]
     else if 0x100 ≤ o && o < 0x200 then s.ringChecks f ((o - 0x100) / 0x40) (o % 0x40) old v
     else [])
  else []

/-- The checks of the chapter that owns the register at `b`, in its order. -/
def State.regChecks (s : State) (b old v : Nat) : List (Bool × Status) :=
  s.ctrlChecks b v ++ s.memChecks b old v ++ s.detChecks b v ++ s.mgmtChecks b v ++ s.hstChecks b old v

/-! ## What an accepted write does -/

/-- Clearing OVF of a log's head clears the count of entries since the last clear. -/
def State.clearLog (s : State) (head ovf lo len v : Nat) : State := if bitOf v ovf then s.setFld head lo len 0 else s

/-- R577: a timer that is enabled counts from its period. -/
def State.startTimer (s : State) (t old v : Nat) : State :=
  if bitOf v 0 && !bitOf old 0 then s.setReg (Reg.shcTmrCnt t) (s.reg (Reg.shcTmrPeriod t)) else s

/-- A write of a core's sticky flags (R64, R108). -/
def State.clearSticky (s : State) (n off v : Nat) : State :=
  s.updCore n (fun c =>
    if off = 0xC0 then { c with fmtSticky := c.fmtSticky &&& ~~~(BitVec.ofNat 4 v) }
    else if off = 0x140 then
      { c with accCnt := { c.accCnt with satFlag := c.accCnt.satFlag && !bitOf v 0, clampFlag := c.accCnt.clampFlag && !bitOf v 1 } }
    else c)

/-- The accepted write of `v` to the register at `b`. An ABORT of DET_JOB_CTRL without a job ends nothing and reads 0; its other fields are
written. A write of VLT_BIST_CTRL without START is its last write, and accepted (Table VLT-7). -/
def State.putReg (s : State) (d : RegDef) (b old v : Nat) : State :=
  let s1 := s.setReg b (d.apply old v)
  if 16 ≤ blockOf b then s.clearSticky ((b - 0x1000000) / 0x1000) (b % 0x1000) v
  else if b = Reg.vltLogHead then s1.clearLog b 16 8 7 v
  else if b = Reg.fltLogHead then s1.clearLog b 17 8 9 v
  else if b = Reg.fltRepairCmd then s.declareFailed (v % 4096) true
  else if b = Reg.vltBistCtrl then s1.vltDone .ok
  else if b = Reg.detJobCtrl then s1.setFld b 0 2 0
  else if atStride b (Reg.shcTmrCfg 0) 8 0x10 then s1.startTimer ((b - Reg.shcTmrCfg 0) / 0x10) old v
  else if 0x310100 ≤ b && b < 0x350000 && b % 0x1000 < 0x200 && b % 0x40 == 0x10 && !bitOf v 0 then s1.setReg (b + 0xC) 0
  else s1

/-! ## The write (R9, R10, R536, R540, R541, R568, R622) -/

/-- The page of a VF. -/
def ownPage (f off : Nat) : Bool := decide (0x310000 + f * 0x1000 ≤ off) && decide (off < 0x311000 + f * 0x1000)

/-- The checks before the chapter's own: IDE; a VF outside its page; the shadow window; a block served from shadow; the rest state. -/
def State.accessChecks (s : State) (f off : Nat) : List (Bool × Status) :=
  [(s.ideBlocks, .ePerm), (f != 0 && !ownPage f off, .ePerm), (decide (0x2000000 ≤ off), .ePerm), (s.shadowServed off, .eBusy),
   (s.restBlocks off, .eState)]

/-- The value that a write commits, or none: a low word is held, a high word without its low word is refused (R10). -/
def twoAccess (held : Option (Nat × Nat)) (d : RegDef) (b off size v : Nat) : Option Nat :=
  if d.bytes = 4 then (if size = 4 then some v else none)
  else if size = 8 then some v
  else if off = b then none
  else if held.any (fun h => h.1 == b) then some ((held.getD (0, 0)).2 + v % 2 ^ 32 * 2 ^ 32)
  else none

/-- The write of a register that has a writable field, once it is committed; `own` does the writes of `ownRow`. -/
def State.commitReg (s : State) (own : Nat → Nat → State → State) (f off : Nat) (d : RegDef) (b v : Nat) : State :=
  let old := s.reg b
  if ownRow b old v && Nat.land v d.reserved == 0 then own b v s
  else
    match firstCheck ((Nat.land v d.reserved != 0, .eArg) :: s.regChecks b old v) with
    | some st =>
      let s1 := s.reject f st 0 off false
      if b = Reg.slcCtrl then s1.slcDone st else s1
    | none => s.putReg d b old v

/-- A host write of BAR0. Each function holds one low word, that of its last low-word write: the spec gives no number of held words, and
a second low word replaces the first. DESIGN CHOICE, log entry 82. R23 governs the GLB block before R10, and R598 before R23: DEDUCED, log
entry 81. -/
def State.writeBar0 (s : State) (own : Nat → Nat → State → State) (f off size v : Nat) : State :=
  if s.linkDown then s
  else if (size ≠ 4 && size ≠ 8) || off % size ≠ 0 then s.reject f .eAlign 0 off false
  else
    match firstCheck (s.accessChecks f off) with
    | some st => s.reject f st 0 off false
    | none =>
      match findReg off regMap with
      | none => s.reject f .eRange 0 off false
      | some (d, b) =>
        if blockOf b = 0 || (f ≠ 0 && b = Reg.fnTenant f) then s
        else if d.bytes = 8 && size = 4 && off = b then s.updFn f (fun x => { x with held := some (b, v % 2 ^ 32) })
        else
          match twoAccess (s.fn f).held d b off size v with
          | none => s.reject f .eAlign 0 off false
          | some w =>
            let s1 := if d.bytes = 8 && size = 4 then s.updFn f (fun x => { x with held := none }) else s
            if d.writable = 0 then s1 else s1.commitReg own f off d b w

/-! ## DET_CFG and the ring tails (R490 to R492, R505) -/

/-- Rings as (base, length). -/
def State.detRing (s : State) (tlog : Bool) : Nat × Nat :=
  if tlog then (s.reg Reg.detTlogBase, 4096 * s.reg Reg.detTlogSize) else (s.reg Reg.detRingBase, 4096 * s.reg Reg.detRingSize)

/-- Is a ring badly placed (R505)? -/
def State.badRing (s : State) (r o : Nat × Nat) : Bool :=
  r.1 % 4096 != 0 || r.2 == 0 || !s.gddrOk r.1 r.2 || s.inGold r.1 r.2 || overlaps r.1 r.2 o.1 o.2 ||
    overlaps r.1 r.2 (s.reg Reg.dlrHistBase) (4096 * s.reg Reg.dlrHistUnits)

/-- R505: write of DET_CFG. Setting EN empties both rings. -/
def execDetCfg (fn : BitVec 6) (value : Word) (s : State) : Host.Outcome State Fault Refusal :=
  let v := value.toNat
  let starts := bitOf v 0 && s.fld Reg.detCfg 0 1 == 0
  let p := s.detRing false
  let t := s.detRing true
  .next (s.hostWrite fn Reg.detCfg [(bitsOf v 2 30 != 0, .eArg), (starts && (s.badRing p t || s.badRing t p), .eRange)] (fun s =>
    let s1 := s.setReg Reg.detCfg v
    if starts then
      { ((((s1.setReg Reg.detRingHead 0).setReg Reg.detRingTail 0).setReg Reg.detTlogHead 0).setReg Reg.detTlogTail 0) with
        det := { s1.det with proofs := [], tlogs := [] } }
    else s1))

/-- Records of a ring that a tail has not passed. -/
def keptRecs (tail : Nat) (rs : List RingRec) : List RingRec := rs.filter (fun r => decide (tail < r.start + r.bytes))

/-- The checks of a tail write (R492). -/
def tailChecks (v tail head : Nat) : List (Bool × Status) := [(v % 64 != 0 || decide (v < tail) || decide (head < v), .eRange)]

/-- R492: the host releases proof ring records. -/
def execDetRingTail (fn : BitVec 6) (value : Dword) (s : State) : Host.Outcome State Fault Refusal :=
  let v := value.toNat
  .next (s.hostWrite fn Reg.detRingTail (tailChecks v (s.reg Reg.detRingTail) (s.reg Reg.detRingHead)) (fun s =>
    { s.setReg Reg.detRingTail v with det := { s.det with proofs := keptRecs v s.det.proofs } }))

/-- R492: the host releases timing log entries. -/
def execDetTlogTail (fn : BitVec 6) (value : Dword) (s : State) : Host.Outcome State Fault Refusal :=
  let v := value.toNat
  .next (s.hostWrite fn Reg.detTlogTail (tailChecks v (s.reg Reg.detTlogTail) (s.reg Reg.detTlogHead)) (fun s =>
    { s.setReg Reg.detTlogTail v with det := { s.det with tlogs := keptRecs v s.det.tlogs } }))

end Sys2Proof.Machine
end

