-- ==== Sys2Proof/Machine/Flags.lean ====
section
/-! DEFINITION. Registers and flags that are views of other state, and the value a read of any register gives (Tables REG-3, MSH-4,
MSH-5, VLT-7, VLT-8, VLT-10, PLT-7, PLT-8, DLR-10, DLR-14, DLR-15, SLC-5, NGV-11, FLT-11, HST-12, REG-5). -/

namespace Sys2Proof.Machine

/-! ## The board -/

/-- CLU_STATE (Table MSH-4). -/
def State.cluStateReg (s : State) (c : Nat) : Nat :=
  let x := s.cluster c
  let t := x.team.filter (fun t => (s.team t).loaded)
  domCode x.dom + bit t.isSome * 4 + t.getD 0 % 64 * 8 + bit x.lost * 2 ^ 9 + x.spares % 16 * 2 ^ 10

/-- CLU_REPAIR (Table MSH-5). -/
def State.cluRepairReg (s : State) (c : Nat) : Nat :=
  ((List.range 8).map (fun k => nth 8 (s.cluster c).cols k % 16 * 2 ^ (4 * k))).sum

/-- VLT_STATUS and VLT_BIST_CTRL with the self-test of the selected site (Tables VLT-7, VLT-10). -/
def State.vltStatusReg (s : State) : Nat :=
  let x := s.site s.selSite
  putBits (putBits (putBits (s.reg Reg.vltStatus) 0 1 (bit s.repairBusy)) 2 1 (bit x.testing.isSome)) 3 1 (bit x.testFailed)
def State.vltBistReg (s : State) : Nat := putBits (s.reg Reg.vltBistCtrl) 4 1 (bit (s.site s.selSite).testing.isSome)

/-! ## The control plane -/

/-- Slots in a state. -/
def State.slotsIn (s : State) (p : SlotSt → Bool) : Nat := (s.dlr.slots.filter (fun x => p x.2.st)).length

/-- DLR_STATUS (Table DLR-10). -/
def State.dlrStatusReg (s : State) : Nat :=
  s.slotsIn (fun x => x == .queued) % 2 ^ 14 +
    s.slotsIn (fun x => x == .prefill || x == .decode || x == .refine || x == .recover) % 2 ^ 14 * 2 ^ 14 +
    s.fld Reg.dlrStatus 28 1 * 2 ^ 28

/-- DLR_TEAM_STATE (Table DLR-14). -/
def State.teamStateReg (s : State) (n : Nat) : Nat :=
  let t := s.team n
  t.role % 4 + bit t.loaded * 4 + bit (s.teamPaused n) * 8 + bit t.stopped * 16 + t.step % 8 * 32 + t.attempt % 4 * 2 ^ 8 +
    t.batch.length % 2 ^ 12 * 2 ^ 16

/-- DLR_TEAM_LIM (Table DLR-15). -/
def State.teamLimReg (s : State) (n : Nat) : Nat :=
  let t := s.team n
  if t.loaded then (t.bMax - 1) % 2 ^ 11 + t.dMax % 8 * 2 ^ 11 + t.pfTok / 64 % 2 ^ 16 * 2 ^ 16 else 0

/-- DLR_TEAM_TURN, DLR_TEAM_CTX and DLR_TEAM_MODEL (Table DLR-9). -/
def State.teamTurnReg (s : State) (n : Nat) : Nat := (s.team n).savedTurn.getD (s.team n).turn - 1
def State.teamCtxReg (s : State) (n : Nat) : Nat := if (s.team n).loaded then (s.team n).ctxMax else 0
def State.teamModelReg (s : State) (n : Nat) : Nat :=
  let t := s.team n
  if t.loaded then t.model % 2 ^ 16 + (8 * t.oy + t.ox) % 64 * 2 ^ 16 + t.cw * t.ch % 128 * 2 ^ 22 else 0

/-- Is a slot being zeroed on another device (R360)? -/
def State.zeroing (s : State) : Bool :=
  s.fab.outs.any (fun t => match t.owner with
    | .plate _ _ .zero => true
    | _ => false)

/-- PLT_STATUS (Table PLT-8): every command completes as it is taken. -/
def State.pltStatusReg (s : State) : Nat :=
  putBits (putBits (putBits (putBits (s.reg Reg.pltStatus) 0 1 (bit (!s.plt.staging.isEmpty))) 1 1 (bit (!s.plt.writeBacks.isEmpty))) 2 1
    (bit (!s.plt.moves.isEmpty || s.zeroing))) 3 1 (bit (s.plt.nodes.any (fun x => x.2.slot.isSome)))

/-! ## Fabric, faults, host -/

/-- NGV_STATUS (Table NGV-11). -/
def State.ngvStatusReg (s : State) : Nat :=
  ((List.range 22).map (fun p => bit (s.portSt p == 2) * 2 ^ p)).sum + bit (s.freeTag true).isNone * 2 ^ 22 +
    bit (s.freeTag false).isNone * 2 ^ 23

/-- SLC_HELD (Table SLC-5). -/
def State.slcHeldReg (s : State) : Nat := ((List.range 22).map (fun p => bit (s.portHeld p) * 2 ^ p)).sum

/-- Does the other slot of a component hold an image that passed its checks? -/
def State.altValid (s : State) (comp : Nat) : Bool := (find? s.mgt.slots (2 * comp + (1 - s.runSlot comp))).any FlashSlot.valid

/-- Uhloc chains that are up (R560). -/
def State.chainsUp (s : State) : Nat := bit (s.fld Reg.uhlStatus 3 2 != 0) + bit (s.fld Reg.uhlStatus 5 2 != 0)

/-- Regions out of service. -/
def State.regionsLost (s : State) : Nat := popcount 32 (s.reg Reg.gdrRetired)

/-- FLT_BUDGET (Table FLT-11). -/
def State.budgetReg (s : State) : Nat :=
  ((List.range 64).map (fun c => ((s.cluster c).cols.filter (fun k => k == 8)).length)).sum % 2 ^ 10 +
    (4 - s.regionsLost) * 2 ^ 10 + ((List.range 22).filter (fun p => s.portSt p == 2)).length * 2 ^ 13 +
    ((List.range 22).filter (fun p => s.portSt p == 2 && s.fld (Reg.portStatus p) 11 1 == 1)).length * 2 ^ 18 +
    ((List.range 8).filter (fun p => s.dealerSt (2 * p) == 0 && s.dealerSt (2 * p + 1) == 0)).length * 2 ^ 23 +
    s.chainsUp * 2 ^ 27 + bit (s.altValid 1) * 2 ^ 29

/-- FN_STATUS (Table HST-12). -/
def State.fnStatusReg (s : State) (f : Nat) : Nat :=
  bit ((List.range 4).any (fun r => s.ringSt f r == 2)) + bit (!(s.fn f).deferred.isEmpty) * 2 +
    (s.dlr.slots.filter (fun x => x.2.fn == f)).length % 2 ^ 13 * 2 ^ 16

/-! ## The value of a register -/

/-- The index of `b` in a family, if it is one of its registers. -/
def indexIn (b base n st : Nat) : Option Nat := if atStride b base n st then some ((b - base) / (if n = 1 then 1 else st)) else none

/-- Views of one register each. -/
def State.viewOne (s : State) (b : Nat) : Nat :=
  if b = Reg.pwrFref then s.fref
  else if b = Reg.vltSiteSpare then s.siteSpares s.selSite
  else if b = Reg.vltStatus then s.vltStatusReg
  else if b = Reg.vltBistCtrl then s.vltBistReg
  else if b = Reg.dlrStatus then s.dlrStatusReg
  else if b = Reg.pltStatus then s.pltStatusReg
  else if b = Reg.burStatus then putBits (s.reg b) 4 1 (bit s.encBusy)
  else if b = Reg.ngvStatus then s.ngvStatusReg
  else if b = Reg.slcHeld then s.slcHeldReg
  else if b = Reg.fltBudget then s.budgetReg
  else if b = Reg.fltStatus then putBits (s.reg b) 3 1 (bit (!s.standIns.isEmpty))
  else if b = Reg.umpStatus then putBits (s.reg b) 3 1 (bit (s.altValid 1))
  else s.reg b

/-- Views of families. -/
def State.viewFamily (s : State) (b : Nat) : Option Nat :=
  ((indexIn b (Reg.cluState 0) 64 4).map s.cluStateReg).or
  (((indexIn b (Reg.cluRepair 0) 64 8).map s.cluRepairReg).or
  (((indexIn b (Reg.dlrTeamState 0) 64 0x20).map s.teamStateReg).or
  (((indexIn b (Reg.dlrTeamLim 0) 64 0x20).map s.teamLimReg).or
  (((indexIn b (Reg.dlrTeamTurn 0) 64 0x20).map s.teamTurnReg).or
  (((indexIn b (Reg.dlrTeamCtx 0) 64 0x20).map s.teamCtxReg).or
  (((indexIn b (Reg.dlrTeamModel 0) 64 0x20).map s.teamModelReg).or
  (((indexIn b (Reg.pltPoolFree 0) 64 0x20).map s.poolFree).or
  (((indexIn b (Reg.pltPoolRsv 0) 64 0x20).map s.poolRsv).or
  ((indexIn b (Reg.fnStatus 0) 64 0x1000).map s.fnStatusReg)))))))))

/-- The core that a CORE window shows: the copy where the window is served from one (R625), else the core itself. -/
def State.windowCore (s : State) (n : Nat) : Core :=
  match find? s.windows n with
  | some c => if s.shadowServed (0x1000000 + n * 0x1000) then c else s.liveCore n
  | none => s.liveCore n

/-- The value a read of the register at BAR0 offset `b` gives. -/
def State.readReg (s : State) (b : Nat) : Nat :=
  if 16 ≤ blockOf b then (s.windowCore ((b - 0x1000000) / 0x1000)).reg (b % 0x1000)
  else (s.viewFamily b).getD (s.viewOne b)

/-! ## Snapshots (R567, R568) -/

/-- Offsets of a register family. -/
def RegDef.offsets (d : RegDef) : List Nat :=
  (List.range d.n1).flatMap (fun i => (List.range d.n2).map (fun j => d.base + i * d.s1 + j * d.s2))

/-- Is it a 64-bit RO register? -/
def RegDef.latched (d : RegDef) : Bool := d.bytes == 8 && d.writable == 0

/-- The 64-bit RO registers outside the CORE windows, and those of one CORE window. -/
def latchRegs : List Nat := ((regMap.filter (fun d => d.latched && decide (d.base < 0x1000000))).flatMap RegDef.offsets)
def latchCore : List Nat :=
  (regMap.filter (fun d => d.latched && decide (0x1000000 ≤ d.base))).flatMap (fun d => (List.range d.n2).map (fun j => d.base + j * d.s2))

/-- Every 64-bit RO register with its value; a core that has held no state reads as zero throughout. -/
def State.latchAll (s : State) : List (Nat × Nat) :=
  (latchRegs.map (fun b => (b, s.readReg b)) ++
    s.cores.flatMap (fun (c : Nat × CoreCell) => latchCore.map (fun b => (b + 0x1000 * c.1, s.readReg (b + 0x1000 * c.1))))).filter (fun x => x.2 != 0)

end Sys2Proof.Machine
end

