-- ==== Sys2Proof/Machine/Host.lean ====
section
/-! DEFINITION. The host interface: BAR0 reads, BAR2, doorbells, rings, descriptors, MSI-X, BAR4, configuration requests, function
resets (R10, R160, R265, R288, R386, R535 to R548, R568, R576, R598, R610, R622 to R627). -/

namespace Sys2Proof.Machine

/-! ## Waking (R598, R599) -/

/-- The clusters of loaded teams wake at the next FREF boundary. -/
def State.wakeTeams (s : State) : State :=
  s.teams.foldl (fun s t => if t.2.loaded && !t.2.stopped then t.2.clusters.foldl State.wakeCluster s else s) s

/-- A wake starts, or takes effect when the entry into rest completes. -/
def State.startWake (s : State) : State :=
  match s.fld Reg.pwrStatus 0 2 with
  | 2 => (s.setFld Reg.pwrStatus 0 2 3).wakeTeams
  | 1 => { s with clk := { s.clk with wakePending := true } }
  | _ => s

/-! ## BAR0 reads (R10, R536, R537, R540, R541, R568, R622, R623) -/

/-- A read leaves for its requester. -/
def State.answer (s : State) (f size v : Nat) : State := s.emit (.read f .ok (leBytes size v) false)

/-- R540: a rejected read returns all ones and is recorded. -/
def State.rejectRead (s : State) (f : Nat) (st : Status) (bar off len : Nat) : State :=
  (s.reject f st bar off true).emit (.read f st (List.replicate len 255#8) false)

/-- The 64-bit register or part of one that starts at `p` has the value `v`: a whole access, a low word that latches the high one, a
high word that the latch answers, or the live high word (R10). -/
def State.readParts (s : State) (f p off size v : Nat) : State :=
  if size = 8 then s.answer f 8 v
  else if off = p then (s.updFn f (fun x => { x with latch := some (p, bitsOf v 32 32) })).answer f 4 v
  else
    match (s.fn f).latch with
    | some (q, h) =>
      if q = p then (s.updFn f (fun x => { x with latch := none })).answer f 4 h else s.answer f 4 (bitsOf v 32 32)
    | none => s.answer f 4 (bitsOf v 32 32)

/-- The value of an aligned access: VFs see the GLB block and their own page. -/
def State.readReg0 (s : State) (f off size : Nat) : State :=
  if f ≠ 0 && !(decide (off < 0x100000)) && !ownPage f off then s.answer f size 0
  else if 0x2000000 ≤ off then
    (let p := off - off % 8
     let v := look 0 s.shadows (p - 0x2000000)
     s.readParts f p off size v)
  else
    let s1 := if s.shadowServed off then s.bump Reg.hstShadowCnt 1 else s
    match findReg off regMap with
    | none => s1.answer f size 0
    | some (d, b) =>
      let v := s.readReg b - Nat.land (s.readReg b) d.wo
      if d.bytes = 4 then (if size = 4 then s1.answer f 4 v else s.rejectRead f .eAlign 0 off size)
      else
        let p := off - off % 8
        s1.readParts f p off size (v / 2 ^ (8 * (p - b)) % 2 ^ 64)

/-- A host read of BAR0. -/
def State.readBar0 (s : State) (f off size : Nat) : State :=
  if s.linkDown then s
  else if (size ≠ 4 && size ≠ 8) || off % size ≠ 0 then s.rejectRead f .eAlign 0 off size
  else if s.ideBlocks then s.rejectRead f .ePerm 0 off size
  else s.readReg0 f off size

/-! ## BAR2 (R535, R541, R543) -/

/-- A read of BAR2: doorbells are write-only, the table reads as written, no message is ever pending. -/
def State.readBar2 (s : State) (f off size : Nat) : State :=
  if s.linkDown then s
  else if (size ≠ 4 && size ≠ 8) || off % size ≠ 0 then s.rejectRead f .eAlign 1 off size
  else if s.ideBlocks then s.rejectRead f .ePerm 1 off size
  else s.answer f size (look 0 (s.fn f).msix (off - off % 4) + (if size = 8 then look 0 (s.fn f).msix (off + 4) * 2 ^ 32 else 0))

/-- A write of BAR2 outside the doorbells: the reserved range, the MSI-X table, the PBA. -/
def State.writeBar2 (s : State) (f off size v : Nat) : State :=
  if s.linkDown then s
  else
    match firstCheck [((size != 4 && size != 8) || off % size != 0, .eAlign), (s.ideBlocks, .ePerm),
        (decide (0x10 ≤ off) && decide (off < 0x8000), .eArg)] with
    | some st => s.reject f st 1 off false
    | none =>
      if off < 0x8000 || 0xC000 ≤ off then s
      else s.updFn f (fun x =>
        { x with msix :=
            let t := put x.msix off (v % 2 ^ 32)
            if size = 8 then put t (off + 4) (bitsOf v 32 32) else t })

/-! ## Doorbells (R543, R598) -/

/-- Is a doorbell value outside its range: for REQ and CMD counted from HEAD, between the present TAIL and a full ring; for TOK and CPL
between HEAD and TAIL? -/
def State.bellBad (s : State) (f r v : Nat) : Bool :=
  let ahead := (v + 2 ^ 32 - s.reg (Reg.ringHead f r)) % 2 ^ 32
  if r = ringReq || r = ringCmd then decide (ahead < s.ringHeld f r) || decide (s.ringSize f r < ahead)
  else decide (s.ringHeld f r < ahead)

/-- R543: a doorbell of ring `r`. -/
def State.doorbell (s : State) (f r size v : Nat) : State :=
  if s.linkDown then s
  else
    match firstCheck [(size != 4, .eAlign), (s.ideBlocks, .ePerm), (s.ringSt f r != 1, .eState), (s.bellBad f r v, .eRange)] with
    | some st => s.reject f st 1 (4 * r) false
    | none =>
      if r = ringReq || r = ringCmd then
        (let s1 := s.setReg (Reg.ringTail f r) v
         if s.fld Reg.pwrCfg 0 1 = 1 then s1.startWake else s1)
      else s.setReg (Reg.ringHead f r) v

/-- R543: REQ_TAIL. -/
def execReqTail (fn : BitVec 6) (size : Nat) (value : Word) (s : State) : Host.Outcome State Fault Refusal :=
  .next (s.doorbell fn.toNat ringReq size value.toNat)

/-- R543: CMD_TAIL. -/
def execCmdTail (fn : BitVec 6) (size : Nat) (value : Word) (s : State) : Host.Outcome State Fault Refusal :=
  .next (s.doorbell fn.toNat ringCmd size value.toNat)

/-- R543: TOK_HEAD. -/
def execTokHead (fn : BitVec 6) (size : Nat) (value : Word) (s : State) : Host.Outcome State Fault Refusal :=
  .next (s.doorbell fn.toNat ringTok size value.toNat)

/-- R543: CPL_HEAD. -/
def execCplHead (fn : BitVec 6) (size : Nat) (value : Word) (s : State) : Host.Outcome State Fault Refusal :=
  .next (s.doorbell fn.toNat ringCpl size value.toNat)

/-! ## RING_CFG (R543, R544, R553) -/

/-- RING_CFG of ring `r` on page `f` takes the value `v`: setting EN empties the ring and sets it RUN, clearing it disables the ring,
RESTART sets a HALTED ring RUN. -/
def State.ringWrite0 (s : State) (f r v : Nat) : State :=
  let old := s.reg (Reg.ringCfg f r)
  let s1 := s.setReg (Reg.ringCfg f r) (putBits v 1 1 0)
  if !bitOf v 0 then s1.setReg (Reg.ringStat f r) 0
  else if !bitOf old 0 then ((s1.setReg (Reg.ringHead f r) 0).setReg (Reg.ringTail f r) 0).setReg (Reg.ringStat f r) 1
  else if bitOf v 1 && s.ringSt f r == 2 then s1.setReg (Reg.ringStat f r) 1
  else s1

/-- A host write of RING_CFG. -/
def State.ringCfgWrite (s : State) (fn f r v : Nat) : State :=
  let off := Reg.ringCfg f r
  if s.linkDown then s
  else
    match firstCheck (s.accessChecks fn off ++ (bitsOf v 7 25 != 0, .eArg) :: s.ringChecks f r 0x10 (s.reg off) v) with
    | some st => s.reject fn st 0 off false
    | none => s.ringWrite0 f r v

/-- R543: the host enables a ring. -/
def execRingEnable (fn page : BitVec 6) (ring : BitVec 2) (value : Word) (s : State) : Host.Outcome State Fault Refusal :=
  .next (s.ringCfgWrite fn.toNat page.toNat ring.toNat value.toNat)

/-- R544: the host restarts a HALTED ring, which fetches the entry at HEAD again. -/
def execRestart (fn page : BitVec 6) (ring : BitVec 2) (value : Word) (s : State) : Host.Outcome State Fault Refusal :=
  .next (s.ringCfgWrite fn.toNat page.toNat ring.toNat value.toNat)

/-! ## Descriptors (R544, R546, R549, R552) -/

/-- The status of a failed host read (R544). -/
def readStatus : ReadEnd → Option Status
  | .ok => none
  | .unsupported => some .ePerm
  | .abort => some .eMedia
  | .poisoned => some .eMedia
  | .timeout => some .eTimeout

/-- A device read that timed out is counted (Table HST-9). -/
def State.countRead (s : State) (e : ReadEnd) : State := if e = .timeout then s.bump Reg.hstCpltoCnt 1 else s

/-- May the device master a read for a function (R539)? -/
def State.mayRead (s : State) (f : Nat) : Bool := (s.fn f).busMaster && !s.ideBlocks && !s.linkDown

/-- Does a command of the function still run (R544)? -/
def State.cmdRuns (s : State) (f : Nat) : Bool :=
  s.dlr.golden.any (fun g => g.fn == f) ||
    s.teams.any (fun t => t.2.loading.any (fun x => x.1 == f) || t.2.unloading.any (fun x => x.1 == f))

/-- Is a descriptor read of the ring under way: the ring runs and holds an entry, the control plane is awake, and no command of the
ring is unfinished (R544, R597)? -/
def State.fetches (s : State) (f r : Nat) : Bool :=
  s.ringSt f r == 1 && decide (0 < s.ringHeld f r) && s.mayRead f && s.fld Reg.pwrStatus 0 2 == 0 && !s.clk.outOfService &&
    !s.clk.por && !(r == ringCmd && s.cmdRuns f)

/-- R544: a ring goes HALTED with the status of a failed read. -/
def State.haltRing (s : State) (f r : Nat) (st : Status) : State := (s.setReg (Reg.ringStat f r) (2 + statusCode st * 4)).msi f 2

/-- A descriptor that names no request or command is answered with its refusal (R540, R549, R552, Table DLR-2). -/
def State.refuseDesc (s : State) (f idx : Nat) (cmd : Bool) (d : Nat) : State :=
  let tag := bitsOf d 32 32
  if cmd then
    if f ≠ 0 && bitsOf d 0 8 ≠ 8 then s.cmdDone f tag idx .ePerm 0
    else if bitsOf d 0 8 = 0 || 10 < bitsOf d 0 8 then s.cmdDone f tag idx .eUnsupported 0
    else s
  else if bitsOf d 0 4 = 1 || bitsOf d 0 4 = 2 then s
  else s.post f ringCpl (cplRecord tag .eArg false false true 0 0 idx)

/-- R544: a descriptor read ends. One that came back whole is taken and HEAD passes it; its request or command follows as a command of
its own, and one that names none is refused here. -/
def execDescriptorFetch (fn : BitVec 6) (cmd : Bool) (fin : ReadEnd) (d : BitVec 1024) (s : State) :
    Host.Outcome State Fault Refusal :=
  let f := fn.toNat
  let r := if cmd then ringCmd else ringReq
  .next (if !s.fetches f r then s
    else
      match readStatus fin with
      | some st => (s.countRead fin).haltRing f r st
      | none =>
        let idx := s.reg (Reg.ringHead f r)
        (s.setReg (Reg.ringHead f r) ((idx + 1) % 2 ^ 32)).refuseDesc f idx cmd d.toNat)

/-- R544: a descriptor read gets no completion within CPL_TO. -/
def execDescriptorReadTimeout (fn : BitVec 6) (cmd : Bool) (s : State) : Host.Outcome State Fault Refusal :=
  let f := fn.toNat
  let r := if cmd then ringCmd else ringReq
  .next (if s.fetches f r then (s.countRead .timeout).haltRing f r .eTimeout else s)

/-- The token history takes a prompt, and the OPEN record is written (R487, R546). -/
def State.takePrompt (s : State) (n : Nat) (x : Slot) (bytes : List Byte) : State :=
  ((s.writeGddr (x.histAddr + 64) bytes).updSlot n (fun x => { x with prompted := true })).writeOpen x bytes

/-- R546: the read of an admitted request's prompt ends. -/
def execPromptRead (slot : BitVec 13) (tokens : List Word) (fin : ReadEnd) (s : State) : Host.Outcome State Fault Refusal :=
  let n := slot.toNat
  .next (match s.slot? n with
    | none => s
    | some x =>
      if x.st ≠ .prefill || x.refine || x.prompted || !s.mayRead x.fn then s
      else
        match readStatus fin with
        | some _ => s.examineAfter ((s.countRead fin).endReq n .eMedia)
        | none =>
          if tokens.length ≠ x.promptLen || !s.ringReady proofRing 64 then s
          else s.takePrompt n x (tokens.flatMap (fun (t : Word) => leBytes 4 t.toNat)))

/-! ## Records and interrupts (R545, R547) -/

/-- R545: deferred records of a function are posted once their cause clears. -/
def execRecordPost (fn : BitVec 6) (s : State) : Host.Outcome State Fault Refusal := .next (s.examineAfter (s.flush fn.toNat))

/-- R547: FN_IRQ.DELAY has passed since the first record after a vector's last message. -/
def execIrqDelayExpiry (fn : BitVec 6) (vector : BitVec 1) (s : State) : Host.Outcome State Fault Refusal :=
  let f := fn.toNat
  let v := vector.toNat
  .next (if nth 0 (s.fn f).irq v = 0 || s.fld (Reg.fnIrq f) 8 16 = 0 then s
    else (s.updFn f (fun x => { x with irq := setNth x.irq v 0 })).msi f v)

/-! ## Resets of functions (R548, R576, R610) -/

/-- Registers return to their reset values. -/
def State.resetRegs (s : State) (p : Nat → Bool) : State := { s with regs := s.regs.filter (fun r => !p r.1) }

/-- Is the offset a ring or IRQ register of function `f`? -/
def fnReset (f a : Nat) : Bool :=
  a == Reg.fnIrq f || (decide (Reg.ringBase f 0 ≤ a) && decide (a < Reg.ringBase f 4))

/-- R548: an FLR of function `f`: QUEUED requests end without a record, running ones are cancelled and their records discarded. -/
def State.flr (s : State) (f : Nat) : State :=
  let mine := s.dlr.slots.filter (fun x => x.2.fn == f)
  let s1 := mine.foldl (fun s x =>
    if x.2.st = .queued || x.2.st = .ending then s.freeReq x.1
    else s.updSlot x.1 (fun y => { y with cancel := true, discard := true })) s
  (s1.updFn f (fun _ => {})).resetRegs (fnReset f)

/-- Every VF. -/
def State.flrVfs (s : State) : State := (List.range 63).foldl (fun s k => s.flr (k + 1)) s

/-- VF Enable is cleared (R548). -/
def State.vfDisable (s : State) : State :=
  let s1 := s.flrVfs.setFld Reg.hstLink 11 6 0
  { s1 with hst := { s1.hst with vfEnable := false } }

/-- R576: an owner's claims are released. -/
def State.releaseClaims (s : State) (owner : Nat) : State :=
  s.resetRegs (fun a => atStride a (Reg.shcClaim 0) 32 4 && s.fld a 0 3 == owner)

/-- R548: a VF's function level reset. -/
def execVfFlr (fn : BitVec 6) (s : State) : Host.Outcome State Fault Refusal :=
  .next (if fn = 0#6 || s.linkDown then s else s.examineAfter (s.flr fn.toNat))

/-- Configuration space of the PF returns to reset. -/
def State.pfConfig (s : State) : State :=
  { s with hst := { s.hst with config := s.hst.config.filter (fun c => c.1 != 0), bar4 := 28 } }

/-- R548, R576: the PF's function level reset: VF Enable is cleared, host claims are released. -/
def execPfFlr (s : State) : Host.Outcome State Fault Refusal :=
  .next (if s.linkDown then s else s.examineAfter (((s.flr 0).vfDisable.pfConfig).releaseClaims 5))

/-- R609, R610: PERST# resets every function and the HST block. While POR# is low it has no effect of its own. -/
def execPerst (s : State) : Host.Outcome State Fault Refusal :=
  .next (if s.clk.por then s
    else
      let s1 := ((s.flr 0).vfDisable.releaseClaims 5).resetRegs (fun a => decide (0x300000 ≤ a) && decide (a < 0x400000))
      let mine := fun (r : BgReq) => match r.owner with
        | .host _ => false
        | _ => true
      s.examineAfter { s1 with
        hst := { perst := true }
        bgq := (s1.bgq.map (fun (q : Nat × List BgReq) => (q.1, q.2.filter mine))).filter (fun q => !q.2.isEmpty) })

/-- R610: PERST# is released and the link trains to a rate, a width and a mode (Table HST-11). -/
def execPerstRelease (rate : BitVec 3) (width : BitVec 5) (flit : Bool) (s : State) : Host.Outcome State Fault Refusal :=
  .next (if s.clk.por || decide (5 < rate.toNat) then s
    else
      let s1 := s.setFld Reg.hstLink 0 9 (rate.toNat + width.toNat * 2 ^ 3 + bit flit * 2 ^ 8)
      { s1 with hst := { s1.hst with perst := false } })

/-! ## Configuration requests and IDE (R535, R538, R539, R548) -/

/-- Bytes of configuration space as the host last wrote them. -/
def State.configWord (s : State) (f off : Nat) : Option Nat :=
  ((s.hst.config.find? (fun c => c.1 == f && c.2.1 == off)).map (fun c => c.2.2))

/-- R538: a configuration request is served at all times outside PERST# and POR#. A word that nothing has written reads as the standard
and the fuses give it: a free value (log entry 2). -/
def execConfigRequest (fn : BitVec 6) (req : ConfigReq) (s : State) : Host.Outcome State Fault Refusal :=
  let f := fn.toNat
  .next (if s.linkDown then s
    else
      match req with
      | .read off =>
        (match s.configWord f off.toNat with
        | some v => s.answer f 4 v
        | none => { s.answer f 4 ((Config.freeValue s.freeCount).toNat % 2 ^ 32) with freeCount := s.freeCount + 1 })
      | .write off value =>
        { s with hst := { s.hst with config :=
            (f, off.toNat, value.toNat) :: s.hst.config.filter (fun c => !(c.1 == f && c.2.1 == off.toNat)) } }
      | .busMaster on => s.updFn f (fun x => { x with busMaster := on })
      | .vfEnable on num =>
        if f ≠ 0 then s
        else if on then
          (let s1 := s.setFld Reg.hstLink 11 6 num.toNat
           { s1 with hst := { s1.hst with vfEnable := true } })
        else if s.hst.vfEnable then s.vfDisable else s
      | .bar4Size log2 =>
        if f ≠ 0 || log2.toNat < 28 || 36 < log2.toNat then s
        else { s with hst := { s.hst with bar4 := log2.toNat } })

/-- R539: a received TLP fails its integrity check; a Secure stream goes Insecure. -/
def execIdeIntegrityFail (s : State) : Host.Outcome State Fault Refusal :=
  .next (if s.fld Reg.hstLink 9 2 = 1 then s.setFld Reg.hstLink 9 2 2 else s)

/-! ## The request table (R386, R542) -/

/-- A chain descriptor (Table PLT-3). -/
def Chain.word (c : Chain) : Nat :=
  c.log2n % 16 + (c.kvw - 1) % 8 * 2 ^ 4 + c.depth % 8 * 2 ^ 8 + c.jb % 32 * 2 ^ 11 + c.lhb % 16 * 2 ^ 16 + c.hpool % 64 * 2 ^ 20 +
    c.ver % 2 ^ 32 * 2 ^ 32 + c.root % 2 ^ 64 * 2 ^ 64

/-- A request slot as memory holds it (Table DLR-3). -/
def Slot.word (x : Slot) (chain : Nat) : Nat :=
  x.st.code + x.cls % 4 * 2 ^ 4 + bit x.waitf * 2 ^ 6 + bit x.refine * 2 ^ 7 + x.dpol % 4 * 2 ^ 8 + bit x.cancel * 2 ^ 10 +
    bit x.late * 2 ^ 11 + x.d % 8 * 2 ^ 12 + x.tenant % 64 * 2 ^ 16 + x.team.getD 0 % 64 * 2 ^ 22 + bit x.team.isSome * 2 ^ 28 +
    x.fn % 64 * 2 ^ 32 + x.tag % 2 ^ 32 * 2 ^ 64 + x.model % 2 ^ 16 * 2 ^ 96 + x.delta % 2 ^ 16 * 2 ^ 112 +
    x.seed % 2 ^ 128 * 2 ^ 128 + x.temp % 2 ^ 32 * 2 ^ 256 + x.topK % 2 ^ 9 * 2 ^ 288 + x.topP % 2 ^ 16 * 2 ^ 304 +
    x.deadline % 2 ^ 64 * 2 ^ 320 + x.maxTokens % 2 ^ 32 * 2 ^ 384 + x.promptLen % 2 ^ 32 * 2 ^ 416 +
    x.committed % 2 ^ 32 * 2 ^ 448 + x.tentative % 2 ^ 32 * 2 ^ 480 + x.generated % 2 ^ 32 * 2 ^ 512 +
    x.arrival % 2 ^ 64 * 2 ^ 576 + x.histAddr % 2 ^ 64 * 2 ^ 640 + chain * 2 ^ 704 + x.rpool % 64 * 2 ^ 832 +
    x.tpool % 64 * 2 ^ 838 + x.rslots % 2 ^ 32 * 2 ^ 848 + x.tslots % 2 ^ 32 * 2 ^ 880 + x.rnodes % 2 ^ 16 * 2 ^ 912 +
    x.sliceRank % 2 ^ 8 * 2 ^ 928 + x.sliceSize % 2 ^ 8 * 2 ^ 936 + x.lead % 2 ^ 12 * 2 ^ 944 + x.leadSlot % 2 ^ 13 * 2 ^ 960

/-- The 128 bytes of slot `n` as function `f` sees them: a VF sees its own slots. -/
def State.slotBytesFor (s : State) (f n : Nat) : List Byte :=
  match s.slot? n with
  | none => zeroBytes 128
  | some x => if f ≠ 0 && x.fn ≠ f then zeroBytes 128 else leBytes 128 (x.word (((s.chain? n).map Chain.word).getD 0))

/-- Bytes of the request table. -/
def State.tableBytes (s : State) (f off len : Nat) : List Byte :=
  (((List.range (ceilDiv (off % 128 + len) 128)).flatMap (fun k => s.slotBytesFor f (off / 128 + k))).drop (off % 128)).take len

/-! ## The PF's window onto the local address space (R160, R265, R541, Tables HST-3, REG-7, REG-8) -/

/-- Does the team of a core run turns: it is loaded and not stopped (R160, R265)? -/
def State.teamBusy (s : State) (n : Nat) : Bool := (s.teamRec n).loaded && !(s.teamRec n).stopped

/-- Is the address in the request table? -/
def inReqTable (a : Nat) : Bool := decide (cpBase ≤ a) && decide (a < cpBase + 0x100000)

/-- What Table HST-3 rejects an access of one byte with, at local address `a`. R627 judges a core window of a team that does not run
turns. -/
def State.byteRejects (s : State) (write : Bool) (a : Nat) : List (Bool × Status) :=
  if inReqTable a then [(write, .ePerm)]
  else
    (s.resting, .eState) ::
    (if inVaults a then
      [(write && s.inWeights a 1, .ePerm), (write && s.teamBusy (a / 2 ^ 24), .eBusy)]
    else if inGddr a then [(write && s.inGold a 1, .ePerm), (!s.gddrOk a 1, .eRange)]
    else if inWindows a then
      (let n := (a - coreWindow 0) / 0x20000
       let o := (a - coreWindow 0) % 0x20000
       if s.teamBusy n then [(true, .eBusy)]
       else
         [((s.cluster (clusterOf n)).dom != .run, .eState),
          (write && (s.teamRec n).loaded && decide (o < (s.core n).resTop), .ePerm), (decide (0x14000 ≤ o), .eRange)])
    else if inCpSram a then [(true, .ePerm)]
    else [(true, .eRange)])

/-- The status of a rejected TLP, by the order of R541; none where no byte of it is rejected. -/
def State.tlpStatus (s : State) (write : Bool) (a len : Nat) : Option Status :=
  let all := (List.range len).flatMap (fun k => ((s.byteRejects write (a + k)).filter Prod.fst).map Prod.snd)
  [Status.eState, .ePerm, .eBusy, .eRange].find? (fun st => all.contains st)

/-- A read of the PF's window that is not rejected. -/
def State.windowRead (s : State) (a len : Nat) : State :=
  if inVaults a then s.bgAsk (bgReqs (.host 0) a len 0 none)
  else if inReqTable a then s.emit (.read 0 .ok (s.tableBytes 0 (a - cpBase) len) false)
  else
    let r := s.readLocal a len
    r.1.emit (.read 0 .ok r.2.2 (r.2.1 == .eMedia))

/-- An access of the PF through BAR4: rejected by Table HST-3, or carried out. -/
def State.windowAccess (s : State) (a o len : Nat) (data : Option (List Byte)) : State :=
  match data, s.tlpStatus data.isSome a len with
  | none, some st => s.rejectRead 0 st 2 o len
  | none, none => s.windowRead a len
  | some _, some st => s.reject 0 st 2 o false
  | some bs, none => if inVaults a then s.bgAsk (bgReqs (.host 0) a len 0 (some bs)) else (s.writeLocal a bs).1

/-- R306: while the device wakes, an access to GDDR waits until its regions are retrained. -/
def State.windowOrWait (s : State) (a o len : Nat) (data : Option (List Byte)) : State :=
  if s.fld Reg.pwrStatus 0 2 = 3 && inGddr a then { s with hst := { s.hst with bar4Wait := s.hst.bar4Wait ++ [(a, o, len, data)] } }
  else s.windowAccess a o len data

/-- The accesses that waited for the retrains of a wake, in order. -/
def State.serveWaiting (s : State) : State :=
  s.hst.bar4Wait.foldl (fun s x => s.windowAccess x.1 x.2.1 x.2.2.1 x.2.2.2) { s with hst := { s.hst with bar4Wait := [] } }

/-- R541, R542: a host read through BAR4. -/
def execBar4Read (fn : BitVec 6) (off : BitVec 36) (len : Nat) (s : State) : Host.Outcome State Fault Refusal :=
  let f := fn.toNat
  let o := off.toNat
  .next (if s.linkDown || len = 0 then s
    else if s.ideBlocks then s.rejectRead f .ePerm 2 o len
    else if f ≠ 0 then
      (if 0x100000 < o + len then s else s.emit (.read f .ok (s.tableBytes f o len) false))
    else if 2 ^ s.hst.bar4 < o + len then s
    else s.windowOrWait (s.reg Reg.hstBar4Base + o) o len none)

/-- R541, R542: a host write through BAR4. -/
def execBar4Write (fn : BitVec 6) (off : BitVec 36) (data : List Byte) (poisoned : Bool) (s : State) :
    Host.Outcome State Fault Refusal :=
  let f := fn.toNat
  let o := off.toNat
  .next (if s.linkDown || data.isEmpty then s
    else if f = 0 && decide (2 ^ s.hst.bar4 < o + data.length) then s
    else
      match firstCheck [(s.ideBlocks, .ePerm), (f != 0, .ePerm), (poisoned, .eMedia)] with
      | some st => s.reject f st 2 o false
      | none => s.windowOrWait (s.reg Reg.hstBar4Base + o) o data.length (some data))

end Sys2Proof.Machine
end

