-- ==== Sys2Proof/Machine/Chain.lean ====
section
/-! DEFINITION. The Uhloc chains: frames, forwarding, acknowledgement, wrapping, roles, the roster, rack time, snapshots, fault
broadcasts (R555 to R569, R581). -/

namespace Sys2Proof.Machine

/-! ## Frames (R557, Tables MGT-1, MGT-2) -/

/-- CRC-16 with polynomial 0x1021, most significant bit first. -/
def crc16Bits : Nat → Nat → Nat
  | 0, c => c
  | k + 1, c => crc16Bits k (if 0x8000 ≤ c then Nat.xor (2 * c % 65536) 0x1021 else 2 * c % 65536)

def crc16 : List Byte → Nat → Nat
  | [], c => c
  | b :: bs, c => crc16 bs (crc16Bits 8 (Nat.xor c (b.toNat * 256)))

/-- The 32 bytes of a frame as a number. -/
def frameWord (typ : Nat) (retry leadB och : Bool) (seq orig cnt payload : Nat) : Nat :=
  let w := typ % 2 ^ 8 + bit retry * 2 ^ 8 + bit leadB * 2 ^ 9 + bit och * 2 ^ 10 + seq % 2 ^ 16 * 2 ^ 16 + orig % 2 ^ 7 * 2 ^ 32 +
    cnt % 2 ^ 8 * 2 ^ 40 + payload % 2 ^ 192 * 2 ^ 48
  w + crc16 (leBytes 30 w) 0xFFFF * 2 ^ 240

/-- Frame types. -/
def frmEnum : Nat := 1
def frmRoster : Nat := 2
def frmTime : Nat := 3
def frmSnap : Nat := 4
def frmFault : Nat := 5
def frmOpen : Nat := 6
def frmData : Nat := 7
def frmClose : Nat := 8
def frmResult : Nat := 9

/-! ## This device on the chains (R556, R560, R561) -/

def State.uhlRole (s : State) : Nat := s.fld Reg.uhlStatus 0 2
def State.acting (s : State) : Bool := s.fld Reg.uhlStatus 2 1 == 1
def State.position (s : State) : Nat := s.fld Reg.uhlStatus 7 7
def State.locked (s : State) : Bool := s.fld Reg.uhlStatus 22 1 == 1
def State.ticks (s : State) : Nat := s.reg Reg.glbTicks

/-- Is the input of a chain (0 A, 1 B) lost? -/
def State.inputLost (s : State) (c : Nat) : Bool := listed s.mgt.lost c

/-- Are the chains in use and the device out of POR#? -/
def State.chainsOn (s : State) : Bool := s.uhlRole != 3 && !s.clk.por

/-- The port by which a frame of chain `c` leaves. The neighbour that chain `c` drives feeds the input of the other chain; while that
is lost, frames leave toward the other neighbour (R560). -/
def State.outPort (s : State) (c : Nat) : Option Nat :=
  if !s.inputLost (1 - c) then some c else if s.inputLost c then none else some (1 - c)

/-- A frame leaves. -/
def State.sendFrame (s : State) (c typ word : Nat) : State :=
  match s.outPort c with
  | some p => s.emit (.frame p typ word)
  | none => s

/-- R559: a frame of this device leaves on both chains with one sequence number. -/
def State.sendBoth (s : State) (typ seq payload : Nat) (retry : Bool) : State :=
  let leadB := s.acting && s.uhlRole == 2
  (s.sendFrame 0 typ (frameWord typ retry leadB false seq s.position 0 payload)).sendFrame 1 typ
    (frameWord typ retry leadB true seq s.position 0 payload)

/-- This device originates a frame: it needs a position (R562). -/
def State.originate (s : State) (typ payload : Nat) (acked : Bool) : State :=
  if !s.chainsOn || !s.mgt.placed then s
  else
    let q := s.mgt.seq
    let s1 := s.sendBoth typ q payload false
    { s1 with mgt := { s1.mgt with
        seq := (q + 1) % 2 ^ 16
        unacked := s1.mgt.unacked ++ (if acked then [⟨typ, q, payload, 3, s.ticks⟩] else []) } }

/-! ## The roster (R562) -/

/-- Entries PRESENT. -/
def State.presentAt (s : State) : List Nat := (List.range 128).filter (fun p => s.fld (Reg.uhlRoster p) 13 1 == 1)
def State.countMembers (s : State) : State := s.setFld Reg.uhlStatus 14 8 s.presentAt.length

/-- Record a device at a position. -/
def State.setRoster (s : State) (p id serial : Nat) : State :=
  (((s.setFld (Reg.uhlRoster p) 0 13 id).setFld (Reg.uhlRoster p) 13 1 1).setReg (Reg.uhlRosterSer p) serial).countMembers

/-- DEV_ID and ID_VALID of this device. -/
def State.idWord (s : State) : Nat := s.reg Reg.ngvId % 2 ^ 13

/-- This device records and announces itself. -/
def State.announce (s : State) : State :=
  (s.setRoster s.position s.idWord (s.reg Reg.ngvSerial)).originate frmRoster
    (s.position + s.idWord * 2 ^ 8 + s.reg Reg.ngvSerial % 2 ^ 64 * 2 ^ 24) false

/-- Every entry is marked absent until its ROSTER frame arrives again. -/
def State.clearRoster (s : State) : State :=
  (s.presentAt.foldl (fun s p => s.setFld (Reg.uhlRoster p) 13 1 0) s).countMembers

/-- Take a position. -/
def State.takePosition (s : State) (p : Nat) : State :=
  let s1 := (s.setFld Reg.uhlStatus 7 7 p).setFld Reg.uhlStatus 24 1 0
  { s1 with mgt := { s1.mgt with placed := true } }

/-- R562: the acting lead sends ENUM with CNT 0. -/
def State.sendEnum (s : State) : State := (((s.takePosition 0).clearRoster).originate frmEnum 0 true).announce

/-- This device becomes the acting lead (R561). -/
def State.startActing (s : State) : State := (s.setFld Reg.uhlStatus 2 1 1).sendEnum

/-! ## Chain status (R560) -/

/-- Is a chain up: its input holds lock and a TIME frame has arrived on it within the last 4 ticks? -/
def State.chainUp (s : State) (c : Nat) : Bool :=
  s.chainsOn && !s.inputLost c && (find? s.mgt.timeTick c).any (fun t => decide (s.ticks ≤ t + 4))

/-- CH_A or CH_B (Table MGT-9). -/
def State.chainCode (s : State) (c : Nat) : Nat := if !s.chainUp c then 0 else if s.inputLost (1 - c) then 2 else 1

/-- A chain's status as it now stands; one lost or regained is logged (Table FLT-1; log entry 186), and the acting lead enumerates a chain that comes
up. -/
def State.refreshChain (s : State) (c : Nat) : State :=
  let was := s.fld Reg.uhlStatus (3 + 2 * c) 2
  let now := s.chainCode c
  let s1 := s.setFld Reg.uhlStatus (3 + 2 * c) 2 now
  if (was == 0) == (now == 0) then s1
  else
    let s2 := s1.logFault { src := srcChain, loc := c, action := if s1.chainsUp = 0 then 6 else 0 }
    if was = 0 && s2.acting then s2.sendEnum else s2

def State.refreshChains (s : State) : State := (s.refreshChain 0).refreshChain 1

/-! ## Receiving (R558, R559) -/

/-- Has a copy of the frame been seen; one sent on a given chain? -/
def State.seenCopy (s : State) (h : FrameHdr) (och : Bool) : Bool :=
  s.mgt.seen.contains (2 * h.orig.toNat + bit och, h.seq.toNat)
def State.seenFrame (s : State) (h : FrameHdr) : Bool := s.seenCopy h false || s.seenCopy h true

/-- Note a copy. Numbers half the sequence space behind are forgotten. -/
def State.noteCopy (s : State) (h : FrameHdr) : State :=
  let k := 2 * h.orig.toNat + bit h.och
  let q := h.seq.toNat
  if s.seenCopy h h.och then s
  else { s with mgt := { s.mgt with seen := (k, q) :: s.mgt.seen.filter (fun e =>
    !(e.1 == k && decide (2 ^ 15 ≤ (q + 2 ^ 16 - e.2) % 2 ^ 16))) } }

/-- Does the frame carry this device's position? -/
def State.isHome (s : State) (h : FrameHdr) : Bool := s.mgt.placed && h.orig.toNat == s.position

/-- May a frame arrive on the chain it names? -/
def State.hears (s : State) (h : FrameHdr) : Bool := s.chainsOn && !s.inputLost (bit h.chain)

/-- R558: a frame leaves again with its CNT. -/
def State.forward (s : State) (h : FrameHdr) (typ payload : Nat) (count : Bool) : State :=
  s.sendFrame (bit h.chain) typ (frameWord typ h.retry h.leadB h.och h.seq.toNat h.orig.toNat (h.cnt.toNat + bit count) payload)

/-- R559: a frame of this device comes home. With the members' count less one it is delivered. -/
def State.frameHome (s : State) (h : FrameHdr) (typ : Nat) : State :=
  if !s.mgt.unacked.any (fun f => f.seq == h.seq.toNat && f.typ == typ) then s
  else
    let s1 := if typ = frmSnap then
        s.setFld Reg.uhlSnapAck 0 8 (max (s.fld Reg.uhlSnapAck 0 8) h.cnt.toNat)
      else s
    if h.cnt.toNat + 1 ≠ s.fld Reg.uhlStatus 14 8 then s1
    else
      let s2 := if typ = frmSnap then s1.setFld Reg.uhlSnapAck 8 1 1 else s1
      { s2 with mgt := { s2.mgt with unacked := s2.mgt.unacked.filter (fun f => f.seq != h.seq.toNat) } }

/-- R558, R559: a frame of another device: the first copy acts, `accepts` says of the state after it whether the device counts itself,
and every copy is forwarded. -/
def State.recv (s : State) (h : FrameHdr) (typ payload : Nat) (accepts : State → Bool) (act : State → State) : State :=
  if !s.hears h then s
  else if s.isHome h then s.frameHome h typ
  else
    let s1 := if s.seenFrame h then s else act s
    (s1.noteCopy h).forward h typ payload (accepts s1 && (h.retry || !s.seenCopy h h.och))

/-! ## ENUM and ROSTER (R562) -/

/-- R562: the first copy gives a member its position, and the device announces itself; beyond 128 devices it takes none. Every copy is
counted. -/
def execEnum (h : FrameHdr) (s : State) : Host.Outcome State Fault Refusal :=
  .next (if !s.hears h then s
    else if s.isHome h then s.frameHome h frmEnum
    else
      let p := h.cnt.toNat + 1
      let s1 := if s.seenFrame h then s
        else if 128 ≤ p then
          (let s2 := s.clearRoster.setFld Reg.uhlStatus 24 1 1
           { s2 with mgt := { s2.mgt with placed := false } })
        else (s.clearRoster.takePosition p).announce
      (s1.noteCopy h).forward h frmEnum 0 true)

/-- R562: a device is recorded at the position its ROSTER frame names. -/
def execRoster (h : FrameHdr) (pos : BitVec 7) (dev : BitVec 12) (valid : Bool) (serial : Dword) (s : State) :
    Host.Outcome State Fault Refusal :=
  let id := dev.toNat + bit valid * 2 ^ 12
  .next (s.recv h frmRoster (pos.toNat + id * 2 ^ 8 + serial.toNat * 2 ^ 24) (fun _ => false)
    (fun s => s.setRoster pos.toNat id serial.toNat))

/-! ## Rack time (R563 to R565) -/

/-- Reference cycles of a tick. -/
def tickCycles : Nat := 156250

/-- The number that the next edge has by the device's own count. -/
def State.nextEdge (s : State) : Nat := s.reg Reg.uhlRrc / tickCycles + 1

/-- R564: what a TIME frame that names the next edge's number does to the lock. -/
def State.learnTime (s : State) (n : Nat) : State :=
  let now := s.ticks
  let m := s.mgt
  if !s.locked then
    (if m.times = some (n - 1, now - 1) && decide (0 < now) then
      { s.setFld Reg.uhlStatus 22 1 1 with mgt := { m with
          times := some (n, now), disagree := none, stepTime := if m.started && s.nextEdge == n then none else some (n, false) } }
    else { s with mgt := { m with times := some (n, now) } })
  else
    let d : Int := (n : Int) - (s.nextEdge : Int)
    if n = s.nextEdge || m.stepTime = some (n, false) || m.stepTime = some (n, true) then
      { s with mgt := { m with times := some (n, now), disagree := none } }
    else if m.disagree = some d then
      { s with mgt := { m with times := some (n, now), disagree := none, stepTime := some (n, true) } }
    else { s with mgt := { m with times := some (n, now), disagree := some d } }

/-- The first copy of a TIME frame tells the time. -/
def State.timeCopy (s : State) (h : FrameHdr) (n : Nat) : State := (if s.seenFrame h then s else s.learnTime n).noteCopy h

/-- R561: of two acting leads, does this device yield to the one whose TIME frame it hears? -/
def State.yields (s : State) (leadB : Bool) (serial : Nat) : Bool :=
  if s.uhlRole = 2 && !leadB then true
  else if s.uhlRole = 1 && leadB then false
  else decide (serial < s.reg Reg.ngvSerial)

/-- R560, R561, R564: a TIME frame arrives, with the NGV_SERIAL of the device that sent it. -/
def execTime (h : FrameHdr) (n serial : Dword) (s : State) : Host.Outcome State Fault Refusal :=
  .next (if !s.hears h then s
    else
      let s0 := ({ s with mgt := { s.mgt with timeTick := put s.mgt.timeTick (bit h.chain) s.ticks } }).refreshChains
      let member := fun (s : State) =>
        (({ s with mgt := { s.mgt with heard := s.ticks + 1, heardB := s.mgt.heardB || h.leadB } }).timeCopy h n.toNat).forward h frmTime n.toNat false
      if serial.toNat = s0.reg Reg.ngvSerial then (if s0.acting then s0.timeCopy h n.toNat else s0)
      else if s0.acting then
        (if s0.yields h.leadB serial.toNat then
          (let s1 := (s0.setFld Reg.uhlStatus 2 1 0).bump Reg.uhlLeadConflictCnt 1
           member { s1 with mgt := { s1.mgt with placed := false } })
        else s0)
      else member s0)

/-- R561: the backup acts after 8 ticks without a TIME frame of another lead, and so does a strapped lead that had stayed passive. -/
def execLeadTakeover (s : State) : Host.Outcome State Fault Refusal :=
  let quiet := decide (max s.mgt.heard 1 + 8 ≤ s.ticks + 1)
  .next (if s.acting || !s.chainsOn then s
    else if (s.uhlRole = 2 && quiet) || (s.uhlRole = 1 && quiet && decide (16 ≤ s.ticks)) then s.startActing
    else s)

/-- RRC at edge number `n`. -/
def State.atEdge (s : State) (n : Nat) : State :=
  let s1 := s.setReg Reg.uhlRrc (n * tickCycles)
  { s1 with mgt := { s1.mgt with edge := 1, offEdges := 0, started := true } }

/-- R563, R564, R565: a RACKSYNC edge is sampled `off` reference cycles from the expected count. -/
def execRacksyncEdge (off : Int) (s : State) : Host.Outcome State Fault Refusal :=
  let m := s.mgt
  let s0 := s.setFld Reg.clkStatus 9 1 1
  .next (if s.clk.por then s
    else
      match m.stepTime with
      | some (n, step) =>
        (let s1 := s0.atEdge n
         { (if step then s1.setFld Reg.uhlStatus 23 1 1 else s1) with mgt := { s1.mgt with stepTime := none } })
      | none =>
        match m.rtSet with
        | some n =>
          (let s1 := s0.atEdge n
           { s1 with mgt := { s1.mgt with rtSet := none } })
        | none =>
          if !m.started then s0.atEdge 0
          else if !s.locked || decide (off.natAbs ≤ 2) then s0.atEdge s.nextEdge
          else
            let k := if m.offset = off then m.offEdges + 1 else 1
            let s1 := s0.bump Reg.uhlSyncMissCnt 1
            if 4 ≤ k then
              (let s2 := (s1.setFld Reg.uhlStatus 22 1 0).atEdge s.nextEdge
               { s2 with mgt := { s2.mgt with times := none } })
            else { s1 with mgt := { s1.mgt with edge := 2, offEdges := k, offset := off } })

/-- R565: the host names the number that the next edge takes. -/
def execUhlRtSet (fn : BitVec 6) (value : Dword) (s : State) : Host.Outcome State Fault Refusal :=
  let v := value.toNat
  .next (s.hostWrite fn Reg.uhlRtSet [(decide (v < s.nextEdge), .eRange), (!s.acting, .eState)]
    (fun s => { s with mgt := { s.mgt with rtSet := some v } }))

/-! ## Snapshots (R566 to R568) -/

/-- A snapshot is pending. -/
def State.pendSnap (s : State) (num t : Nat) : State :=
  let s1 := s.setFld Reg.uhlStatus 25 1 1
  { s1 with mgt := { s1.mgt with snap := some (num, t) } }

/-- R566: the host asks for a snapshot across the rack. The lead latches as the others do. -/
def execUhlSnapT (fn : BitVec 6) (value : Dword) (s : State) : Host.Outcome State Fault Refusal :=
  let t := value.toNat
  let rrc := s.reg Reg.uhlRrc
  .next (s.hostWrite fn Reg.uhlSnapT
    [(!s.acting || !s.locked, .eState),
     (s.mgt.unacked.any (fun f => f.typ == frmSnap) || s.mgt.snapSent.any (fun u => decide (rrc < u)) || s.mgt.snap.isSome, .eBusy),
     (decide (t < rrc + tickCycles), .eRange)]
    (fun s =>
      let num := (s.reg Reg.uhlSnapStat + 1) % 2 ^ 32
      let s1 := (((s.setReg Reg.uhlSnapT t).setReg Reg.uhlSnapStat num).setReg Reg.uhlSnapAck 0).pendSnap num t
      ({ s1 with mgt := { s1.mgt with snapSent := some t } }).originate frmSnap (num + t * 2 ^ 32) true))

/-- R567: a SNAP frame. -/
def execSnap (h : FrameHdr) (num : Word) (t : Dword) (s : State) : Host.Outcome State Fault Refusal :=
  let n := num.toNat
  .next (s.recv h frmSnap (n + t.toNat * 2 ^ 32) (fun s => s.mgt.snap.any (fun p => p.1 == n)) (fun s =>
    if t.toNat ≤ s.reg Reg.uhlRrc then s.bump Reg.uhlSnapLateCnt 1
    else
      match s.mgt.snap with
      | some p => if p.1 = n then s else s.bump Reg.uhlSnapDropCnt 1
      | none => s.pendSnap n t.toNat))

/-- R567: RRC becomes T: every 64-bit RO register is latched. -/
def execSnapLatch (s : State) : Host.Outcome State Fault Refusal :=
  .next (match s.mgt.snap with
    | none => s
    | some (num, t) =>
      let s1 := s.setReg Reg.uhlRrc (max (s.reg Reg.uhlRrc) t)
      let s2 := { s1 with shadows := s1.latchAll, mgt := { s1.mgt with snap := none } }
      ((s2.setReg Reg.telSnapSeq num).setReg Reg.telSnapT t).setFld Reg.uhlStatus 25 1 0)

/-! ## Fault broadcasts (R569) -/

/-- Kinds of Table MGT-3. -/
def kindOut : Nat := 1
def kindNeighbour : Nat := 2
def kindDegraded : Nat := 3

/-- R569: originate a FAULT frame about the device at position `p`, and have it sent twice more. -/
def State.broadcast (s : State) (id p kind : Nat) : State :=
  let payload := id + p * 2 ^ 16 + kind * 2 ^ 24
  if !s.chainsOn || !s.mgt.placed then s
  else
    let q := s.mgt.seq
    let s1 := s.originate frmFault payload false
    { s1 with mgt := { s1.mgt with bcasts := s1.mgt.bcasts ++ [(payload, q, 2)] } }

/-- A broadcast about this device itself. -/
def State.broadcastSelf (s : State) (kind : Nat) : State := s.broadcast s.idWord s.position kind

/-- FAULT frames that are due again. -/
def State.resendFaults (s : State) : State :=
  let s1 := s.mgt.bcasts.foldl (fun s b => s.sendBoth frmFault b.2.1 b.1 false) s
  let left := s1.mgt.bcasts.map (fun (b : Nat × Nat × Nat) => (b.1, b.2.1, b.2.2 - 1))
  { s1 with mgt := { s1.mgt with bcasts := left.filter (fun b => b.2.2 != 0) } }

/-- The live rank that a device has in the slice. -/
def State.rankOfDev (s : State) (dev : Nat) : Option Nat :=
  (List.range s.slcSize).find? (fun r => s.rankLive r && s.rankDev r == dev)

/-- R474, R569: a FAULT frame is recorded in the roster and handed to Dealer firmware. -/
def execFault (h : FrameHdr) (dev : BitVec 12) (valid : Bool) (pos : BitVec 7) (kind : BitVec 8) (s : State) :
    Host.Outcome State Fault Refusal :=
  let k := kind.toNat
  .next (s.recv h frmFault (dev.toNat + bit valid * 2 ^ 12 + pos.toNat * 2 ^ 16 + k * 2 ^ 24) (fun _ => false) (fun s =>
    if k = 0 || 4 < k then s
    else
      let s1 := s.setFld (Reg.uhlRoster pos.toNat) 14 3 k
      match (if valid && decide (k ≤ 2) then s1.rankOfDev dev.toNat else none) with
      | some r => s1.declareLost r
      | none => s1))

/-- R569: neighbours whose inputs to this device have been lost for 16 ticks just now. Input A comes from the position before, input B from
the one after. -/
def State.lostNeighbours (s : State) : List Nat :=
  let n := s.fld Reg.uhlStatus 14 8
  let before := (s.position + n - 1) % max n 1
  let after := (s.position + 1) % max n 1
  let due := fun c => (find? s.mgt.lost c).any (fun t => t + 16 == s.ticks)
  let past := fun c => (find? s.mgt.lost c).any (fun t => decide (t + 16 ≤ s.ticks))
  if n ≤ 1 then []
  else if before = after then (if (due 0 && past 1) || (due 1 && past 0) then [before] else [])
  else (if due 0 then [before] else []) ++ (if due 1 then [after] else [])

/-- What the roster says of a position: DEV_ID with ID_VALID, or zero where the entry is absent. -/
def State.rosterId (s : State) (p : Nat) : Nat :=
  if s.fld (Reg.uhlRoster p) 13 1 = 1 then s.fld (Reg.uhlRoster p) 0 13 else 0

/-! ## Lost links (R557, R560) -/

/-- R560: an input has shown no symbol lock for 8 µs: the device wraps. -/
def execChainInputLost (chain : Bool) (s : State) : Host.Outcome State Fault Refusal :=
  let c := bit chain
  .next (if !s.chainsOn || s.inputLost c then s
    else (({ s with mgt := { s.mgt with lost := put s.mgt.lost c s.ticks } }).bump Reg.uhlWrapCnt 1).refreshChains)

/-- R560: an input has held lock for a whole tick: at this tick boundary the device unwraps. -/
def execChainInputRestored (chain : Bool) (s : State) : Host.Outcome State Fault Refusal :=
  let c := bit chain
  .next (if !s.inputLost c then s else ({ s with mgt := { s.mgt with lost := del s.mgt.lost c } }).refreshChains)

/-- R557: a frame fails its CRC and is dropped. -/
def execUhlocFrameCrcFail (s : State) : Host.Outcome State Fault Refusal :=
  .next (if s.chainsOn then s.bump Reg.uhlCrcCnt 1 else s)

end Sys2Proof.Machine
end

