-- ==== Sys2Proof/Machine/Mgmt.lean ====
section
/-! DEFINITION. The management plane: images and boot, staging, the Umpire, OTP, claims, timers, management protocols (R527 to R529,
R559, R570 to R581, R585, R611 to R613, R620). -/

namespace Sys2Proof.Machine

/-! ## Images (R570, R571, Table MGT-4) -/

/-- A field of an image's header. -/
def imgFld (img : List Byte) (lo len : Nat) : Nat := bitsOf (leNat (img.take 352)) lo len
def imgComp (img : List Byte) : Nat := imgFld img 32 8
def imgKey (img : List Byte) : Nat := imgFld img 40 4
def imgSvn (img : List Byte) : Nat := imgFld img 48 8
def imgVersion (img : List Byte) : Nat := imgFld img 64 32
def imgLen (img : List Byte) : Nat := imgFld img 96 32

/-- Check 1 of R571: MAGIC, COMP, LEN or a reserved field is invalid. -/
def badHeader (img : List Byte) : Bool :=
  decide (img.length < 352) || imgFld img 0 32 != 0x4D495848 || !(imgComp img == 1 || imgComp img == 2) ||
    decide (8 * 2 ^ 20 < imgLen img) || img.length != 352 + imgLen img || imgFld img 44 4 != 0 || imgFld img 56 8 != 0 ||
    imgFld img 128 1152 != 0

/-- R571: the status of an image's checks, in order. -/
def State.imgStatus (s : State) (img : List Byte) (ck : ImgCheck) : Status :=
  (firstCheck [(badHeader img, .eArg), (s.mgt.revoked.contains (imgKey img) || decide (3 < imgKey img) || !ck.keyMatch, .ePerm),
    (!ck.sigOk, .ePerm), (decide (imgSvn img < look 0 s.mgt.otpSvn (imgComp img)), .eRange)]).getD .ok

/-- The flash slot of a component's slot A or B. -/
def slotIdx (comp slot : Nat) : Nat := 2 * comp + slot

/-- The image in a slot. -/
def State.image? (s : State) (comp slot : Nat) : Option FlashSlot := find? s.mgt.slots (slotIdx comp slot)

/-! ## Boot (R611 to R613, R620, Table RST-5) -/

def State.bootStep (s : State) : Nat := s.fld Reg.umpBoot 0 4

/-- The boot stops at the step it has reached. -/
def State.bootFail (s : State) (st : Status) : State := s.setFld Reg.umpBoot 8 8 (statusCode st)

/-- Has the boot stopped with a cause? -/
def State.bootStopped (s : State) : Bool := s.fld Reg.umpBoot 8 8 != 0

/-- The boot record that governs: SEQ, Umpire slot, Dealer slot. -/
def State.bootRecord (s : State) : Nat × Nat × Nat :=
  s.mgt.boot.foldl (fun a b => if a.1 < b.1 then b else a) ((s.mgt.boot.head?).getD (0, 0, 0))

/-- What looking for an image to start comes to. -/
inductive Pick where
  | start (slot : Nat) (fallback : Bool)
  | stop
  | recovery (st : Status)

/-- R612, R613: the governing slot of a component where it passed its checks, else the other one. -/
def State.pickSlot (s : State) (comp gov : Nat) : Pick :=
  let st := fun k => look Status.eArg s.clk.bootChecks (slotIdx comp k)
  if s.clk.unread.contains (slotIdx comp gov) then .stop
  else if st gov = .ok then .start gov false
  else if s.clk.unread.contains (slotIdx comp (1 - gov)) then .stop
  else if st (1 - gov) = .ok then .start (1 - gov) true
  else .recovery (st (1 - gov))

/-- RECOVERY: no valid image of a component. -/
def State.recover (s : State) (st : Status) : State := (s.setFld Reg.umpBoot 0 4 0xF).bootFail st

/-- A component runs from a slot. -/
def State.runFrom (s : State) (comp slot : Nat) : State := { s with mgt := { s.mgt with running := put s.mgt.running comp slot } }

/-- Step START: Dealer cores run from their slot; READY follows at the next tick. -/
def State.bootStart (s : State) (slot : Nat) : State :=
  let s1 := (List.range 8).foldl (fun s p => (s.setFld (Reg.dlrPairState p) 4 1 slot).setFld (Reg.dlrPairState p) 5 1 slot) s
  let s2 := (s1.runFrom 2 slot).setFld Reg.umpBoot 0 4 3
  { s2 with clk := { s2.clk with ready := true } }

/-- Step DEALER. -/
def State.bootDealer (s : State) : State :=
  match s.pickSlot 2 s.bootRecord.2.2 with
  | .stop => s.bootFail .eMedia
  | .recovery st => s.recover st
  | .start k fb => ((s.setFld Reg.umpBoot 6 1 k).setFld Reg.umpBoot 7 1 (bit fb)).bootStart k

/-- The setting of PLL `n` in Table CLK-4, with EN. -/
def State.pllSetting (s : State) (n : Nat) : Nat :=
  match n with
  | 0 => 1 + 4 + 22 * 8
  | 1 => 1 + 4 + 22 * 8
  | 2 => 1 + 4 + 11 * 8
  | 3 => 1 + 4 + (match s.fld Reg.gdrCfg 0 2 with
    | 2 => 20 * 8
    | 1 => 17 * 8 + 0x8000 * 2 ^ 12
    | _ => 15 * 8)
  | 4 => 2 + 4 + 170 * 8
  | _ => 0 + 4 + 5 * 8

/-- OK of a PLL's reference: 0 XA, 1 XB, 2 RACKCLK (R587). -/
def State.refOk (s : State) (ref : Nat) : Bool := decide (ref < 3) && s.fld Reg.clkStatus (7 + ref) 1 == 1

/-- The Umpire writes the settings of the PLLs whose references run and that are not yet enabled. -/
def State.writePlls (s : State) : State :=
  (List.range 6).foldl (fun s n =>
    let v := s.pllSetting n
    if s.refOk (v % 4) && s.fld (Reg.clkPllCfg n) 2 1 == 0 then s.setReg (Reg.clkPllCfg n) v else s) s

/-- Every PLL is locked: domains move to their PLLs, regions train, the ports power up. -/
def State.clocksUp (s : State) : State :=
  let s1 := ((s.setReg (Reg.clkDomSel 1) 0).setReg (Reg.clkDomSel 2) 0).setReg (Reg.clkDomSel 3) 0
  let s2 := (List.range 32).foldl (fun s n => if s.regionSt n = 0 then s.setFld (Reg.gdrRgnState n) 0 3 1 else s) s1
  (List.range 22).foldl (fun s p =>
    if s.fld (Reg.portCtrl p) 0 1 = 1 && s.portSt p == 0 && s.fld (Reg.portPrbs p) 0 1 == 0 then s.startTraining p else s) s2

/-- R247, R258, R278: the field repairs that the Umpire has recorded are applied and counted; soft entries that no hard entry holds are made
again. -/
def State.applyRepairs (s : State) : State :=
  s.mgt.softRecord.foldl (fun s e => s.updSite e.1 (fun x => x.soften (e.2.1 % 4) e.2.2.1 e.2.2.2 (decide (4 ≤ e.2.1)))) <|
  s.mgt.fieldRepairs.foldl (fun s r =>
    (s.updCluster r.1 (fun c => { c with cols := setNth c.cols r.2.1 r.2.2 }.shown)).bump (Reg.cluRepairCnt r.1) 1) s

/-- Step CLOCKS goes on as far as sources and PLLs allow; a source that failed to start stops it (R613). -/
def State.bootClocks (s : State) : State :=
  if s.bootStep ≠ 1 || s.bootStopped then s
  else if s.fld Reg.clkStatus 10 2 ≠ 0 then s.bootFail .eTimeout
  else
    let s1 := s.writePlls
    if s1.fld Reg.clkStatus 0 6 = 0x3F then (s1.clocksUp.setFld Reg.umpBoot 0 4 2).bootDealer else s1

/-- The Umpire runs from a slot. -/
def State.umpireRuns (s : State) (slot : Nat) : State :=
  let s1 := ((s.runFrom 1 slot).setFld Reg.umpStatus 0 2 1).setFld Reg.umpStatus 2 1 slot
  match s.image? 1 slot with
  | some x => s1.setReg Reg.umpVersion (imgVersion x.image)
  | none => s1

/-- Step ROM: the Umpire image is found and started. -/
def State.bootRom (s : State) : State :=
  match s.pickSlot 1 s.bootRecord.2.1 with
  | .stop => s.bootFail .eMedia
  | .recovery st => s.recover st
  | .start k fb =>
    (((s.setFld Reg.umpBoot 4 1 k).setFld Reg.umpBoot 5 1 (bit fb)).umpireRuns k |>.setFld Reg.umpBoot 0 4 1).applyRepairs.bootClocks

/-! ## Staging (R572) -/

/-- UMP_STAGE_STATUS: state 0 IDLE, 1 BUSY, 2 DONE; status; pass. -/
def State.stageStatus (s : State) (st : Nat) (status : Status) (pass : Nat) : State :=
  s.setReg Reg.umpStageStatus (st + statusCode status * 2 ^ 2 + pass % 4 * 2 ^ 10)
def State.staging (s : State) : Bool := s.fld Reg.umpStageStatus 0 2 == 1

/-- R612: an image staged in RECOVERY is started at once. -/
def State.startStaged (s : State) (comp slot : Nat) : State :=
  if s.bootStep ≠ 0xF then s
  else
    let s1 := s.setFld Reg.umpBoot 8 8 0
    let s2 := { s1 with clk := { s1.clk with bootChecks := put s1.clk.bootChecks (slotIdx comp slot) .ok } }
    if comp = 1 then (s2.setFld Reg.umpBoot 0 4 0).bootRom else (s2.setFld Reg.umpBoot 0 4 2).bootDealer

/-- A checked image goes into the slot of its component that does not run; one that stands there already is not written again. -/
def State.storeImage (s : State) (img : List Byte) : State :=
  let comp := imgComp img
  let k := 1 - s.runSlot comp
  let s1 := if s.image? comp k = some ⟨img, true⟩ then s
    else { s with mgt := { s.mgt with slots := put s.mgt.slots (slotIdx comp k) ⟨img, true⟩ } }
  s1.startStaged comp k

/-- Check an image and store it. -/
def State.stageImage (s : State) (img : List Byte) (ck : ImgCheck) : State × Status :=
  match s.imgStatus img ck with
  | .ok => (s.storeImage img, .ok)
  | st => (s, st)

/-- The image at UMP_STAGE_SRC, or why it cannot be read. Its sectors count as it is read (R295). -/
def State.stageSource (s : State) : State × List Byte × Status :=
  let a := s.reg Reg.umpStageSrc
  let n := 352 + imgLen (s.gddrBytes a 352)
  if !s.gddrOk a 352 then (s, [], .eRange)
  else if s.sectorBad a 352 then ((s.readGddr a 352).1, [], .eMedia)
  else if 352 + 8 * 2 ^ 20 < n then (s, [], .eArg)
  else if !s.gddrOk a n then (s, [], .eRange)
  else
    let r := s.readGddr a n
    if r.2.1 = .ok then (r.1, r.2.2, .ok) else (r.1, [], r.2.1)

/-- One pass of a rack staging: the frames that carry the image. -/
def State.sendPass (s : State) (img : List Byte) : State :=
  let s1 := s.originate frmOpen (leNat (img.take 24)) true
  let s2 := (List.range (ceilDiv img.length 20)).foldl (fun s k =>
    s.originate frmData (20 * k + leNat ((img.drop (20 * k)).take 20) * 2 ^ 32) false) s1
  s2.originate frmClose img.length true

/-- Positions of the other members. -/
def State.otherPositions (s : State) : List Nat := s.presentAt.filter (fun p => p != s.position)

/-- The end of a rack staging: positions in `bad` have failed the last pass. -/
def State.endRack (s : State) (pass : Nat) (bad : List Nat) (st : Status) : State :=
  let s1 := (s.stageStatus 2 st pass).setReg Reg.umpStageFail ((bad.map (fun p => 2 ^ p)).sum)
  { s1 with mgt := { s1.mgt with stage := none } }

/-- R572: once every member has reported, another pass, up to three, or the end. -/
def State.passOver (s : State) : State :=
  match s.mgt.stage with
  | none => s
  | some g =>
    if !g.lead || s.otherPositions.any (fun p => !listed g.results p) then s
    else
      let bad := (g.results.filter (fun r => r.2 != 0)).map Prod.fst
      if bad.isEmpty then s.endRack g.pass [] .ok
      else if 3 ≤ g.pass then s.endRack g.pass bad (statusOf (look 0 g.results ((bad.head?).getD 0)))
      else
        let s1 := { s with mgt := { s.mgt with stage := some { g with pass := g.pass + 1, results := [] } } }
        (s1.stageStatus 1 .ok (g.pass + 1)).sendPass (look [] g.data 0)

/-- The lead begins a rack staging of an image that it has staged itself. -/
def State.startRack (s : State) (img : List Byte) : State :=
  let s1 := { s with mgt := { s.mgt with stage := some { lead := true, header := img.take 24, data := [(0, img)], pass := 1 } } }
  ((s1.stageStatus 1 .ok 1).sendPass img).passOver

/-- R572: a write of UMP_STAGE_CMD. -/
def State.stageCmd (s : State) (fn : BitVec 6) (v : Nat) (ck : ImgCheck) : State :=
  let comp := v % 4
  let rack := bitOf v 2
  s.hostWrite fn Reg.umpStageCmd
    [(decide (8 ≤ v) || comp == 0 || comp == 3, .eArg), (s.staging, .eBusy), (rack && !s.acting, .eState)]
    (fun s =>
      let x := s.stageSource
      let src := x.2
      let s0 := x.1.setReg Reg.umpStageFail 0
      if src.2 ≠ .ok then s0.stageStatus 2 src.2 0
      else if imgComp src.1 ≠ comp then s0.stageStatus 2 .eArg 0
      else
        let r := s0.stageImage src.1 ck
        if r.2 = .ok && rack then r.1.startRack src.1 else r.1.stageStatus 2 r.2 0)

/-- R572: UMP_STAGE_CMD with SCOPE LOCAL. -/
def execStageLocal (fn : BitVec 6) (value : Word) (ck : ImgCheck) (s : State) : Host.Outcome State Fault Refusal :=
  .next (s.stageCmd fn value.toNat ck)

/-- R572: UMP_STAGE_CMD with SCOPE RACK. -/
def execStageRack (fn : BitVec 6) (value : Word) (ck : ImgCheck) (s : State) : Host.Outcome State Fault Refusal :=
  .next (s.stageCmd fn value.toNat ck)

/-- The pass of a member's staging. -/
def memberStage (g : Option Stage) (header : List Byte) : Bool := g.any (fun g => !g.lead && g.header == header)

/-- R572: a rack staging opens. -/
def execStageOpen (h : FrameHdr) (header : List Byte) (s : State) : Host.Outcome State Fault Refusal :=
  .next (s.recv h frmOpen (leNat header) (fun s => memberStage s.mgt.stage header) (fun s =>
    let pass := if memberStage s.mgt.stage header then (s.mgt.stage.map Stage.pass).getD 0 + 1 else 1
    let s1 := { s with mgt := { s.mgt with stage := some { lead := false, header := header, pass := pass } } }
    s1.stageStatus 1 .ok pass))

/-- R572: 20 bytes of the image. -/
def execStageData (h : FrameHdr) (off : Word) (data : List Byte) (s : State) : Host.Outcome State Fault Refusal :=
  .next (s.recv h frmData (off.toNat + leNat data * 2 ^ 32) (fun _ => false) (fun s =>
    match s.mgt.stage with
    | some g => if g.lead then s
      else { s with mgt := { s.mgt with stage := some { g with data := put g.data off.toNat data } } }
    | none => s))

/-- The image that the data frames give; none where one is missing. -/
def Stage.image (g : Stage) (len : Nat) : Option (List Byte) :=
  let ks := List.range (ceilDiv len 20)
  if ks.all (fun k => listed g.data (20 * k)) then some ((ks.flatMap (fun k => look [] g.data (20 * k))).take len) else none

/-- R572: a member checks what it has received, writes its slot and reports. -/
def execStageClose (h : FrameHdr) (len : Word) (ck : ImgCheck) (s : State) : Host.Outcome State Fault Refusal :=
  .next (s.recv h frmClose len.toNat (fun s => s.mgt.stage.any (fun g => !g.lead)) (fun s =>
    match s.mgt.stage with
    | none => s
    | some g =>
      if g.lead then s
      else
        let r := match g.image len.toNat with
          | none => (s, Status.eMedia)
          | some img => s.stageImage img ck
        let s1 := { r.1 with mgt := { r.1.mgt with stage := some { g with data := [] } } }
        (s1.stageStatus 2 r.2 g.pass).originate frmResult (statusCode r.2 + g.pass % 2 ^ 8 * 2 ^ 8) false))

/-- R572: a member's result reaches the lead. -/
def execResult (h : FrameHdr) (status pass : BitVec 8) (s : State) : Host.Outcome State Fault Refusal :=
  .next (s.recv h frmResult (status.toNat + pass.toNat * 2 ^ 8) (fun _ => false) (fun s =>
    match s.mgt.stage with
    | some g =>
      if g.lead && g.pass == pass.toNat then
        ({ s with mgt := { s.mgt with stage := some { g with results := put g.results h.orig.toNat status.toNat } } }).passOver
      else s
    | none => s))

/-- What an acknowledged frame that was never delivered leaves (R566, R572): a failed snapshot; a rack staging that fails on the members
that have not reported. -/
def State.ackFailed (s : State) (typ : Nat) : State :=
  if typ = frmSnap then s.setFld Reg.uhlSnapAck 9 1 1
  else if typ = frmOpen || typ = frmClose then
    match s.mgt.stage with
    | some g =>
      if g.lead then
        s.endRack g.pass (s.otherPositions.filter (fun p => look 1 g.results p != 0)) .eTimeout
      else s
    | none => s
  else s

/-- R559: an acknowledged frame is not delivered within 1 tick: it is sent again, up to three times. -/
def execFrameResendTimeout (seq : BitVec 16) (s : State) : Host.Outcome State Fault Refusal :=
  let q := seq.toNat
  .next (match s.mgt.unacked.find? (fun f => f.seq == q) with
    | none => s
    | some f =>
      if s.ticks < f.sent + 1 then s
      else if f.resends = 0 then
        ({ s with mgt := { s.mgt with unacked := s.mgt.unacked.filter (fun x => x.seq != q) } }).ackFailed f.typ
      else
        let s1 := s.sendBoth f.typ q f.payload true
        { s1 with mgt := { s1.mgt with unacked := s1.mgt.unacked.map (fun (x : AckFrame) =>
          if x.seq = q then { x with resends := x.resends - 1, sent := s.ticks } else x) } })

/-! ## The Umpire (R527 to R529, R569, R581) -/

/-- The Umpire restarts from a slot. -/
def State.restartUmpire (s : State) (slot : Nat) : State :=
  ((s.runFrom 1 slot).setFld Reg.umpStatus 0 2 2).setFld Reg.umpStatus 2 1 slot

/-- R527, R581: the host asks for a switch of the Umpire image at the next tick. -/
def execUmpSwitch (fn : BitVec 6) (value : Word) (s : State) : Host.Outcome State Fault Refusal :=
  let v := value.toNat
  .next (s.hostWrite fn Reg.umpSwitch [(bitsOf v 0 24 != 0, .eArg), (bitsOf v 24 8 != 0x96, .ePerm), (!s.altValid 1, .eState)]
    (fun s => { s with mgt := { s.mgt with switchDue := true } }))

/-- R527: at a tick, a switch that is due. -/
def State.switchUmpire (s : State) : State :=
  if !s.mgt.switchDue then s
  else
    let old := s.runSlot 1
    let s1 := s.restartUmpire (1 - old)
    { s1 with mgt := { s1.mgt with switchDue := false, prevSlot := some (old, s.ticks) } }

/-- A slot is marked invalid until it is staged again. -/
def State.spoilSlot (s : State) (idx : Nat) : State :=
  { s with mgt := { s.mgt with slots := s.mgt.slots.map (fun (x : Nat × FlashSlot) =>
      if x.1 = idx then (x.1, { x.2 with valid := false }) else x) } }

/-- R528: a new image has not reported RUNNING within 200 ticks: the Umpire goes back to the slot before. -/
def execUmpireSwitchTimeout (s : State) : Host.Outcome State Fault Refusal :=
  .next (match s.mgt.prevSlot with
    | none => s
    | some (old, t) =>
      if s.fld Reg.umpStatus 0 2 ≠ 2 || decide (s.ticks < t + 200) then s
      else
        let bad := s.runSlot 1
        let s1 := ((s.spoilSlot (slotIdx 1 bad)).restartUmpire old).logFault { src := srcUmpire, action := 7, loc := bad }
        { s1 with mgt := { s1.mgt with prevSlot := none } })

/-- R529: the watchdog expires after 16 ticks without a kick; a second expiry within 1,000 ticks of the first starts the other slot. -/
def execUmpireWatchdog (s : State) : Host.Outcome State Fault Refusal :=
  let old := s.runSlot 1
  let again := s.mgt.lastWatchdog.any (fun t => decide (s.ticks ≤ t + 1000)) && s.altValid 1
  .next (if s.fld Reg.umpStatus 0 2 ≠ 1 then s
    else
      let s1 := (s.restartUmpire (if again then 1 - old else old)).logFault { src := srcUmpire, loc := old }
      { s1 with mgt := { s1.mgt with lastWatchdog := if again then none else some s.ticks } })

/-- R528, R611: an Umpire image reports RUNNING; a slot other than the boot record names is recorded. -/
def execUmpireReportsRunning (s : State) : Host.Outcome State Fault Refusal :=
  .next (if s.fld Reg.umpStatus 0 2 ≠ 2 then s
    else
      let k := s.runSlot 1
      let s1 := s.umpireRuns k
      let s2 := if s.bootRecord.2.1 = k then s1 else s1.writeBoot k s.bootRecord.2.2
      { s2 with mgt := { s2.mgt with prevSlot := none } })

/-- R569, R581: the host has the device broadcast OUT_OF_SERVICE. -/
def execUmpSvcOut (fn : BitVec 6) (value : Word) (s : State) : Host.Outcome State Fault Refusal :=
  let v := value.toNat
  .next (s.hostWrite fn Reg.umpSvcOut [(bitsOf v 1 31 != 0, .eArg)] (fun s => if bitOf v 0 then s.broadcastSelf kindOut else s))

/-! ## OTP (R573) -/

/-- SEC_STATE (Table MGT-10). -/
def State.secWord (s : State) : Nat :=
  look 0 s.mgt.otpSvn 1 % 2 ^ 8 + look 0 s.mgt.otpSvn 2 % 2 ^ 8 * 2 ^ 8 + (((List.range 4).filter (fun k => s.mgt.revoked.contains k)).map
    (fun k => 2 ^ (16 + k))).sum

/-- The image that every running copy of a component carries. -/
def State.runningImage (s : State) (comp : Nat) : Option (List Byte) :=
  let k := s.runSlot comp
  let one := comp == 1 || (s.dlr.switching.isNone && (List.range 8).all (fun p =>
    s.fld (Reg.dlrPairState p) 4 1 == k && s.fld (Reg.dlrPairState p) 5 1 == k))
  if one then (s.image? comp k).map FlashSlot.image else none

/-- R573: raise a component's counter to the SVN of its running image. -/
def execCommitSvn (fn : BitVec 6) (value : Word) (s : State) : Host.Outcome State Fault Refusal :=
  let v := value.toNat
  let comp := bitsOf v 2 2
  .next (s.hostWrite fn Reg.secCmd
    [(bitsOf v 4 20 != 0, .eArg), (bitsOf v 24 8 != 0x3C, .ePerm), (v % 4 != 1 || comp == 0 || comp == 3, .eArg),
     ((s.runningImage comp).isNone, .eState)]
    (fun s =>
      let svn := max (look 0 s.mgt.otpSvn comp) (((s.runningImage comp).map imgSvn).getD 0)
      let s1 := { s with mgt := { s.mgt with otpSvn := put s.mgt.otpSvn comp svn } }
      s1.setReg Reg.secState s1.secWord))

/-- Does a running image, or a valid image in any slot, use a key? -/
def State.keyUsed (s : State) (k : Nat) : Bool := s.mgt.slots.any (fun x => (x.2.valid ||
  x.1 == slotIdx 1 (s.runSlot 1) || x.1 == slotIdx 2 (s.runSlot 2)) && imgKey x.2.image == k)

/-- R573: set a key's revoke bit. -/
def execRevoke (fn : BitVec 6) (value : Word) (s : State) : Host.Outcome State Fault Refusal :=
  let v := value.toNat
  let k := bitsOf v 2 2
  .next (s.hostWrite fn Reg.secCmd
    [(bitsOf v 4 20 != 0, .eArg), (bitsOf v 24 8 != 0x3C, .ePerm), (v % 4 != 2, .eArg),
     (s.keyUsed k || (List.range 4).all (fun j => j == k || s.mgt.revoked.contains j), .eState)]
    (fun s =>
      let s1 := { s with mgt := { s.mgt with revoked := if s.mgt.revoked.contains k then s.mgt.revoked else s.mgt.revoked ++ [k] } }
      s1.setReg Reg.secState s1.secWord))

/-! ## Claims and timers (R575 to R577) -/

def resGpio15 : Nat := 0x0F
def resClkout : Nat := 0x10

/-- Owner of a resource, 0 when it is free. -/
def State.ownerOf (s : State) (r : Nat) : Nat := s.fld (Reg.shcClaim r) 0 3

/-- The checks of a claim. -/
def State.claimChecks (s : State) (owner r : Nat) : List (Bool × Status) :=
  [(decide (0x1A ≤ r), .eArg), (s.ownerOf r != 0 && s.ownerOf r != owner, .eBusy), (s.ownerOf r != 0, .eState),
   ((r == resClkout && s.ownerOf resGpio15 != 0) || (r == resGpio15 && s.ownerOf resClkout != 0), .eBusy)]

/-- The checks of a release. -/
def State.releaseChecks (s : State) (owner r : Nat) : List (Bool × Status) :=
  [(decide (0x1A ≤ r), .eArg), (s.ownerOf r != 0 && s.ownerOf r != owner, .ePerm), (s.ownerOf r == 0, .eState)]

/-- A resource and its owner; CLKOUT takes the pin of GPIO15 with it. -/
def State.setClaim (s : State) (r w : Nat) : State :=
  let s1 := s.setReg (Reg.shcClaim r) w
  if r = resClkout then s1.setReg (Reg.shcClaim resGpio15) w else s1

/-- A claim operation: the host's through SHC_CMD, another owner's at the table itself. -/
def State.claimOp (s : State) (owner : Nat) (fn : BitVec 6) (checks : List (Bool × Status)) (f : State → State) : State :=
  if owner = 5 then s.hostWrite fn Reg.shcCmd checks f
  else if owner = 0 || 5 < owner || s.clk.por then s
  else
    match firstCheck checks with
    | some _ => s
    | none => f s

/-- R575, R576: claim a resource. -/
def execClaim (owner : BitVec 3) (fn : BitVec 6) (res : BitVec 5) (feature : BitVec 8) (s : State) : Host.Outcome State Fault Refusal :=
  let r := res.toNat
  .next (s.claimOp owner.toNat fn (s.claimChecks owner.toNat r) (fun s => s.setClaim r (owner.toNat + feature.toNat * 2 ^ 8)))

/-- R576: release a resource. -/
def execReleaseClaim (owner : BitVec 3) (fn : BitVec 6) (res : BitVec 5) (s : State) : Host.Outcome State Fault Refusal :=
  let r := res.toNat
  .next (s.claimOp owner.toNat fn (s.releaseChecks owner.toNat r) (fun s => s.setClaim r 0))

/-- R577: a timer is at zero: its bit is set, and in periodic mode it starts again. -/
def State.timerZero (s : State) (t : Nat) : State :=
  (s.setFld Reg.shcTmrStatus t 1 1).setReg (Reg.shcTmrCnt t)
    (if s.fld (Reg.shcTmrCfg t) 2 1 = 1 then s.reg (Reg.shcTmrPeriod t) else 0)

/-- R577: a timer that counts µs reaches zero. -/
def execTimerExpiry (timer : BitVec 3) (s : State) : Host.Outcome State Fault Refusal :=
  let t := timer.toNat
  .next (if s.fld (Reg.shcTmrCfg t) 0 2 = 1 && s.reg (Reg.shcTmrCnt t) != 0 then s.timerZero t else s)

/-- R577: the timers that count ticks. -/
def State.tickTimers (s : State) : State :=
  (List.range 8).foldl (fun s t =>
    let n := s.reg (Reg.shcTmrCnt t)
    if s.fld (Reg.shcTmrCfg t) 0 2 ≠ 3 || n = 0 then s
    else if n = 1 then s.timerZero t
    else s.setReg (Reg.shcTmrCnt t) (n - 1)) s

/-! ## Management protocols (R578 to R580, R599) -/

/-- A message leaves; `typ` is its MCTP type. -/
def State.reply (s : State) (typ value : Nat) : State := s.emit (.mgmt typ value)

/-- R578: an MCTP control message: the bus owner sets the endpoint id, or asks for it. -/
def execMctpControl (eid : Option (BitVec 8)) (s : State) : Host.Outcome State Fault Refusal :=
  .next (if s.clk.por then s
    else
      match eid with
      | some e => ({ s with mgt := { s.mgt with mctpEid := e.toNat } }).reply 0 e.toNat
      | none => s.reply 0 s.mgt.mctpEid)

/-- The reading of a PLDM sensor: hottest Tj, hottest DRAM sensor, power, energy, READY, DEGRADED, THROTTLE, then voltage and current of
each rail. -/
def State.sensor (s : State) (id : Nat) : Nat :=
  match id with
  | 0 => s.fld Reg.telTj 0 12
  | 1 => s.fld Reg.telTj 12 12
  | 2 => s.reg Reg.telPower
  | 3 => s.reg Reg.telEnergy
  | 4 => s.fld Reg.glbStatus 0 1
  | 5 => s.fld Reg.glbStatus 1 1
  | 6 => s.fld Reg.glbStatus 3 1
  | n => s.fld (Reg.telRail ((n - 7) / 2)) (32 * ((n - 7) % 2)) 32

/-- R579: a PLDM request. Types 0, 2 and 5 are answered; another type is not supported. -/
def execPldmRequest (req : PldmReq) (s : State) : Host.Outcome State Fault Refusal :=
  .next (if s.clk.por then s
    else
      match req with
      | .base => s.reply 1 0
      | .sensor id => s.reply 1 (s.sensor id)
      | .update img ck =>
        if s.staging then s.reply 1 (statusCode .eBusy)
        else
          (let r := s.stageImage img ck
           ((r.1.setReg Reg.umpStageFail 0).stageStatus 2 r.2 0).reply 1 (statusCode r.2))
      | .leaveRest => s.startWake.reply 1 0
      | .other => s.reply 1 (statusCode .eUnsupported))

/-- R580: an SPDM message. Keys and digests are opaque: a digest is a free value (log entry 12). -/
def execSpdmMessage (msg : SpdmMsg) (s : State) : Host.Outcome State Fault Refusal :=
  .next (if s.clk.por then s
    else
      match msg with
      | .plain => s.reply 5 0
      | .measurement k =>
        if k.toNat = 0 || 5 < k.toNat then s.reply 5 (statusCode .eArg)
        else { s.reply 5 (Config.freeValue s.freeCount).toNat with freeCount := s.freeCount + 1 }
      | .keyExchange id =>
        if 2 ≤ s.mgt.sessions.length || s.mgt.sessions.contains id.toNat then s.reply 5 (statusCode .eBusy)
        else ({ s with mgt := { s.mgt with sessions := s.mgt.sessions ++ [id.toNat] } }).reply 5 0
      | .endSession id => ({ s with mgt := { s.mgt with sessions := s.mgt.sessions.filter (fun k => k != id.toNat) } }).reply 5 0
      | .ideKeyed id =>
        if s.mgt.sessions.contains id.toNat && !s.hst.perst then (s.setFld Reg.hstLink 9 2 1).reply 5 0
        else s.reply 5 (statusCode .eState)
      | .other => s.reply 5 (statusCode .eUnsupported))

end Sys2Proof.Machine
end

