-- ==== Sys2Proof/Machine/Clocks.lean ====
section
/-! DEFINITION. Clock sources, PLLs, domains, CLKOUT, the rest state, leaving service, global status (R24, R531, R555, R582 to R603). -/

namespace Sys2Proof.Machine

/-! ## Pins the device drives -/

def pinThermtrip : Nat := 1
def pinThermalert : Nat := 2
def pinCoreVid : Nat := 3
def pinTdo : Nat := 4
def pinBoundary : Nat := 5

/-! ## Leaving service (R569, R592, R602) -/

/-- Every cluster stops and no running turn commits; the device is out of service until POR#. -/
def State.leaveService (s : State) : State :=
  if s.clk.outOfService then s
  else
    let s1 := s.broadcastSelf kindOut
    let s2 := s1.teams.foldl (fun s t =>
      if t.2.running then (s.stopCores t.2).updTeam t.1 (fun t => { t with running := false, step := 0 }) else s) s1
    { s2 with clk := { s2.clk with outOfService := true, ready := false } }

/-! ## Global status (R24, R531) -/

/-- Is the region budget exceeded (R304)? -/
def State.regionsOver (s : State) : Bool :=
  decide (4 < s.regionsLost) || (List.range 4).any (fun pg => decide (2 ≤ s.groupLost pg))

/-- The conditions of R531, and a stopped team that found no placement (R525). -/
def State.degraded (s : State) : Bool :=
  (List.range 64).any (fun c => (s.cluster c).lost) || s.regionsOver ||
    (List.range 22).any (fun p => s.portSt p == 4 && s.fld (Reg.portCtrl p) 0 1 == 1) ||
    (List.range 8).any (fun p => s.fld (Reg.dlrPairState p) 6 1 == 1) || s.chainsUp == 0 || !s.altValid 1 ||
    s.teams.any (fun t => t.2.stopped && t.2.stranded)

/-- Is any team paused for field repair? -/
def State.anyPause (s : State) : Bool := s.teams.any (fun t => s.fieldPause t.1)

/-- Tj of 100 °C in the units of the sensors. -/
def hotTj : Nat := 440

/-- GLB_STATUS as it stands now (Table REG-3). -/
def State.glbWord (s : State) : Nat :=
  bit (s.clk.ready && s.fld Reg.pwrStatus 0 2 == 0) + bit s.degraded * 2 + bit (s.fld Reg.pwrStatus 0 2 == 2) * 4 +
    bit (s.fld Reg.pwrStatus 2 6 != 0) * 8 + bit (decide (hotTj ≤ s.fld Reg.telTj 0 12)) * 16 + bit s.dlr.switching.isSome * 32 +
    bit s.anyPause * 64 + ((List.range 64).filter (fun c => !(s.cluster c).lost)).length * 2 ^ 8 +
    ((List.range 32).filter (fun n => s.regionUp n)).length * 2 ^ 16

/-- R24: all fields of GLB_STATUS are updated together; THERMALERT# follows its bit (R600). -/
def State.updateGlb (s : State) : State :=
  let hot := s.fld Reg.glbStatus 4 1
  let s1 := s.setReg Reg.glbStatus s.glbWord
  if s1.fld Reg.glbStatus 4 1 = hot then s1 else s1.emit (.pin pinThermalert (1 - s1.fld Reg.glbStatus 4 1))

/-! ## Domains (R588, R590, R591) -/

/-- A domain switches to a source. -/
def State.startSwitch (s : State) (d src : Nat) : State :=
  let s1 := (s.setFld (Reg.clkDomSel d) 0 3 src).setFld Reg.clkStatus (18 + d) 1 1
  { s1 with clk := { s1.clk with switching := put s1.clk.switching d src } }

/-- R590, R591: the host switches a domain's source. Naming the source in use changes nothing. -/
def execClkDomSel (fn : BitVec 6) (dom : BitVec 2) (value : Word) (s : State) : Host.Outcome State Fault Refusal :=
  let d := dom.toNat
  let v := value.toNat
  let new := v != s.fld (Reg.clkDomSel d) 0 3
  .next (s.hostWrite fn (Reg.clkDomSel d)
    [(decide (6 ≤ v), .eArg), (new && d == 0 && s.clusters.any (fun c => c.2.dom != .off), .eBusy), (new && d == 1 && s.anyTeam, .eBusy),
     (new && d == 2 && s.fld Reg.gdrCfg 5 1 == 1, .eBusy), (new && listed s.clk.switching d, .eBusy),
     (new && !s.sourceUp d v, .eState)]
    (fun s => if new then s.startSwitch d v else s))

/-- R590: a domain restarts on the ninth edge of its new source. FREF starts from zero with CORE. -/
def execDomainRestart (dom : BitVec 2) (s : State) : Host.Outcome State Fault Refusal :=
  let d := dom.toNat
  .next (if !listed s.clk.switching d then s
    else
      let s1 := s.setFld Reg.clkStatus (18 + d) 1 0
      { s1 with clk := { s1.clk with switching := del s1.clk.switching d }, fref := if d = 0 then 0 else s1.fref })

/-! ## PLLs (R585 to R587, R592) -/

/-- The frequency of a PLL as a fraction, in units of 1 kHz / 65,536: f_ref × (N + F / 65,536) and P (R585, Table CLK-16). -/
def State.pllRate (s : State) (n : Nat) : Nat × Nat :=
  let w := s.reg (Reg.clkPllCfg n)
  let ref := match w % 4 with
    | 0 => 25000
    | 1 => 50000
    | _ => 156250
  (ref * (bitsOf w 3 9 * 65536 + bitsOf w 12 16), bitsOf w 28 4 + 1)

/-- PLL1 is in phase with PLL0 when both are locked at one frequency (R586). -/
def State.alignPhase (s : State) : State :=
  let f0 := s.pllRate 0
  let f1 := s.pllRate 1
  s.setFld Reg.clkStatus 6 1 (bit (s.fld Reg.clkStatus 0 2 == 3 && f0.1 * f1.2 == f1.1 * f0.2))

/-- Every port that is UP retrains: its line clock has gone. -/
def State.dropLines (s : State) : State := (List.range 22).foldl (fun s p => s.enterRetrain p) s

/-- R592: a PLL loses lock (Table CLK-8). -/
def State.loseLock (s : State) (n : Nat) : State :=
  if s.fld Reg.clkStatus n 1 = 0 then s
  else
    let s1 := ((s.setFld Reg.clkStatus n 1 0).setFld Reg.clkStatus (12 + n) 1 1).alignPhase
    match n with
    | 3 => { s1 with clk := { s1.clk with pll3Lost := true } }
    | 4 => s1.dropLines
    | 5 => if s1.fld (Reg.clkDomSel 3) 0 3 = 0 then s1.startSwitch 3 (if s1.fld Reg.clkStatus 7 1 = 1 then 3 else 2) else s1
    | _ => s1.leaveService

/-- R592: a reference fails, and the PLLs that run from it lose lock. -/
def State.refLost (s : State) (ref : Nat) : State :=
  ((List.range 6).filter (fun n => s.fld (Reg.clkPllCfg n) 0 2 == ref && s.fld (Reg.clkPllCfg n) 2 1 == 1)).foldl (fun s n => s.loseLock n) s

/-- R592: a PLL loses lock. -/
def execLossOfLock (pll : BitVec 3) (s : State) : Host.Outcome State Fault Refusal :=
  .next (if 5 < pll.toNat then s else s.loseLock pll.toNat)

/-- A short retrain of every region in service; those in `bad` fail it, and pass or fail the full retrain after it (R298). -/
def State.retrainAll (s : State) (bad : List (Nat × Bool)) : State :=
  (List.range 32).foldl (fun s n => s.retrain n (bad.all (fun b => b.1 != n)) (bad.any (fun b => b.1 == n && b.2))) s

/-- R585, R592, R613: a PLL that is enabled locks, or fails to. After PLL3's lock was lost every region is retrained; `bad` are those
that fail. -/
def execPllLock (pll : BitVec 3) (ok : Bool) (bad : List (Nat × Bool)) (s : State) : Host.Outcome State Fault Refusal :=
  let n := pll.toNat
  .next (if 5 < n || s.clk.por || s.fld Reg.clkStatus n 1 = 1 then s
    else if !ok then (if s.bootStep = 1 && !s.bootStopped then s.bootFail .eTimeout else s)
    else if s.fld (Reg.clkPllCfg n) 2 1 = 0 || !s.refOk (s.fld (Reg.clkPllCfg n) 0 2) then s
    else
      let s1 := (s.setFld Reg.clkStatus n 1 1).alignPhase
      let s2 := if n = 0 then { s1 with fref := 0 } else s1
      let s3 := if n = 3 && s2.clk.pll3Lost then
          ({ s2 with clk := { s2.clk with pll3Lost := false } }).retrainAll bad
        else s2
      s3.bootClocks)

/-- R592: PLL3 has not relocked within 1 ms. -/
def execPll3RelockTimeout (s : State) : Host.Outcome State Fault Refusal :=
  .next (if !s.clk.pll3Lost then s
    else
      let s1 := { s with clk := { s.clk with pll3Lost := false } }
      (List.range 32).foldl (fun s n => if s.regionUp n then s.retire n 4 else s) s1)

/-- Does the PLL feed a domain that runs from it? -/
def State.pllInUse (s : State) (n : Nat) : Bool :=
  match n with
  | 0 => s.fld (Reg.clkDomSel 0) 0 3 == 0 && s.fld Reg.clkStatus 0 2 == 3
  | 1 => s.fld (Reg.clkDomSel 0) 0 3 == 0 && s.fld Reg.clkStatus 0 2 == 3
  | 2 => s.fld (Reg.clkDomSel 1) 0 3 == 0 && s.fld Reg.clkStatus 2 1 == 1
  | 3 => s.fld (Reg.clkDomSel 2) 0 3 == 0 && s.fld Reg.clkStatus 3 1 == 1
  | 5 => s.fld (Reg.clkDomSel 3) 0 3 == 0 && s.fld Reg.clkStatus 5 1 == 1
  | _ => false

/-- R587: the host configures a PLL. It locks anew after the write. -/
def execClkPllnCfg (fn : BitVec 6) (pll : BitVec 3) (value : Word) (s : State) : Host.Outcome State Fault Refusal :=
  let n := pll.toNat
  let v := value.toNat
  .next (s.hostWrite fn (Reg.clkPllCfg n)
    [(v % 4 == 3, .eArg), (s.pllInUse n, .eBusy), (bitOf v 2 && !s.refOk (v % 4), .eState), (decide (bitsOf v 3 9 < 8), .eRange),
     (decide (5 < n), .eRange)]
    (fun s =>
      let s1 := ((s.setReg (Reg.clkPllCfg n) v).setFld Reg.clkStatus n 1 0).alignPhase
      if n = 4 then s1.dropLines else s1))

/-! ## Sources (R555, R583, R584) -/

/-- R583: a crystal input is judged after its start wait: `count` edges over 256 OSC_SLOW cycles. -/
def execCrystalStart (xb : Bool) (count : Nat) (s : State) : Host.Outcome State Fault Refusal :=
  let x := bit xb
  let nominal := if xb then 1600 else 800
  let k := look 0 s.clk.tries x
  .next (if s.clk.por || s.fld Reg.clkXctrl x 1 = 0 || s.fld Reg.clkStatus (7 + x) 1 = 1 || decide (3 ≤ k) then s
    else if 19 * nominal ≤ 20 * count && decide (20 * count ≤ 21 * nominal) then (s.setFld Reg.clkStatus (7 + x) 1 1).bootClocks
    else
      let s1 := { s with clk := { s.clk with tries := put s.clk.tries x (k + 1) } }
      if k = 2 then (s1.setFld Reg.clkStatus (10 + x) 1 1).bootClocks else s1)

/-- R583: an input that was OK stops; PLLs that use it lose lock. -/
def execClockInputStop (xb : Bool) (s : State) : Host.Outcome State Fault Refusal :=
  let x := bit xb
  .next (if s.fld Reg.clkStatus (7 + x) 1 = 0 then s
    else
      let s1 := (s.setFld Reg.clkStatus (7 + x) 1 0).setFld Reg.clkStatus (10 + x) 1 1
      s1.refLost x)

/-- R555, R592: RACKCLK stops toggling; PLLs that use it lose lock. -/
def execRackclkStop (s : State) : Host.Outcome State Fault Refusal := .next ((s.setFld Reg.clkStatus 9 1 0).refLost 2)

/-- R583: the host enables or disables a crystal input; enabling one starts it. -/
def execClkXctrl (fn : BitVec 6) (value : Word) (s : State) : Host.Outcome State Fault Refusal :=
  let v := value.toNat
  .next (s.hostWrite fn Reg.clkXctrl [(bitsOf v 4 28 != 0, .eArg)] (fun s =>
    let rise := fun x => bitOf v x && s.fld Reg.clkXctrl x 1 == 0
    let s1 := s.setFld Reg.clkXctrl 0 2 v
    { s1 with clk := { s1.clk with tries := s1.clk.tries.filter (fun t => !rise t.1) } }))

/-! ## CLKOUT (R594) -/

/-- Nominal rate of a CLKOUT source in kHz (Table CLK-9). -/
def State.clkoutRate (s : State) (sel : Nat) : Nat :=
  match sel with
  | 0 => 400000
  | 1 => 8000
  | 2 => 25000
  | 3 => 50000
  | 4 => 156250
  | 5 => 100000
  | 6 => 1100000
  | 7 => 1100000
  | 8 => 550000
  | 9 => (match s.fld Reg.gdrCfg 0 2 with
    | 2 => 1000000
    | 1 => 875000
    | _ => 750000)
  | 10 => 1660157
  | 11 => 125000
  | 12 => 538
  | 13 => 1
  | _ => 0

/-- R594: the host sets CLKOUT's source and divisor. -/
def execClkClkout (fn : BitVec 6) (value : Word) (s : State) : Host.Outcome State Fault Refusal :=
  let v := value.toNat
  .next (s.hostWrite fn Reg.clkClkout
    [(bitsOf v 15 17 != 0, .eArg), (s.ownerOf resClkout != 5, .ePerm),
     (decide (200000 * (bitsOf v 4 10 + 1) < s.clkoutRate (v % 16)), .eRange), (decide (14 ≤ v % 16), .eArg)]
    (fun s => s.setReg Reg.clkClkout v))

/-- The source and divisor that drive the CLKOUT ball; none while the pad is GPIO15. -/
def State.clkoutDrives (s : State) : Option (Nat × Nat) :=
  if s.fld Reg.clkClkout 14 1 = 1 && s.ownerOf resClkout != 0 then some (s.fld Reg.clkClkout 0 4, s.fld Reg.clkClkout 4 10 + 1) else none

/-! ## The rest state (R597 to R599) -/

/-- The checks of REST. -/
def State.restChecks (s : State) : List (Bool × Status) :=
  [(s.slotsBusy || s.jobRuns || s.fld Reg.glbStatus 5 2 != 0 || s.staging, .eBusy),
   (s.sliceSt != 0 || s.fld Reg.pwrStatus 0 2 != 0, .eState)]

/-- Entry into rest begins: every cluster stops at the next FREF boundary. -/
def State.enterRest (s : State) : State :=
  let s1 := s.setFld Reg.pwrStatus 0 2 1
  { s1 with clusters := s1.clusters.map (fun (c : Nat × Cluster) =>
      (c.1, if c.2.dom = .off then { c.2 with wakeReq := false } else { c.2 with stopReq := true })) }

/-- A write of PWR_CMD. -/
def State.pwrCmdWrite (s : State) (fn : BitVec 6) (v : Nat) : State :=
  s.hostWrite fn Reg.pwrCmd ((decide (4 ≤ v) || v == 0 || v == 3, .eArg) :: (if v = 1 then s.restChecks else []))
    (fun s => if v = 1 then s.enterRest else s.startWake)

/-- R597: the PF puts the device into the rest state. -/
def execRest (fn : BitVec 6) (value : Word) (s : State) : Host.Outcome State Fault Refusal := .next (s.pwrCmdWrite fn value.toNat)

/-- R599: the PF wakes the device. -/
def execWake (fn : BitVec 6) (value : Word) (s : State) : Host.Outcome State Fault Refusal := .next (s.pwrCmdWrite fn value.toNat)

/-- Every port goes DOWN, its buffers lost. -/
def State.portsOff (s : State) : State :=
  (List.range 22).foldl (fun s p =>
    if s.portSt p = 0 then s
    else (s.updPort p (fun x => { trained := x.trained, downTick := s.reg Reg.glbTicks })).setReg (Reg.portStatus p) 4) s

/-- Serve every background port until nothing waits (R269). -/
def State.drainPorts (s : State) : State := s.bgq.foldl (fun s q => s.bgDrain q.1) s

/-- R597: entry is complete: the plate manager and the background ports have drained and every cluster is OFF. -/
def execRestEntered (s : State) : Host.Outcome State Fault Refusal :=
  .next (if s.fld Reg.pwrStatus 0 2 ≠ 1 || s.clusters.any (fun c => c.2.dom != .off) || !s.plt.staging.isEmpty ||
      !s.plt.moves.isEmpty || !s.plt.writeBacks.isEmpty then s
    else
      let s1 := ((((s.drainPorts.setFld Reg.pwrStatus 0 2 2).setFld Reg.clkStatus 0 5 0).alignPhase).portsOff).bump Reg.pwrRestCnt 1
      if s1.clk.wakePending then ({ s1 with clk := { s1.clk with wakePending := false } }).startWake else s1)

/-- Is a wake ready to complete: PLL0 to PLL4 locked again, the clusters of loaded teams in RUN? -/
def State.wakeReady (s : State) : Bool :=
  s.fld Reg.pwrStatus 0 2 == 3 &&
    (List.range 5).all (fun n => s.fld (Reg.clkPllCfg n) 2 1 == 0 || s.fld Reg.clkStatus n 1 == 1) &&
    s.teams.all (fun t => !t.2.loaded || t.2.stopped || t.2.clusters.all (fun c => (s.cluster c).dom == .run))

/-- R306, R599: a wake completes: regions are retrained (those in `bad` fail), host accesses that waited for them are served, cores are filled from their images, admission resumes, the
ports train. -/
def execWakeComplete (bad : List (Nat × Bool)) (s : State) : Host.Outcome State Fault Refusal :=
  .next (if !s.wakeReady then s
    else
      let s1 := (s.retrainAll bad).serveWaiting
      let s2 := s1.teams.foldl (fun s t =>
        if t.2.loaded && !t.2.stopped then t.2.cores.foldl (fun s n => (s.fillResident t.2 n).fillBanks t.2 n) s else s) s1
      let s3 := (s2.setFld Reg.pwrStatus 0 2 0).updateGlb
      (List.range 22).foldl (fun s p =>
        if s.fld (Reg.portCtrl p) 0 1 = 1 && s.fld (Reg.portPrbs p) 0 1 == 0 then s.startTraining p else s) s3)

/-! ## Throttling and trip (R600, R602) -/

/-- Up by one to 63, or down by one to 0, or unchanged. -/
def stepLevel (l : Nat) (up down : Bool) : Nat := if up then min (l + 1) 63 else if down then l - 1 else l

/-- R600: the thermal level, the power level and the level in force, from the samples of the tick just ended. Sensors read in 0.25 °C above
−10 °C, power in mW. -/
def State.throttle (s : State) (tj td power : Nat) : State :=
  let h := 4 * s.fld Reg.pwrCfg 1 4
  let cap := 1000 * s.fld Reg.pwrCap 0 10
  let lt := stepLevel (s.fld Reg.pwrStatus 8 6) (decide (440 ≤ tj) || decide (460 ≤ td)) (decide (tj + h < 440) && decide (td + h < 460))
  let lp := stepLevel (s.fld Reg.pwrStatus 14 6) (decide (cap < power)) (decide (100 * power < 95 * cap))
  ((s.setFld Reg.pwrStatus 8 6 lt).setFld Reg.pwrStatus 14 6 lp).setFld Reg.pwrStatus 2 6 (max lt lp)

/-- R602: a sensor reaches its limit: 115 °C for logic, 120 °C for DRAM. The SerDes stop: every port goes DOWN (DEDUCED, log entry 185). -/
def execThermalTrip (dram : Bool) (reading : BitVec 12) (s : State) : Host.Outcome State Fault Refusal :=
  let limit := if dram then 520 else 500
  .next (if s.fld Reg.pwrStatus 20 1 = 1 || !s.clk.aon || decide (reading.toNat < limit) then s
    else
      (((s.setReg Reg.pwrTrip ((if dram then 2 else 1) + reading.toNat * 2 ^ 2)).setFld Reg.pwrStatus 20 1 1).emit
        (.pin pinThermtrip 0)).leaveService.portsOff)

end Sys2Proof.Machine
end

