-- ==== Sys2Proof/Machine/Reset.lean ====
section
/-! DEFINITION. Resets, straps and boot, team reset, JTAG (R269, R604 to R620). -/

namespace Sys2Proof.Machine

/-! ## POR# (R605, R607 to R609, R612) -/

/-- What of a vault site survives: its hard entries, which the device loads again. -/
def Site.afterPor (x : Site) : Site :=
  { hardRows := x.hardRows, hardCols := x.hardCols, liveRows := x.hardRows, liveCols := x.hardCols }

/-- What of the management plane survives: boot flash, OTP, the Umpire's record of field repairs (R247). -/
def Mgmt.afterPor (m : Mgmt) : Mgmt :=
  { slots := m.slots, boot := m.boot, otpSvn := m.otpSvn, revoked := m.revoked, fieldRepairs := m.fieldRepairs
    softRecord := m.softRecord }

/-- R607, R609: POR# is asserted. Every domain is reset; fuses, OTP and boot flash survive, and the always-on supply stands. THERMTRIP# and
THERMALERT# are no longer asserted (R600, R602). -/
def execPorAssert (s : State) : Host.Outcome State Fault Refusal :=
  let s1 : State :=
    { pending := s.pending
      outbox := s.outbox ++ (if s.fld Reg.pwrStatus 20 1 = 1 then [.pin pinThermtrip 1] else []) ++
        (if s.fld Reg.glbStatus 4 1 = 1 then [.pin pinThermalert 1] else [])
      freeCount := s.freeCount
      sites := s.sites.map (fun (x : Nat × Site) => (x.1, x.2.afterPor))
      mgt := s.mgt.afterPor
      clk := { por := true, aon := s.clk.aon } }
  .next (s1.setReg Reg.secState s1.secWord)

/-- Boot flash slots by index: Umpire A and B, Dealer A and B. -/
def flashSlots : List Nat := [2, 3, 4, 5]

/-- The image in a flash slot: what the device has written there, else what the slot was delivered with. -/
def State.flashImage (s : State) (factory : List (Nat × List Byte)) (i : Nat) : List Byte :=
  match find? s.mgt.slots i with
  | some x => x.image
  | none => look [] factory i

/-- R571: the status of the checks of the image in a slot. -/
def State.slotCheck (s : State) (img : List Byte) (i : Nat) (ck : ImgCheck) : Status :=
  if imgComp img ≠ i / 2 then .eArg else s.imgStatus img ck

/-- R608, R612: POR# is released: straps are latched and the boot sequence begins. `factory` holds the images that the flash was
delivered with, `cks` what the crypto checks of each slot come to, `unread` the slots whose flash reads fail; `rack` that RACKCLK
toggles. -/
def execPorRelease (factory : List (Nat × List Byte)) (cks : List ImgCheck) (unread : List Nat) (rack : Bool) (s : State) :
    Host.Outcome State Fault Refusal :=
  .next (if !s.clk.por then s
    else
      let checks := flashSlots.map (fun i => (i, s.slotCheck (s.flashImage factory i) i (nth ⟨false, false⟩ cks (i - 2))))
      let slots := flashSlots.filterMap (fun i =>
        if (s.flashImage factory i).isEmpty then none else some (i, FlashSlot.mk (s.flashImage factory i) (look .eArg checks i == .ok)))
      let s1 := { s with clk := { s.clk with por := false, bootChecks := checks, unread := unread }, mgt := { s.mgt with slots := slots } }
      ((s1.setFld Reg.clkStatus 9 1 (bit rack)).setFld Reg.umpBoot 0 4 0).bootRom)

/-- The setpoint code that CORE_VID carries (R605). -/
def State.vidCode (s : State) : Nat := min 16 ((s.fld Reg.pwrVid 0 10 - 720) / 5)

/-- R605: VDD_AON comes into tolerance: fuses are read, CORE_VID driven, the trip sensors armed. -/
def execVddAonInTolerance (s : State) : Host.Outcome State Fault Refusal :=
  .next (({ s with clk := { s.clk with aon := true } }).emit (.pin pinCoreVid s.vidCode))

/-! ## Team reset (R614 to R616) -/

/-- Does a reset of the team run: from the write until its next attempt starts? -/
def State.resetRuns (s : State) (n : Nat) : Bool := s.fld (Reg.dlrTeamRst n) 0 1 == 1

/-- R615, R616: a reset is accepted: an attempt before step 2 stops at once, and a slice member reports it failed. -/
def State.startTeamReset (s : State) (n : Nat) : State :=
  let t := s.team n
  let s1 := ((s.keepWindows t).setFld (Reg.dlrTeamRst n) 0 1 1).updTeam n (fun t => { t with resetReq := true })
  if t.running && t.step ≠ 2 then
    (let s2 := s1.stopCores t
     if s.sliceMember then s2.sendCtrl (s.rankDev 0) 3 (n + 128) false else s2)
  else s1

/-- R614: the host writes DLR_TEAM_RST. -/
def execTeamReset (fn team : BitVec 6) (value : Word) (s : State) : Host.Outcome State Fault Refusal :=
  let n := team.toNat
  let v := value.toNat
  let t := s.team n
  .next (s.hostWrite fn (Reg.dlrTeamRst n)
    [(bitsOf v 1 23 != 0, .eArg), (bitsOf v 24 8 != 0xE1, .ePerm), (!t.loaded || t.stopped, .eState),
     (s.resetRuns n || s.fieldPause n, .eBusy)]
    (fun s => if bitOf v 0 then s.startTeamReset n else s))

/-- Every descriptor that a team's cores have posted has completed. -/
def State.drained (s : State) (t : Team) : Bool :=
  t.cores.all (fun n => (s.core n).dq.toList.all (fun q => q.descs.all DmaDesc.done))

/-- R615 step 4: a core at its turn-start state, accumulators and turn area zero, resident area and banks from the image. -/
def State.resetCore (s : State) (t : Team) (n : Nat) : State :=
  let c := (s.core n).startTurn false 0 0 t.turn (t.rankOf n)
  let c' := { c with exec := Exec.idle, inTurn := false, seedLoaded := false }
  let s1 := s.setCell n { cur := c', before := c' }
  let s2 := { s1 with mem := s1.mem.write (dmAddr n c'.resTop) (zeroBytes (65536 - c'.resTop)) }
  (s2.fillResident t n).fillBanks t n

/-- R615 step 3: a running attempt is discarded without counting; on the lead of a slice every member is told,
whose attempt does not count either (R446). -/
def State.dropAttempt (s : State) (n : Nat) : State :=
  if !(s.team n).running then s.bump Reg.dlrDiscardCnt 1
  else
    let s1 := s.discardUncounted n
    if s.isLead && !s.votingRanks.isEmpty then s1.tellMembers 4 (n + 64 * SliceVerdictCode .uncounted) else s1

/-- R615, R616: the drain is over; the attempt is discarded and the cores are reset. A boundary past step 2 goes first. -/
def execTeamResetDrainDone (team : BitVec 6) (s : State) : Host.Outcome State Fault Refusal :=
  let n := team.toNat
  let t := s.team n
  .next (if !t.resetReq || !s.drained t || (t.running && t.step == 2) then s
    else
      let s1 := (s.dropAttempt n).bump Reg.fltReplayCnt 1
      let s2 := t.cores.foldl (fun s m => s.resetCore (s.team n) m) s1
      let s3 := s2.updTeam n (fun t => { t with resetReq := false })
      if s.sliceMember then s3.sendCtrl (s.rankDev 0) 5 n false else s3)

/-! ## JTAG (R576, R609, R617, R618, Table RST-7) -/

def tapExtest : Nat := 0x00
def tapSample : Nat := 0x01
def tapIdcode : Nat := 0x02
def tapClamp : Nat := 0x03
def tapHighz : Nat := 0x04
def tapPulse : Nat := 0x05
def tapTrain : Nat := 0x06
def tapDbg : Nat := 0x10
def tapMbist : Nat := 0x11
def tapLinktest : Nat := 0x12
def tapBypass : Nat := 0xFF

/-- All pins high-impedance. -/
def pinHighz : Nat := 6

/-- The instruction register takes a code. -/
def State.setTap (s : State) (k : Nat) : State := { s with clk := { s.clk with tap := k } }

/-- The boundary cells drive the pins. -/
def State.drivePins (s : State) (k cells : Nat) : State :=
  ({ s with clk := { s.clk with tap := k, boundary := cells } }).emit (.pin pinBoundary cells)

/-- A private instruction acts only while no team is loaded; otherwise it is BYPASS. -/
def State.privateTap (s : State) (k : Nat) (f : State → State) : State := if s.anyTeam then s.setTap tapBypass else f (s.setTap k)

/-- R576, R609: TRST# resets the TAP and releases JTAG's claims. -/
def execTrst (s : State) : Host.Outcome State Fault Refusal :=
  let s1 := s.releaseClaims 1
  .next { s1 with clk := { s1.clk with tap := tapIdcode, linktest := none } }

/-- IEEE 1149.1 EXTEST: the cells shifted in drive the pins. -/
def execExtest (cells : Nat) (s : State) : Host.Outcome State Fault Refusal := .next (s.drivePins tapExtest cells)

/-- IEEE 1149.1 SAMPLE/PRELOAD: the pins are shifted out, and the cells shifted in are held. -/
def execSample (pins cells : Nat) (s : State) : Host.Outcome State Fault Refusal :=
  .next (({ s with clk := { s.clk with tap := tapSample, boundary := cells } }).emit (.pin pinTdo pins))

/-- The identification code. -/
def idcode : Nat := 1 + Config.fuse 0x02 % 2 ^ 11 * 2 + 0x1D74 * 2 ^ 12 + 0x1 * 2 ^ 28

/-- IDCODE. -/
def execIdcode (s : State) : Host.Outcome State Fault Refusal := .next ((s.setTap tapIdcode).emit (.pin pinTdo idcode))

/-- IEEE 1149.1 CLAMP: the cells held drive the pins. -/
def execClamp (s : State) : Host.Outcome State Fault Refusal := .next (s.drivePins tapClamp s.clk.boundary)

/-- IEEE 1149.1 HIGHZ. -/
def execHighz (s : State) : Host.Outcome State Fault Refusal := .next ((s.setTap tapHighz).emit (.pin pinHighz 0))

/-- IEEE 1149.6 EXTEST_PULSE. -/
def execExtestPulse (cells : Nat) (s : State) : Host.Outcome State Fault Refusal := .next (s.drivePins tapPulse cells)

/-- IEEE 1149.6 EXTEST_TRAIN. -/
def execExtestTrain (cells : Nat) (s : State) : Host.Outcome State Fault Refusal := .next (s.drivePins tapTrain cells)

/-- BYPASS, and any code that Table RST-7 does not list. -/
def execBypass (s : State) : Host.Outcome State Fault Refusal := .next (s.setTap tapBypass)

/-- MBIST: the self-test engine of R281 with the fields of VLT_SITE_SEL and VLT_BIST_CTRL. -/
def execMbist (col : BitVec 6) (row : BitVec 7) (pattern : BitVec 4) (s : State) : Host.Outcome State Fault Refusal :=
  .next (s.privateTap tapMbist (fun s =>
    let s1 := s.setReg Reg.vltSiteSel (col.toNat + row.toNat * 2 ^ 8)
    if 71 < row.toNat || 4 ≤ pattern.toNat || !s1.testable s1.selSite || (s1.site s1.selSite).testing.isSome then s
    else (s1.startTest s1.selSite pattern.toNat).setReg Reg.vltBistCtrl pattern.toNat))

/-- LINKTEST: PRBS on the PCIe lanes and GDDR pins, by pattern, or none (R618). -/
def execLinktest (pattern : Option (BitVec 2)) (s : State) : Host.Outcome State Fault Refusal :=
  .next (s.privateTap tapLinktest (fun s => { s with clk := { s.clk with linktest := pattern.map BitVec.toNat } }))

end Sys2Proof.Machine
end

