-- ==== Sys2Proof/Machine/Tick.lean ====
section
/-! DEFINITION. The management tick: its source, telemetry, throttling, what falls due at a boundary, GLB_STATUS (R24, R283, R449,
R527, R555, R560 to R569, R574, R577, R600). -/

namespace Sys2Proof.Machine

/-! ## The boundary's source and rack time (R555, R564) -/

/-- Index of the tick source: 0 RACKSYNC, 1 RACKCLK, 2 XA, 3 OSC_SLOW. -/
def State.tickSource (s : State) : Nat :=
  let rack := s.fld Reg.clkStatus 9 1 == 1
  if s.mgt.edge ≠ 0 || (s.locked && rack) then 0 else if rack then 1 else if s.fld Reg.clkStatus 7 1 = 1 then 2 else 3

/-- A boundary with no accepted edge: RRC passes to its next expected count, and a locked device notes that the edge was missing. -/
def State.missEdge (s : State) : State :=
  if !s.mgt.started || s.fld Reg.clkStatus 9 1 ≠ 1 || s.mgt.edge = 1 then s
  else
    let s1 := s.setReg Reg.uhlRrc ((s.reg Reg.uhlRrc / tickCycles + 1) * tickCycles)
    if s1.locked && s1.mgt.edge == 0 then s1.bump Reg.uhlSyncMissCnt 1 else s1

/-- The count of ticks, the source in use, rack time. -/
def State.countTick (s : State) : State :=
  let s1 := ((s.bump Reg.glbTicks 1).setFld Reg.umpStatus 4 2 s.tickSource).missEdge
  { s1 with mgt := { s1.mgt with edge := 0 } }

/-! ## Telemetry (R283, R574, R600) -/

/-- Registers of a family take the values of a list. -/
def State.setRegs (s : State) (base : Nat → Nat) (n : Nat) (xs : List Dword) : State :=
  (List.range n).foldl (fun s k => s.setReg (base k) (nth 0#64 xs k).toNat) s

/-- Four 16-bit sensor readings of 12 bits; 0xFFFF is a sensor fault (TEL_TJ_CLU, VLT_TEMP). -/
def readings (w : Dword) : Dword :=
  let one := fun (x : BitVec 16) => if x = 0xFFFF#16 then x else x &&& 0xFFF#16
  one (w.extractLsb' 48 16) ++ one (w.extractLsb' 32 16) ++ one (w.extractLsb' 16 16) ++ one (w.extractLsb' 0 16)

/-- The Umpire publishes its samples, and throttles by them. -/
def State.publish (s : State) (x : TickSample) : State :=
  let p := x.power.toNat
  let e := s.mgt.energy + p
  let s1 := (((s.setReg Reg.telTj (x.tj.toNat + x.td.toNat * 2 ^ 12)).setReg Reg.telPower p).setReg Reg.telEnergy (e / 1000))
  let s2 := ((s1.setRegs Reg.telRail 10 x.rails).setRegs Reg.telTjClu 64 (x.clusters.map readings)).setRegs Reg.vltTemp 64
    (x.dram.map readings)
  ({ s2 with mgt := { s2.mgt with energy := e } }).throttle x.tj.toNat x.td.toNat p

/-! ## What falls due -/

/-- R561, R562, R564: the lead's frames of a tick; a strapped lead that has heard no TIME frame with LEADB in the 16 ticks after POR# begins to
act. -/
def State.leadTick (s : State) : State :=
  if !s.chainsOn then s
  else
    let s1 := if s.uhlRole = 1 && !s.acting && !s.mgt.heardB && s.ticks == 16 then s.startActing
      else if s.acting && s.ticks % 1000 == 0 then s.sendEnum
      else s
    if s1.acting then s1.originate frmTime (s1.mgt.rtSet.getD s1.nextEdge) false else s1

/-- R569: neighbours lost for 16 ticks, and DEGRADED newly met, are broadcast. -/
def State.faultTick (s : State) : State :=
  let s1 := s.lostNeighbours.foldl (fun s p => s.broadcast (s.rosterId p) p kindNeighbour) s.resendFaults
  let d := s1.degraded
  let s2 := if d && !s1.mgt.degraded then s1.broadcastSelf kindDegraded else s1
  { s2 with mgt := { s2.mgt with degraded := d } }

/-- R449: every port that is UP sends IDENT and ECHO. -/
def State.portTick (s : State) : State :=
  (List.range 22).foldl (fun s p => if s.portSt p = 2 then (s.sendIdent p).sendEcho p else s) s

/-- Cycles of the domains that the model does not clock: how many pass in a tick is open (log entry 2). -/
def State.cycleTick (s : State) : State :=
  let s1 := (List.range 3).foldl (fun s k => s.bump (Reg.clkDomCyc (k + 1)) (Config.freeValue (s.freeCount + k)).toNat) s
  { s1 with freeCount := s1.freeCount + 3 }

/-- R618: while a port sends a pattern, its checkers may lock and count bit errors; which lanes lock and how many bits fail in a tick is
open (log entry 2). -/
def State.prbsPort (s : State) (p : Nat) : State :=
  if s.fld (Reg.portPrbs p) 0 1 = 1 then
    let seen := Nat.land (s.fld (Reg.portCtrl p) 2 8) (Config.freeValue s.freeCount).toNat
    let lock := Nat.lor (s.fld (Reg.portPrbs p) 3 8) seen
    let s1 := s.setFld (Reg.portPrbs p) 3 8 lock
    let s2 := if lock = 0 then s1 else s1.bump (Reg.portPrbsErr p) (Config.freeValue (s.freeCount + 1)).toNat
    { s2 with freeCount := s.freeCount + 2 }
  else s

/-- R618: every port's checkers. -/
def State.prbsTick (s : State) : State := (List.range 22).foldl State.prbsPort s

/-- R24: the device is READY at the first tick after step START. -/
def State.readyTick (s : State) : State :=
  if s.clk.ready && s.bootStep == 3 then s.setFld Reg.umpBoot 0 4 4 else s

/-- R555: a tick boundary. While the Umpire does not run there are no samples, and the throttle levels stand (R527). -/
def execTick (x : TickSample) (s : State) : Host.Outcome State Fault Refusal :=
  .next (if s.clk.por then s
    else
      let s1 := s.countTick
      let s2 := if s1.fld Reg.umpStatus 0 2 = 1 then s1.publish x else s1
      (s2.switchUmpire.tickTimers.readyTick.refreshChains.leadTick.faultTick.portTick.prbsTick.cycleTick).updateGlb)

end Sys2Proof.Machine
end

