-- ==== Sys2Proof/Machine/Access.lean ====
section
/-! DEFINITION. Host accesses of registers as the link carries them, and JTAG's access to the same map (R8 to R10, R535 to R543,
R617). -/

namespace Sys2Proof.Machine

/-- The state that an outcome goes on with. -/
def nextOr (s : State) : Host.Outcome State Fault Refusal → State
  | .next t => t
  | _ => s

/-- Index of a register in its family, `w` bits wide. -/
def famIdx (w b base st : Nat) : BitVec w := BitVec.ofNat w ((b - base) / st)

/-- What the crypto checks of an image come to where the command does not say it: free (log entry 12). -/
def State.freeCheck (s : State) : ImgCheck :=
  ⟨(Config.freeValue s.freeCount).getLsbD 0, (Config.freeValue s.freeCount).getLsbD 1⟩

/-- Writes of the control-plane, vault and fabric registers that have rows of their own. -/
def ownCtrl (fn : BitVec 6) (b v : Nat) (s : State) : Option (Host.Outcome State Fault Refusal) :=
  let w : Word := BitVec.ofNat 32 v
  let d : Dword := BitVec.ofNat 64 v
  let bank : BitVec 2 := BitVec.ofNat 2 (v / 4)
  let index : BitVec 13 := BitVec.ofNat 13 (v / 16)
  let key : BitVec 8 := BitVec.ofNat 8 (v / 2 ^ 24)
  if b = Reg.burTableSel then some (execBurTableSel fn w s)
  else if atStride b (Reg.burWinCfg 0) 16 0x10 then some (execBurWinCfg fn (famIdx 4 b (Reg.burWinCfg 0) 0x10) w s)
  else if b = Reg.ngvId then some (execNgvId fn w s)
  else if atStride b (Reg.ngvDest 0) 4096 8 then some (execNgvDest fn (famIdx 12 b (Reg.ngvDest 0) 8) d s)
  else if atStride b (Reg.portCtrl 0) 22 0x80 then some (execPortCtrl fn (famIdx 5 b (Reg.portCtrl 0) 0x80) w s)
  else if atStride b (Reg.portCred 0) 22 0x80 then some (execPortCred fn (famIdx 5 b (Reg.portCred 0) 0x80) w s)
  else if atStride b (Reg.portPrbs 0) 22 0x80 then some (execPortPrbs fn (famIdx 5 b (Reg.portPrbs 0) 0x80) w s)
  else if b = Reg.gdrRetireCmd then some (execGdrRetireCmd fn w s)
  else if atStride b (Reg.dlrTeamRst 0) 64 0x20 then some (execTeamReset fn (famIdx 6 b (Reg.dlrTeamRst 0) 0x20) w s)
  else if b = Reg.vltRepairCmd then some (match v % 4 with
    | 0 => execSoftRow fn bank index s
    | 1 => execSoftColumn fn bank index s
    | 2 => execProgramHardRow fn bank index key s
    | _ => execProgramHardColumn fn bank index key s)
  else if b = Reg.vltBistCtrl then some (execBistStart fn (BitVec.ofNat 4 v) s)
  else if b = Reg.slcCtrl then some (match v % 8 with
    | 1 => execActivate fn s
    | 2 => execDissolve fn s
    | 3 => execCut fn (BitVec.ofNat 7 (v / 8)) s
    | _ => execRestore fn s)
  else none

/-- Writes of the determinism, management and clock registers that have rows of their own, and of RING_CFG. -/
def ownMgmt (fn : BitVec 6) (b v : Nat) (s : State) : Option (Host.Outcome State Fault Refusal) :=
  let w : Word := BitVec.ofNat 32 v
  let d : Dword := BitVec.ofNat 64 v
  let s' : State := { s with freeCount := s.freeCount + 1 }
  if b = Reg.detCfg then some (execDetCfg fn w s)
  else if b = Reg.detRingTail then some (execDetRingTail fn d s)
  else if b = Reg.detTlogTail then some (execDetTlogTail fn d s)
  else if b = Reg.detJobCtrl then some (if v % 2 = 1 then execStart fn w s else execAbort fn s)
  else if b = Reg.uhlRtSet then some (execUhlRtSet fn d s)
  else if b = Reg.uhlSnapT then some (execUhlSnapT fn d s)
  else if b = Reg.umpSwitch then some (execUmpSwitch fn w s)
  else if b = Reg.umpSvcOut then some (execUmpSvcOut fn w s)
  else if b = Reg.umpStageCmd then some (if bitOf v 2 then execStageRack fn w s.freeCheck s' else execStageLocal fn w s.freeCheck s')
  else if b = Reg.secCmd then some (if v % 4 = 1 then execCommitSvn fn w s else execRevoke fn w s)
  else if b = Reg.shcCmd then some (if bitsOf v 5 2 = 1 then execClaim 5#3 fn (BitVec.ofNat 5 v) (BitVec.ofNat 8 (v / 2 ^ 8)) s
    else execReleaseClaim 5#3 fn (BitVec.ofNat 5 v) s)
  else if b = Reg.pwrCmd then some (if v % 4 = 1 then execRest fn w s else execWake fn w s)
  else if b = Reg.clkXctrl then some (execClkXctrl fn w s)
  else if b = Reg.clkClkout then some (execClkClkout fn w s)
  else if atStride b (Reg.clkPllCfg 0) 6 4 then some (execClkPllnCfg fn (famIdx 3 b (Reg.clkPllCfg 0) 4) w s)
  else if atStride b (Reg.clkDomSel 0) 4 4 then some (execClkDomSel fn (famIdx 2 b (Reg.clkDomSel 0) 4) w s)
  else if 0x310100 ≤ b && b < 0x350000 then
    some (execRingEnable fn (famIdx 6 b 0x310000 0x1000) (famIdx 2 (b % 0x1000) 0x100 0x40) w s)
  else none

/-- A committed write of a register that has a row of its own does what that row does. -/
def ownWrite (fn : BitVec 6) (b v : Nat) (s : State) : State :=
  nextOr s (((ownCtrl fn b v s).or (ownMgmt fn b v s)).getD (.next s))

/-- The doorbell at a BAR2 offset (R543). -/
def State.bell (s : State) (f off size v : Nat) : State := s.doorbell f (off / 4) size (v % 2 ^ 32)

/-- A poisoned write of BAR0 or BAR2 is dropped and rejected with E_MEDIA (R534), after the checks that every access meets (R540). -/
def State.dropPoisoned (s : State) (f bar off size : Nat) : State :=
  if s.linkDown then s
  else
    s.reject f ((firstCheck [((size != 4 && size != 8) || off % size != 0, .eAlign), (s.ideBlocks, .ePerm)]).getD .eMedia) bar off false

/-- R8 to R10, R535 to R543: a host access of BAR0 or BAR2. -/
def execRegisterWrite (fn : BitVec 6) (bar : BitVec 2) (off : BitVec 26) (size : Nat) (acc : RegAccess) (s : State) :
    Host.Outcome State Fault Refusal :=
  let f := fn.toNat
  let o := off.toNat
  .next (match bar, acc with
    | 0#2, .read => s.readBar0 f o size
    | 0#2, .write v poisoned =>
      if poisoned then s.dropPoisoned f 0 o size else s.writeBar0 (ownWrite fn) f o size v.toNat
    | 1#2, .read => s.readBar2 f o size
    | 1#2, .write v poisoned =>
      if poisoned then s.dropPoisoned f 1 o size
      else if o < 0x10 && o % 4 == 0 then s.bell f o size v.toNat
      else s.writeBar2 f o size v.toNat
    | _, _ => s)

/-! ## JTAG's access to the map (R617) -/

/-- Width of the register that holds an offset. -/
def accessSize (off : Nat) : Nat :=
  match findReg off regMap with
  | some (d, _) => if d.bytes = 4 then 4 else 8
  | none => 8

/-- The link state that DBG sees: neither PERST# nor IDE stands in the way of JTAG. -/
def State.dbgView (s : State) : State :=
  ({ s with hst := { s.hst with perst := false }, clk := { s.clk with por := false } }).setFld Reg.hstCfg 16 1 0

/-- The link state returns to what it was. -/
def State.dbgBack (s t : State) : State :=
  ({ t with hst := { t.hst with perst := s.hst.perst }, clk := { t.clk with por := s.clk.por } }).setFld Reg.hstCfg 16 1
    (s.fld Reg.hstCfg 16 1)

/-- DBG: a 64-bit access to the BAR0 map with PF rights, under the rules of each block; one that a block rejects changes nothing. -/
def execDbg (write : Bool) (off : BitVec 26) (value : Dword) (s : State) : Host.Outcome State Fault Refusal :=
  let o := off.toNat
  .next (s.privateTap tapDbg (fun s =>
    let v := s.dbgView
    if write then
      (let t := v.writeBar0 (ownWrite 0#6) 0 o (accessSize o) value.toNat
       if t.reg Reg.hstRejCnt = v.reg Reg.hstRejCnt then s.dbgBack t else s)
    else s.emit (.pin pinTdo (match findReg o regMap with
      | some (_, b) => s.readReg b / 2 ^ (8 * (o - b)) % 2 ^ 64
      | none => 0))))

end Sys2Proof.Machine
end

