-- ==== Sys2Proof/Machine/PlateOps.lean ====
section
/-! DEFINITION. The commands and events of the plate manager, each with the examination of the queue that follows a release (R358 to
R380, R398). -/

namespace Sys2Proof.Machine

/-! ## Pools (R358, R359, R377, R379) -/

/-- R358: define, resize or disable a pool. -/
def execPoolSet (pool : BitVec 6) (en : Bool) (tier : BitVec 2) (lines : BitVec 20) (team : BitVec 6) (base : Dword)
    (count : Word) (s : State) : Host.Outcome State Fault Refusal :=
  let p := pool.toNat
  let b := base.toNat
  let keep := s.poolTier p == tier.toNat && s.poolLines p == lines.toNat && s.poolBase p == b && s.poolTeam p == team.toNat
  .next (s.pltCmd
    [(lines == 0#20, .eArg),
     (s.poolOn p && !(s.takenSlots p).isEmpty && (!en || !keep || (s.takenSlots p).any (fun k => decide (count.toNat ≤ k))), .eBusy),
     (en && s.poolClash p tier.toNat lines.toNat team.toNat b count.toNat, .eRange)]
    (fun s =>
      (((s.setReg (Reg.pltPoolCfg p) (bit en + tier.toNat * 2 + lines.toNat * 2 ^ 4 + team.toNat * 2 ^ 24)).setReg
        (Reg.pltPoolBase p) b).setReg (Reg.pltPoolCount p) count.toNat, .ok)))

/-- R359: add to a pool's reservation for a sequence. -/
def execReserve (pool : BitVec 6) (seq : BitVec 13) (n : Word) (s : State) : Host.Outcome State Fault Refusal :=
  let p := pool.toNat
  .next (s.pltCmd [(!s.poolOn p, .eState), (decide (s.poolFree p < s.poolRsv p + n.toNat), .eNoroom)] (fun s =>
    (s.updPool p (fun x => { x with rsv := upd 0 x.rsv seq.toNat (fun k => k + n.toNat) }), .ok)))

/-- R359: return reserved slots that are not allocated. -/
def execRelease (pool : BitVec 6) (seq : BitVec 13) (n : Word) (s : State) : Host.Outcome State Fault Refusal :=
  let p := pool.toNat
  .next (s.examineAfter (s.pltCmd [(!s.poolOn p, .eState)] (fun s =>
    (s.updPool p (fun x => { x with
      rsv := upd 0 x.rsv seq.toNat (fun k => max (k - n.toNat) (min k (s.seqMost p seq.toNat))) }), .ok))))

/-- R377: reserve a range of local memory for a peer; no pool may lie in it, of whatever tier. -/
def execLend (base : Dword) (len : Dword) (s : State) : Host.Outcome State Fault Refusal :=
  let b := base.toNat
  let pooled := (List.range 64).any (fun k => s.poolOn k &&
    (s.poolSpans (s.poolTier k) (s.poolTeam k) (s.poolBase k) (s.poolCount k * s.poolLines k * 32)).any
      (fun x => overlaps b len.toNat x.1 x.2))
  .next (s.pltCmd [(b % 32 != 0 || len.toNat % 32 != 0, .eArg), (pooled, .eNoroom)] (fun s =>
    ({ s with plt := { s.plt with lends := s.plt.lends ++ [(b, len.toNat)] } }, .ok)))

/-- Set a pool's watermarks and demotion target (Table PLT-10). -/
def execPolicy (pool : BitVec 6) (low high : BitVec 6) (demoteTo : BitVec 6) (demoteEn : Bool) (s : State) :
    Host.Outcome State Fault Refusal :=
  .next (s.pltCmd [(!s.poolOn pool.toNat, .eState)] (fun s =>
    (s.setReg (Reg.pltPoolWm pool.toNat)
      (low.toNat + high.toNat * 2 ^ 8 + demoteTo.toNat * 2 ^ 16 + bit demoteEn * 2 ^ 22), .ok)))

/-! ## Chains (R362, R373, R378, R379) -/

/-- R362: create a chain. `kvw` is the width minus 1, `lhs` layers × heads. -/
def execChainNew (seq : BitVec 13) (tenant : BitVec 6) (log2n : BitVec 4) (kvw : BitVec 3) (depth : BitVec 3) (jb : BitVec 5)
    (lhb : BitVec 4) (hpool : BitVec 6) (lhs : Nat) (s : State) : Host.Outcome State Fault Refusal :=
  let n := log2n.toNat
  .next (s.pltCmd
    [(decide (n < 4) || decide (12 < n) || decide (2 ^ lhb.toNat < lhs) || decide (20 < jb.toNat + n) ||
        depth.toNat != ceilDiv (lhb.toNat + jb.toNat) 6 || depth == 0#3 || decide (5 < depth.toNat) ||
        !s.poolOn hpool.toNat, .eArg),
     ((s.chain? seq.toNat).isSome, .eState)]
    (fun s => (s.createChain seq.toNat
      { tenant := tenant.toNat, log2n := n, kvw := kvw.toNat + 1, depth := depth.toNat, jb := jb.toNat, lhb := lhb.toNat
        hpool := hpool.toNat, lhs := lhs }, .ok)))

/-- R379: CHAIN_FREE. On a member of a slice it is the lead's, and frees the request slot that the member holds (R394). -/
def execChainFree (seq : BitVec 13) (s : State) : Host.Outcome State Fault Refusal :=
  let n := seq.toNat
  .next (s.examineAfter (s.pltCmd [((s.chain? n).isNone, .eState)] (fun s =>
    ((if (s.slot? n).any (fun x => x.lead != s.devId) then s.freeReq n else s.freeChain n), .ok))))

/-- R373: bind a sequence to a team. -/
def execBind (seq : BitVec 13) (team : BitVec 6) (s : State) : Host.Outcome State Fault Refusal :=
  .next (s.pltCmd
    [((s.chain? seq.toNat).isNone || (s.runningIn seq.toNat).isSome || !s.teamLoaded team.toNat, .eState)]
    (fun s => ((s.bindSeq seq.toNat (some team.toNat)).updSlot seq.toNat (fun x => { x with team := some team.toNat }), .ok)))

/-- R374, R375: move one plate to another pool. -/
def execMove (seq : BitVec 13) (key : Nat) (pool : BitVec 6) (s : State) : Host.Outcome State Fault Refusal :=
  let x := (s.chain? seq.toNat).bind (fun c => (plateOf c.shadow key).map (fun p => (c, p)))
  .next (s.pltCmd
    [(!s.poolOn pool.toNat || s.poolTier pool.toNat == 3, .eArg), (x.isNone, .eState),
     (x.any (fun y => !s.movable seq.toNat y.2), .eBusy)]
    (fun s => match x with
      | none => (s, .eState)
      | some (c, p) => s.startMove seq.toNat (c.team.getD (s.poolTeam pool.toNat)) pool.toNat c p))

/-- R378: Dealer firmware marks a plate lost. -/
def execMarkLost (seq : BitVec 13) (key : Nat) (s : State) : Host.Outcome State Fault Refusal :=
  .next (s.examineAfter (s.pltCmd [(((s.chain? seq.toNat).bind (fun c => plateOf c.shadow key)).isNone, .eState)]
    (fun s => (s.losePlate seq.toNat key, .ok))))

/-! ## Turns (R367 to R371, R376) -/

/-- R367: allocate and stage the plates of a prepared turn. `spool` is the pool that takes staged copies. -/
def execPrepare (team : BitVec 6) (spool : BitVec 6) (batch : TurnBatch) (s : State) : Host.Outcome State Fault Refusal :=
  .next (s.pltCmd [(!s.teamLoaded team.toNat, .eState)]
    (fun s => s.pltPrepare team.toNat spool.toNat batch.turn.toNat (batch.seqs.map (fun b => (b.1.toNat, b.2)))))

/-- R369, R376: COMMIT of a team's turn. -/
def execCommit (team : BitVec 6) (turn : Dword) (attempt : BitVec 2) (seqs : List (BitVec 13 × Nat))
    (promote : List (BitVec 13 × Nat)) (s : State) : Host.Outcome State Fault Refusal :=
  let absent := fun (b : BitVec 13 × Nat) => ((s.chain? b.1.toNat).bind (fun c => plateOf c.shadow b.2)).isNone
  .next (s.examineAfter (s.pltCmd [(seqs.any (fun b => (s.chain? b.1.toNat).isNone) || promote.any absent, .eState)] (fun s =>
    (s.pltCommit team.toNat turn.toNat attempt.toNat (seqs.map (fun b => (b.1.toNat, b.2)))
      (promote.map (fun b => (b.1.toNat, b.2))), .ok))))

/-- R371: DISCARD of a team's turn. -/
def execDiscard (team : BitVec 6) (turn : Dword) (attempt : BitVec 2) (s : State) : Host.Outcome State Fault Refusal :=
  .next (s.pltCmd [(!s.teamLoaded team.toNat, .eState)] (fun s =>
    (s.pltDiscard team.toNat turn.toNat attempt.toNat, .ok)))

/-- R364, R370: slots and nodes whose release waited are freed. -/
def execReclaim (team : BitVec 6) (s : State) : Host.Outcome State Fault Refusal := .next (s.examineAfter (s.reclaim team.toNat))

/-! ## Copies that end (R368, R369, R374) -/

/-- R368: a staging copy ends: the slot takes the plate's bytes and STAGED is set in the shadow; a failed read loses the plate, and one whose
lines the port dropped (R263) leaves it unstaged. -/
def execStagingCopyDone (seq : BitVec 13) (key : Nat) (s : State) : Host.Outcome State Fault Refusal :=
  let n := seq.toNat
  .next (match s.plt.staging.find? (fun x => x.seq == n && x.key == key),
      (s.chain? n).bind (fun c => plateOf c.shadow key) with
    | some x, some p =>
      (match s.homeBytes n p .stage with
        | none => s
        | some (s1, bytes, bad) =>
          let s2 := { s1 with plt := { s1.plt with staging := s1.plt.staging.filter (fun y => y != x) } }
          if bad then (s2.releaseSlot n x.pool x.rank x.slot).losePlate n key
          else
            let w := s2.writeSlot x.pool x.rank x.slot (bytes.take (32 * s.poolLines x.pool)) (.plate n key .stage)
            if w.2 ≠ .ok then w.1.releaseSlot n x.pool x.rank x.slot
            else
              (w.1.editPlate n key (fun p => { p with staged := true, spool := x.pool, srank := x.rank, sslot := x.slot })).bump
                Reg.pltStageCnt 1)
    | _, _ => s)

/-- R369: a write-back ends once its lines have reached the home copy. -/
def execWriteBackDone (seq : BitVec 13) (key : Nat) (s : State) : Host.Outcome State Fault Refusal :=
  let n := seq.toNat
  .next (s.examineAfter (match s.plt.writeBacks.find? (fun x => x.1 == n && x.2.1 == key),
      (s.chain? n).bind (fun c => (plateOf c.shadow key).map (fun p => (c, p))) with
    | some x, some (c, p) =>
      let src := gLoc (s.slotAddr p.spool p.srank p.sslot)
      let dst := s.slotAddr p.hpool p.homeRank p.hslot
      let team := c.team.getD (s.poolTeam p.spool)
      let ls := plateSpan (s.team team).bytes.plateFmt p.kvw c.log2n x.2.2.1 x.2.2.2
      let o := TxOwner.plate n key .writeBack
      let crc := s.hasFailed n key .writeBack
      if gDev dst = s.devId then
        (if crc || (s.localCheck .plates true (gLoc dst) (32 * s.poolLines p.hpool)).isSome then s.endWriteBack x ls.length true
         else
          let r := s.writeBackLines src (gLoc dst) ls
          r.1.endWriteBack x ls.length (r.2 != .ok))
      else if (s.txOf o).isEmpty then
        (let r := s.sendBackLines n key src (gDev dst) (gLoc dst) ls
         if r.2 = .ok then r.1 else (r.1.dropTx o).endWriteBack x ls.length true)
      else if allDone (s.txOf o) then (s.dropTx o).endWriteBack x ls.length (crc || (failOf (s.txOf o)).isSome)
      else s
    | _, _ => s))

/-- R374: a move's copy ends. Its reads and its writes are transfers of their own where a slot lies on another device. -/
def execMoveComplete (seq : BitVec 13) (key : Nat) (writeFail : Bool) (s : State) : Host.Outcome State Fault Refusal :=
  let n := seq.toNat
  .next (s.examineAfter (State.releaseTransit (n := n) (match s.plt.moves.find? (fun x => x.seq == n && x.key == key),
      (s.chain? n).bind (fun c => plateOf c.shadow key) with
    | some x, some p =>
      let gone := fun (s : State) => { s with plt := { s.plt with moves := s.plt.moves.filter (fun y => y != x) } }
      let dst := s.slotAddr x.pool x.rank x.slot
      let o := TxOwner.plate n key .moveWrite
      let sent := s.txOf o
      let fails := writeFail || s.hasFailed n key .moveWrite
      if !(s.txOf (.plate n key .zero)).isEmpty then s
      else if gDev dst ≠ s.devId && !sent.isEmpty then
        (if !allDone sent then s
         else if fails || (failOf sent).isSome then (gone (s.dropTx o)).dropMove x
         else (gone (s.dropTx o)).endMove x p)
      else
        (match s.homeBytes n p .moveRead with
          | none => s
          | some (s1, bytes, bad) =>
            if bad then ((gone s1).freeSlot x.pool x.rank x.slot).losePlate n key
            else if fails || (gDev dst = s.devId && (s1.localCheck .plates true (gLoc dst) (32 * s.poolLines x.pool)).isSome)
            then (gone s1).dropMove x
            else
              let w := s1.writeSlot x.pool x.rank x.slot (bytes.take (32 * s.poolLines x.pool)) o
              if gDev dst ≠ s.devId then w.1
              else if w.2 = .ok then (gone w.1).endMove x p else (gone w.1).dropMove x)
    | _, _ => s)))

/-! ## Watermarks (R372, R375) -/

/-- R372: evict staged copies from a core while its vault pool is below LOW, until HIGH. -/
def execEviction (pool : BitVec 6) (rank : BitVec 12) (s : State) : Host.Outcome State Fault Refusal :=
  let p := pool.toNat
  let r := rank.toNat
  let cand := s.byStamp (fun seq x => x.tier != 0 && x.staged && !x.wbPend && x.spool == p && x.srank == r &&
    !((s.runningIn seq).isSome && x.mapped == 1) &&
    !s.plt.turns.any (fun t => t.2.prepared.any (fun q => q.1 == seq)))
  .next (s.examineAfter (if s.poolOn p && s.poolTier p == 0 && decide (s.freeAt p r < s.lowMark p) then
      cand.foldl (fun s x =>
        if s.highMark p ≤ s.freeAt p r then s
        else ((s.freeSlot p r x.2.sslot).editPlate x.1 x.2.key (fun y => { y with staged := false })).bump Reg.pltEvictCnt 1) s
    else s))

/-- R375: demote VAULT plates while the pool is below LOW, the least recently mapped first, until it will have HIGH. A refused allocation is
reported (R359). -/
def execDemotion (pool : BitVec 6) (s : State) : Host.Outcome State Fault Refusal :=
  let p := pool.toNat
  let to_ := s.fld (Reg.pltPoolWm p) 16 6
  let cand := s.byStamp (fun seq x => x.tier == 0 && x.hpool == p && s.movable seq x)
  .next (if s.poolOn p && s.poolTier p == 0 && s.fld (Reg.pltPoolWm p) 22 1 == 1 && decide (s.poolFree p < s.lowMark p) then
      cand.foldl (fun s x =>
        if s.highMark p ≤ s.freeSoon p then s
        else
          match s.chain? x.1 with
          | none => s
          | some c => (s.startMove x.1 (c.team.getD (s.poolTeam p)) to_ c x.2).1) s
    else s)

end Sys2Proof.Machine
end

