-- ==== Sys2Proof/Machine/Scalar.lean ====
section
/-! DEFINITION. The scalar unit: R-form, I-form, LUI, LDW, STW, ASET, RDS (R205 to R210). -/

namespace Sys2Proof.Machine

/-- An R-form or I-form instruction: the value computed from the core, readable after its latency (R205). -/
def scalarOp (i : Issue) (sd : BitVec 5) (lat : Nat) (f : Core → Word) (s : State) : State :=
  issueOp i 2 (fun s c =>
    { faults := [clashSFault c sd lat]
      eff := s.setCore i.core.toNat (c.retS sd (f c) lat) }) s

/-- R205: sd ← sa + sb. -/
def execAdd (i : Issue) (sd sa sb : BitVec 5) (s : State) : Host.Outcome State Fault Refusal :=
  .next (scalarOp i sd 1 (fun c => c.rs sa + c.rs sb) s)

/-- R205: sd ← sa − sb. -/
def execSub (i : Issue) (sd sa sb : BitVec 5) (s : State) : Host.Outcome State Fault Refusal :=
  .next (scalarOp i sd 1 (fun c => c.rs sa - c.rs sb) s)

/-- R205: bitwise AND. -/
def execAnd (i : Issue) (sd sa sb : BitVec 5) (s : State) : Host.Outcome State Fault Refusal :=
  .next (scalarOp i sd 1 (fun c => c.rs sa &&& c.rs sb) s)

/-- R205: bitwise OR. -/
def execOr (i : Issue) (sd sa sb : BitVec 5) (s : State) : Host.Outcome State Fault Refusal :=
  .next (scalarOp i sd 1 (fun c => c.rs sa ||| c.rs sb) s)

/-- R205: bitwise XOR. -/
def execXor (i : Issue) (sd sa sb : BitVec 5) (s : State) : Host.Outcome State Fault Refusal :=
  .next (scalarOp i sd 1 (fun c => c.rs sa ^^^ c.rs sb) s)

/-- The shift count: sb mod 32 (R205). -/
def shiftCount (x : Word) : Nat := x.toNat % 32

/-- R205: shift left by sb mod 32. -/
def execShl (i : Issue) (sd sa sb : BitVec 5) (s : State) : Host.Outcome State Fault Refusal :=
  .next (scalarOp i sd 1 (fun c => c.rs sa <<< shiftCount (c.rs sb)) s)

/-- R205: logical shift right by sb mod 32. -/
def execShr (i : Issue) (sd sa sb : BitVec 5) (s : State) : Host.Outcome State Fault Refusal :=
  .next (scalarOp i sd 1 (fun c => c.rs sa >>> shiftCount (c.rs sb)) s)

/-- R205: arithmetic shift right by sb mod 32. -/
def execSra (i : Issue) (sd sa sb : BitVec 5) (s : State) : Host.Outcome State Fault Refusal :=
  .next (scalarOp i sd 1 (fun c => (c.rs sa).sshiftRight (shiftCount (c.rs sb))) s)

/-- R205: 1 when sa < sb, signed. -/
def execSlt (i : Issue) (sd sa sb : BitVec 5) (s : State) : Host.Outcome State Fault Refusal :=
  .next (scalarOp i sd 1 (fun c => if (c.rs sa).toInt < (c.rs sb).toInt then 1#32 else 0#32) s)

/-- R205: 1 when sa < sb, unsigned. -/
def execSltu (i : Issue) (sd sa sb : BitVec 5) (s : State) : Host.Outcome State Fault Refusal :=
  .next (scalarOp i sd 1 (fun c => if (c.rs sa).toNat < (c.rs sb).toNat then 1#32 else 0#32) s)

/-- R205: low 32 bits of the product, latency 3. -/
def execMul (i : Issue) (sd sa sb : BitVec 5) (s : State) : Host.Outcome State Fault Refusal :=
  .next (scalarOp i sd 3 (fun c => c.rs sa * c.rs sb) s)

/-- R206: sa + sign-extended IMM. -/
def execAddi (i : Issue) (sd sa : BitVec 5) (imm : BitVec 16) (s : State) : Host.Outcome State Fault Refusal :=
  .next (scalarOp i sd 1 (fun c => c.rs sa + imm.signExtend 32) s)

/-- R206: sa OR zero-extended IMM. -/
def execOri (i : Issue) (sd sa : BitVec 5) (imm : BitVec 16) (s : State) : Host.Outcome State Fault Refusal :=
  .next (scalarOp i sd 1 (fun c => c.rs sa ||| imm.zeroExtend 32) s)

/-- R206: IMM × 2^16. -/
def execLui (i : Issue) (sd : BitVec 5) (imm : BitVec 16) (s : State) : Host.Outcome State Fault Refusal :=
  .next (scalarOp i sd 1 (fun _ => imm.zeroExtend 32 <<< 16) s)

/-- The address sa + OFF of LDW and STW (R207). -/
def wordAddr (c : Core) (sa : BitVec 5) (off : BitVec 16) : Nat := (c.rs sa + off.signExtend 32).toNat

/-- R207: loads 4 bytes, latency 3. -/
def execLdw (i : Issue) (sd sa : BitVec 5) (off : BitVec 16) (s : State) : Host.Outcome State Fault Refusal :=
  .next (issueOp i 2 (fun s c =>
    let a := wordAddr c sa off
    { reads := [(a, 4)]
      faults := [rangeFault a 4, alignFault a 4, clashSFault c sd 3]
      eff := s.setCore i.core.toNat
        (c.retS sd (BitVec.ofNat 32 (s.dmNat i.core.toNat a 4)) 3) }) s)

/-- R207: stores 4 bytes, written in c + 1. -/
def execStw (i : Issue) (ss sa : BitVec 5) (off : BitVec 16) (s : State) : Host.Outcome State Fault Refusal :=
  .next (issueOp i 2 (fun s c =>
    let a := wordAddr c sa off
    { faults := [writeRangeFault c a 4, alignFault a 4]
      eff := s.setCore i.core.toNat (c.store 2 a (leBytes 4 (c.rs ss).toNat)) }) s)

/-- R208: writes address register aN from the pair sA and sA + 1. -/
def execAset (i : Issue) (aN : BitVec 3) (sA : BitVec 5) (s : State) : Host.Outcome State Fault Refusal :=
  .next (issueOp i 2 (fun s c =>
    let lo := (c.rs sA).toNat
    let hi := (c.rs1 sA 1).toNat
    let cnt := bitsOf hi 0 16
    let ix := bitsOf hi 16 16
    { faults := [(!regAligned sA 2, .badOperand, 0), (cnt != 0 && decide (cnt ≤ ix), .badOperand, hi), clashAFault c aN]
      eff := s.setCore i.core.toNat
        (c.writeA aN (BitVec.ofNat 64 (lo + cnt * 2 ^ 32 + ix * 2 ^ 48))) }) s)

/-- The value RDS names (Table ISA-24); `none` for any other code. -/
def rdsValue (s : State) (n : Nat) (c : Core) (code : Nat) : Option Word :=
  let t := s.teamRec n
  if code = 0 then some (BitVec.ofNat 32 c.now)
  else if code = 1 then some (BitVec.ofNat 32 (c.now / 2048))
  else if code = 2 then some (BitVec.ofNat 32 (c.now % 2048))
  else if code = 3 then some (BitVec.ofNat 32 c.rank)
  else if code = 4 then
    some (BitVec.ofNat 32 (teamX t n + teamY t n * 2 ^ 8 + t.width % 256 * 2 ^ 16 + t.height % 256 * 2 ^ 24))
  else if code = 5 then some (BitVec.ofNat 32 t.role)
  else if code = 6 then some (BitVec.ofNat 32 c.turn)
  else if code = 7 then some (BitVec.ofNat 32 (c.turn / 2 ^ 32))
  else if 8 ≤ code ∧ code ≤ 15 then some (BitVec.ofNat 32 ((c.dq[code - 8]?).getD {}).posted)
  else if 16 ≤ code ∧ code ≤ 18 then some (BitVec.ofNat 32 ((c.lc[code - 16]?).getD 0#16).toNat)
  else none

/-- R209: sd ← the value CODE names. -/
def execRds (i : Issue) (sd : BitVec 5) (code : BitVec 8) (s : State) : Host.Outcome State Fault Refusal :=
  .next (issueOp i 2 (fun s c =>
    let x := rdsValue s i.core.toNat c code.toNat
    { faults := [(x.isNone, .badOperand, code.toNat), clashSFault c sd 1]
      eff := s.setCore i.core.toNat (c.retS sd (x.getD 0#32) 1) }) s)

/-- R131: an all-zero slot issues and does nothing. -/
def execNop (i : Issue) (s : State) : Host.Outcome State Fault Refusal :=
  .next (issueOp i i.slot.toNat (fun s _ => { eff := s }) s)

end Sys2Proof.Machine
end

