-- ==== Sys2Proof/Machine/Dispatch.lean ====
section
/-! DEFINITION. Dispatch: each command to its one meaning. -/

namespace Sys2Proof.Machine

/-- The effect of a command on everything but the queue. -/
def exec (i : Instr) (s : State) : Host.Outcome State Fault Refusal :=
  match i with
  | .nop iss => Sys2Proof.Machine.execNop iss s
  | .mode iss w k xb => Sys2Proof.Machine.execMode iss w k xb s
  | .tld iss sA src tpos => Sys2Proof.Machine.execTld iss sA src tpos s
  | .tldm iss sA layout => Sys2Proof.Machine.execTldm iss sA layout s
  | .tsw iss => Sys2Proof.Machine.execTsw iss s
  | .pln iss g aN sX m1 rowOff triple sw cb => Sys2Proof.Machine.execPln iss g aN sX m1 rowOff triple sw cb s
  | .xld iss sA => Sys2Proof.Machine.execXld iss sA s
  | .cld iss sA => Sys2Proof.Machine.execCld iss sA s
  | .gopn iss g sA => Sys2Proof.Machine.execGopn iss g sA s
  | .gspl iss g free => Sys2Proof.Machine.execGspl iss g free s
  | .gresReset iss g => Sys2Proof.Machine.execGresReset iss g s
  | .gresReload iss g => Sys2Proof.Machine.execGresReload iss g s
  | .gcls iss g => Sys2Proof.Machine.execGcls iss g s
  | .sld iss e sA => Sys2Proof.Machine.execSld iss e sA s
  | .draw iss e seq idx vb sA vd => Sys2Proof.Machine.execDraw iss e seq idx vb sA vd s
  | .tileReady core => Sys2Proof.Machine.execTileReady core s
  | .xldComplete core => Sys2Proof.Machine.execXldComplete core s
  | .cldComplete core => Sys2Proof.Machine.execCldComplete core s
  | .plnRowWrite core => Sys2Proof.Machine.execPlnRowWrite core s
  | .epi iss w => Sys2Proof.Machine.execEpi iss w s
  | .epiRowWrite core => Sys2Proof.Machine.execEpiRowWrite core s
  | .ldv iss vd aN h => Sys2Proof.Machine.execLdv iss vd aN h s
  | .stv iss vs aN h => Sys2Proof.Machine.execStv iss vs aN h s
  | .vbcs iss vd sA => Sys2Proof.Machine.execVbcs iss vd sA s
  | .vext iss sd va lane => Sys2Proof.Machine.execVext iss sd va lane s
  | .vadd iss r => Sys2Proof.Machine.execVadd iss r s
  | .vsub iss r => Sys2Proof.Machine.execVsub iss r s
  | .vmul iss r => Sys2Proof.Machine.execVmul iss r s
  | .vfma iss r => Sys2Proof.Machine.execVfma iss r s
  | .vmax iss r => Sys2Proof.Machine.execVmax iss r s
  | .vmin iss r => Sys2Proof.Machine.execVmin iss r s
  | .vadds iss r => Sys2Proof.Machine.execVadds iss r s
  | .vsubs iss r => Sys2Proof.Machine.execVsubs iss r s
  | .vand iss r => Sys2Proof.Machine.execVand iss r s
  | .vor iss r => Sys2Proof.Machine.execVor iss r s
  | .vxor iss r => Sys2Proof.Machine.execVxor iss r s
  | .vshl iss r => Sys2Proof.Machine.execVshl iss r s
  | .vshr iss r => Sys2Proof.Machine.execVshr iss r s
  | .vcmp iss r => Sys2Proof.Machine.execVcmp iss r s
  | .vsel iss r => Sys2Proof.Machine.execVsel iss r s
  | .vcvt iss r => Sys2Proof.Machine.execVcvt iss r s
  | .vfn iss r => Sys2Proof.Machine.execVfn iss r s
  | .vred iss r => Sys2Proof.Machine.execVred iss r s
  | .venc iss r => Sys2Proof.Machine.execVenc iss r s
  | .vencWrite core => Sys2Proof.Machine.execVencWrite core s
  | .vdec iss vd sA w cp ol => Sys2Proof.Machine.execVdec iss vd sA w cp ol s
  | .vunq iss r => Sys2Proof.Machine.execVunq iss r s
  | .vutp iss r => Sys2Proof.Machine.execVutp iss r s
  | .vpkt iss r => Sys2Proof.Machine.execVpkt iss r s
  | .add iss sd sa sb => Sys2Proof.Machine.execAdd iss sd sa sb s
  | .sub iss sd sa sb => Sys2Proof.Machine.execSub iss sd sa sb s
  | .and iss sd sa sb => Sys2Proof.Machine.execAnd iss sd sa sb s
  | .or iss sd sa sb => Sys2Proof.Machine.execOr iss sd sa sb s
  | .xor iss sd sa sb => Sys2Proof.Machine.execXor iss sd sa sb s
  | .shl iss sd sa sb => Sys2Proof.Machine.execShl iss sd sa sb s
  | .shr iss sd sa sb => Sys2Proof.Machine.execShr iss sd sa sb s
  | .sra iss sd sa sb => Sys2Proof.Machine.execSra iss sd sa sb s
  | .slt iss sd sa sb => Sys2Proof.Machine.execSlt iss sd sa sb s
  | .sltu iss sd sa sb => Sys2Proof.Machine.execSltu iss sd sa sb s
  | .mul iss sd sa sb => Sys2Proof.Machine.execMul iss sd sa sb s
  | .addi iss sd sa imm => Sys2Proof.Machine.execAddi iss sd sa imm s
  | .ori iss sd sa imm => Sys2Proof.Machine.execOri iss sd sa imm s
  | .lui iss sd imm => Sys2Proof.Machine.execLui iss sd imm s
  | .ldw iss sd sa off => Sys2Proof.Machine.execLdw iss sd sa off s
  | .stw iss ss sa off => Sys2Proof.Machine.execStw iss ss sa off s
  | .aset iss aN sA => Sys2Proof.Machine.execAset iss aN sA s
  | .rds iss sd code => Sys2Proof.Machine.execRds iss sd code s
  | .b iss target => Sys2Proof.Machine.execB iss target s
  | .bc iss cond sa sb target => Sys2Proof.Machine.execBc iss cond sa sb target s
  | .br iss sa => Sys2Proof.Machine.execBr iss sa s
  | .loop iss sA lend => Sys2Proof.Machine.execLoop iss sA lend s
  | .sectNext iss sF id => Sys2Proof.Machine.execSectNext iss sF id s
  | .sectAt iss sF id => Sys2Proof.Machine.execSectAt iss sF id s
  | .sectBar iss sF id => Sys2Proof.Machine.execSectBar iss sF id s
  | .sectionStart core => Sys2Proof.Machine.execSectionStart core s
  | .endTurn iss => Sys2Proof.Machine.execEndTurn iss s
  | .vld iss sA => Sys2Proof.Machine.execVld iss sA s
  | .vst iss sA => Sys2Proof.Machine.execVst iss sA s
  | .vaultLineServed core out => Sys2Proof.Machine.execVaultLineServed core out s
  | .get iss q sA => Sys2Proof.Machine.execGet iss q sA s
  | .put iss q sA => Sys2Proof.Machine.execPut iss q sA s
  | .bdec iss q sA => Sys2Proof.Machine.execBdec iss q sA s
  | .dmaDescriptorComplete core q idx cyc found => Sys2Proof.Machine.execDmaDescriptorComplete core q idx cyc found s
  | .waitAlign iss q sA id => Sys2Proof.Machine.execWaitAlign iss q sA id s
  | .waitLoose iss q sA id => Sys2Proof.Machine.execWaitLoose iss q sA id s
  | .waitResume core cyc => Sys2Proof.Machine.execWaitResume core cyc s
  | .waitTimeout core => Sys2Proof.Machine.execWaitTimeout core s
  | .looseInterlockRelease core cyc => Sys2Proof.Machine.execLooseInterlockRelease core cyc s
  | .msnd iss sA => Sys2Proof.Machine.execMsnd iss sA s
  | .mbc iss sA axis => Sys2Proof.Machine.execMbc iss sA axis s
  | .mred iss sA axis fmt => Sys2Proof.Machine.execMred iss sA axis fmt s
  | .meshBeatArrival core => Sys2Proof.Machine.execMeshBeatArrival core s
  | .ovld iss sA => Sys2Proof.Machine.execOvld iss sA s
  | .ovb iss target => Sys2Proof.Machine.execOvb iss target s
  | .pwk iss q write sA => Sys2Proof.Machine.execPwk iss q write sA s
  | .pwkS iss q write sA => Sys2Proof.Machine.execPwkS iss q write sA s
  | .sramEccError core found => Sys2Proof.Machine.execSramEccError core found s
  | .teamFaultStop team => Sys2Proof.Machine.execTeamFaultStop team s
  | .turnStart team input => Sys2Proof.Machine.execTurnStart team input s
  | .frameBoundary => Sys2Proof.Machine.execFrameBoundary s
  | .clusterWake fn idx d => Sys2Proof.Machine.execClusterWake fn idx d s
  | .clusterStop fn idx d => Sys2Proof.Machine.execClusterStop fn idx d s
  | .clusterEnterRun cluster => Sys2Proof.Machine.execClusterEnterRun cluster s
  | .standIn core passed => Sys2Proof.Machine.execStandIn core passed s
  | .standInComplete core failed srcs => Sys2Proof.Machine.execStandInComplete core failed srcs s
  | .backgroundLineServe core cyc out => Sys2Proof.Machine.execBackgroundLineServe core cyc out s
  | .vaultScrub col row read => Sys2Proof.Machine.execVaultScrub col row read s
  | .vaultRowRepair col row => Sys2Proof.Machine.execVaultRowRepair col row s
  | .hardRepairProgram => Sys2Proof.Machine.execHardRepairProgram s
  | .hardRepairDone => Sys2Proof.Machine.execHardRepairDone s
  | .softRow fn bank index => Sys2Proof.Machine.execSoftRow fn bank index s
  | .softColumn fn bank index => Sys2Proof.Machine.execSoftColumn fn bank index s
  | .programHardRow fn bank index key => Sys2Proof.Machine.execProgramHardRow fn bank index key s
  | .programHardColumn fn bank index key => Sys2Proof.Machine.execProgramHardColumn fn bank index key s
  | .bistStart fn pattern => Sys2Proof.Machine.execBistStart fn pattern s
  | .bistDone col row fails lines => Sys2Proof.Machine.execBistDone col row fails lines s
  | .gddrTraining found => Sys2Proof.Machine.execGddrTraining found s
  | .gddrShortRetrain region temp short full => Sys2Proof.Machine.execGddrShortRetrain region temp short full s
  | .gddrAccess region sector out retries => Sys2Proof.Machine.execGddrAccess region sector out retries s
  | .gddrAccessTimeout place => Sys2Proof.Machine.execGddrAccessTimeout place s
  | .gddrScrub region outs => Sys2Proof.Machine.execGddrScrub region outs s
  | .gdrRetireCmd fn value => Sys2Proof.Machine.execGdrRetireCmd fn value s
  | .burTableSel fn value => Sys2Proof.Machine.execBurTableSel fn value s
  | .burWinCfg fn win value => Sys2Proof.Machine.execBurWinCfg fn win value s
  | .encoderBlock core q idx => Sys2Proof.Machine.execEncoderBlock core q idx s
  | .poolSet pool en tier lines team base count => Sys2Proof.Machine.execPoolSet pool en tier lines team base count s
  | .reserve pool seq n => Sys2Proof.Machine.execReserve pool seq n s
  | .release pool seq n => Sys2Proof.Machine.execRelease pool seq n s
  | .chainNew seq tenant log2n kvw depth jb lhb hpool lhs => Sys2Proof.Machine.execChainNew seq tenant log2n kvw depth jb lhb hpool lhs s
  | .chainFree seq => Sys2Proof.Machine.execChainFree seq s
  | .prepare team spool batch => Sys2Proof.Machine.execPrepare team spool batch s
  | .commit team turn attempt seqs promote => Sys2Proof.Machine.execCommit team turn attempt seqs promote s
  | .discard team turn attempt => Sys2Proof.Machine.execDiscard team turn attempt s
  | .move seq key pool => Sys2Proof.Machine.execMove seq key pool s
  | .markLost seq key => Sys2Proof.Machine.execMarkLost seq key s
  | .lend base len => Sys2Proof.Machine.execLend base len s
  | .bind seq team => Sys2Proof.Machine.execBind seq team s
  | .policy pool low high demoteTo demoteEn => Sys2Proof.Machine.execPolicy pool low high demoteTo demoteEn s
  | .stagingCopyDone seq key => Sys2Proof.Machine.execStagingCopyDone seq key s
  | .writeBackDone seq key => Sys2Proof.Machine.execWriteBackDone seq key s
  | .moveComplete seq key writeFail => Sys2Proof.Machine.execMoveComplete seq key writeFail s
  | .eviction pool rank => Sys2Proof.Machine.execEviction pool rank s
  | .demotion pool => Sys2Proof.Machine.execDemotion pool s
  | .reclaim team => Sys2Proof.Machine.execReclaim team s
  | .modelLoad fn idx d => Sys2Proof.Machine.execModelLoad fn idx d s
  | .modelUnload fn idx d => Sys2Proof.Machine.execModelUnload fn idx d s
  | .deltaLoad fn idx d => Sys2Proof.Machine.execDeltaLoad fn idx d s
  | .teamLoad fn idx d => Sys2Proof.Machine.execTeamLoad fn idx d s
  | .teamUnload fn idx d => Sys2Proof.Machine.execTeamUnload fn idx d s
  | .cancel fn idx d => Sys2Proof.Machine.execCancel fn idx d s
  | .roleSet fn idx d => Sys2Proof.Machine.execRoleSet fn idx d s
  | .fwSwitch fn idx d => Sys2Proof.Machine.execFwSwitch fn idx d s
  | .generate fn idx d => Sys2Proof.Machine.execGenerate fn idx d s
  | .refine fn idx d => Sys2Proof.Machine.execRefine fn idx d s
  | .queuedDeadline slot rrc => Sys2Proof.Machine.execQueuedDeadline slot rrc s
  | .turnEnd team rrc outs sources promote => Sys2Proof.Machine.execTurnEnd team rrc outs sources promote s
  | .sliceResult team rank passed mark => Sys2Proof.Machine.execSliceResult team rank passed mark s
  | .sliceVoteTimeout team => Sys2Proof.Machine.execSliceVoteTimeout team s
  | .sliceDecision team verdict => Sys2Proof.Machine.execSliceDecision team verdict s
  | .sliceReady team rank => Sys2Proof.Machine.execSliceReady team rank s
  | .sliceReadyTimeout team rank => Sys2Proof.Machine.execSliceReadyTimeout team rank s
  | .contextResetWait team => Sys2Proof.Machine.execContextResetWait team s
  | .turnWatchdog team => Sys2Proof.Machine.execTurnWatchdog team s
  | .dealerHeartbeat core => Sys2Proof.Machine.execDealerHeartbeat core s
  | .dealerTakeover core => Sys2Proof.Machine.execDealerTakeover core s
  | .codewordReceive port word => Sys2Proof.Machine.execCodewordReceive port word s
  | .flitReceive port payload kind cls tail => Sys2Proof.Machine.execFlitReceive port payload kind cls tail s
  | .retry port expected => Sys2Proof.Machine.execRetry port expected s
  | .replayTimeout port => Sys2Proof.Machine.execReplayTimeout port s
  | .portRetrain port ended => Sys2Proof.Machine.execPortRetrain port ended s
  | .credit port c0 c1 c2 c3 => Sys2Proof.Machine.execCredit port c0 c1 c2 c3 s
  | .ident port serial id valid peerPort => Sys2Proof.Machine.execIdent port serial id valid peerPort s
  | .lanes port lanes => Sys2Proof.Machine.execLanes port lanes s
  | .echo port stamp rtt => Sys2Proof.Machine.execEcho port stamp rtt s
  | .portTraining port passed usable => Sys2Proof.Machine.execPortTraining port passed usable s
  | .portDownRetry port => Sys2Proof.Machine.execPortDownRetry port s
  | .read port h => Sys2Proof.Machine.execRead port h s
  | .write port h => Sys2Proof.Machine.execWrite port h s
  | .atomicAdd port h => Sys2Proof.Machine.execAtomicAdd port h s
  | .copy port h => Sys2Proof.Machine.execCopy port h s
  | .reduce port h => Sys2Proof.Machine.execReduce port h s
  | .signal port h => Sys2Proof.Machine.execSignal port h s
  | .rdrsp port h => Sys2Proof.Machine.execRdrsp port h s
  | .ack port h => Sys2Proof.Machine.execAck port h s
  | .transactionTimeout rd tag => Sys2Proof.Machine.execTransactionTimeout rd tag s
  | .tagHoldExpiry rd tag => Sys2Proof.Machine.execTagHoldExpiry rd tag s
  | .transitForward port op h => Sys2Proof.Machine.execTransitForward port op h s
  | .ngvDest fn d value => Sys2Proof.Machine.execNgvDest fn d value s
  | .ngvId fn value => Sys2Proof.Machine.execNgvId fn value s
  | .portCtrl fn port value => Sys2Proof.Machine.execPortCtrl fn port value s
  | .portCred fn port value => Sys2Proof.Machine.execPortCred fn port value s
  | .portPrbs fn port value => Sys2Proof.Machine.execPortPrbs fn port value s
  | .activate fn => Sys2Proof.Machine.execActivate fn s
  | .dissolve fn => Sys2Proof.Machine.execDissolve fn s
  | .cut fn rank => Sys2Proof.Machine.execCut fn rank s
  | .restore fn => Sys2Proof.Machine.execRestore fn s
  | .cutMessage rank => Sys2Proof.Machine.execCutMessage rank s
  | .detRingTail fn value => Sys2Proof.Machine.execDetRingTail fn value s
  | .detTlogTail fn value => Sys2Proof.Machine.execDetTlogTail fn value s
  | .turnBoundaryResume team rrc => Sys2Proof.Machine.execTurnBoundaryResume team rrc s
  | .detCfg fn value => Sys2Proof.Machine.execDetCfg fn value s
  | .start fn value => Sys2Proof.Machine.execStart fn value s
  | .abort fn => Sys2Proof.Machine.execAbort fn s
  | .capture core => Sys2Proof.Machine.execCapture core s
  | .reqTail fn size value => Sys2Proof.Machine.execReqTail fn size value s
  | .cmdTail fn size value => Sys2Proof.Machine.execCmdTail fn size value s
  | .tokHead fn size value => Sys2Proof.Machine.execTokHead fn size value s
  | .cplHead fn size value => Sys2Proof.Machine.execCplHead fn size value s
  | .ringEnable fn page ring value => Sys2Proof.Machine.execRingEnable fn page ring value s
  | .restart fn page ring value => Sys2Proof.Machine.execRestart fn page ring value s
  | .descriptorFetch fn cmd fin d => Sys2Proof.Machine.execDescriptorFetch fn cmd fin d s
  | .descriptorReadTimeout fn cmd => Sys2Proof.Machine.execDescriptorReadTimeout fn cmd s
  | .promptRead slot tokens fin => Sys2Proof.Machine.execPromptRead slot tokens fin s
  | .recordPost fn => Sys2Proof.Machine.execRecordPost fn s
  | .irqDelayExpiry fn vector => Sys2Proof.Machine.execIrqDelayExpiry fn vector s
  | .vfFlr fn => Sys2Proof.Machine.execVfFlr fn s
  | .pfFlr => Sys2Proof.Machine.execPfFlr s
  | .perst => Sys2Proof.Machine.execPerst s
  | .bar4Read fn off len => Sys2Proof.Machine.execBar4Read fn off len s
  | .bar4Write fn off data poisoned => Sys2Proof.Machine.execBar4Write fn off data poisoned s
  | .configRequest fn req => Sys2Proof.Machine.execConfigRequest fn req s
  | .ideIntegrityFail => Sys2Proof.Machine.execIdeIntegrityFail s
  | .registerWrite fn bar off size acc => Sys2Proof.Machine.execRegisterWrite fn bar off size acc s
  | .tick x => Sys2Proof.Machine.execTick x s
  | .time h n serial => Sys2Proof.Machine.execTime h n serial s
  | .snap h num t => Sys2Proof.Machine.execSnap h num t s
  | .snapLatch => Sys2Proof.Machine.execSnapLatch s
  | .enum h => Sys2Proof.Machine.execEnum h s
  | .roster h pos dev valid serial => Sys2Proof.Machine.execRoster h pos dev valid serial s
  | .fault h dev valid pos kind => Sys2Proof.Machine.execFault h dev valid pos kind s
  | .stageOpen h header => Sys2Proof.Machine.execStageOpen h header s
  | .stageData h off data => Sys2Proof.Machine.execStageData h off data s
  | .stageClose h len ck => Sys2Proof.Machine.execStageClose h len ck s
  | .result h status pass => Sys2Proof.Machine.execResult h status pass s
  | .frameResendTimeout seq => Sys2Proof.Machine.execFrameResendTimeout seq s
  | .chainInputLost chain => Sys2Proof.Machine.execChainInputLost chain s
  | .chainInputRestored chain => Sys2Proof.Machine.execChainInputRestored chain s
  | .leadTakeover => Sys2Proof.Machine.execLeadTakeover s
  | .racksyncEdge off => Sys2Proof.Machine.execRacksyncEdge off s
  | .uhlRtSet fn value => Sys2Proof.Machine.execUhlRtSet fn value s
  | .uhlSnapT fn value => Sys2Proof.Machine.execUhlSnapT fn value s
  | .stageLocal fn value ck => Sys2Proof.Machine.execStageLocal fn value ck s
  | .stageRack fn value ck => Sys2Proof.Machine.execStageRack fn value ck s
  | .umpSwitch fn value => Sys2Proof.Machine.execUmpSwitch fn value s
  | .umpireSwitchTimeout => Sys2Proof.Machine.execUmpireSwitchTimeout s
  | .umpireWatchdog => Sys2Proof.Machine.execUmpireWatchdog s
  | .umpSvcOut fn value => Sys2Proof.Machine.execUmpSvcOut fn value s
  | .commitSvn fn value => Sys2Proof.Machine.execCommitSvn fn value s
  | .revoke fn value => Sys2Proof.Machine.execRevoke fn value s
  | .claim owner fn res feature => Sys2Proof.Machine.execClaim owner fn res feature s
  | .releaseClaim owner fn res => Sys2Proof.Machine.execReleaseClaim owner fn res s
  | .timerExpiry timer => Sys2Proof.Machine.execTimerExpiry timer s
  | .mctpControl eid => Sys2Proof.Machine.execMctpControl eid s
  | .pldmRequest req => Sys2Proof.Machine.execPldmRequest req s
  | .spdmMessage msg => Sys2Proof.Machine.execSpdmMessage msg s
  | .crystalStart xb count => Sys2Proof.Machine.execCrystalStart xb count s
  | .clockInputStop xb => Sys2Proof.Machine.execClockInputStop xb s
  | .pllLock pll ok bad => Sys2Proof.Machine.execPllLock pll ok bad s
  | .lossOfLock pll => Sys2Proof.Machine.execLossOfLock pll s
  | .clkDomSel fn dom value => Sys2Proof.Machine.execClkDomSel fn dom value s
  | .domainRestart dom => Sys2Proof.Machine.execDomainRestart dom s
  | .clkXctrl fn value => Sys2Proof.Machine.execClkXctrl fn value s
  | .clkClkout fn value => Sys2Proof.Machine.execClkClkout fn value s
  | .clkPllnCfg fn pll value => Sys2Proof.Machine.execClkPllnCfg fn pll value s
  | .rest fn value => Sys2Proof.Machine.execRest fn value s
  | .restEntered => Sys2Proof.Machine.execRestEntered s
  | .wake fn value => Sys2Proof.Machine.execWake fn value s
  | .wakeComplete bad => Sys2Proof.Machine.execWakeComplete bad s
  | .thermalTrip dram reading => Sys2Proof.Machine.execThermalTrip dram reading s
  | .porAssert => Sys2Proof.Machine.execPorAssert s
  | .porRelease factory cks unread rack => Sys2Proof.Machine.execPorRelease factory cks unread rack s
  | .teamReset fn team value => Sys2Proof.Machine.execTeamReset fn team value s
  | .teamResetDrainDone team => Sys2Proof.Machine.execTeamResetDrainDone team s
  | .trst => Sys2Proof.Machine.execTrst s
  | .extest cells => Sys2Proof.Machine.execExtest cells s
  | .sample pins cells => Sys2Proof.Machine.execSample pins cells s
  | .idcode => Sys2Proof.Machine.execIdcode s
  | .clamp => Sys2Proof.Machine.execClamp s
  | .highz => Sys2Proof.Machine.execHighz s
  | .extestPulse cells => Sys2Proof.Machine.execExtestPulse cells s
  | .extestTrain cells => Sys2Proof.Machine.execExtestTrain cells s
  | .dbg write off value => Sys2Proof.Machine.execDbg write off value s
  | .mbist col row pattern => Sys2Proof.Machine.execMbist col row pattern s
  | .linktest pattern => Sys2Proof.Machine.execLinktest pattern s
  | .bypass => Sys2Proof.Machine.execBypass s
  | .perstRelease rate width flit => Sys2Proof.Machine.execPerstRelease rate width flit s
  | .vddAonInTolerance => Sys2Proof.Machine.execVddAonInTolerance s
  | .pll3RelockTimeout => Sys2Proof.Machine.execPll3RelockTimeout s
  | .retryRepeat port => Sys2Proof.Machine.execRetryRepeat port s
  | .uhlocFrameCrcFail => Sys2Proof.Machine.execUhlocFrameCrcFail s
  | .packetCrcFail cluster again owner => Sys2Proof.Machine.execPacketCrcFail cluster again owner s
  | .teamLoadComplete team b srcs => Sys2Proof.Machine.execTeamLoadComplete team b srcs s
  | .modelLoadComplete => Sys2Proof.Machine.execModelLoadComplete s
  | .umpireReportsRunning => Sys2Proof.Machine.execUmpireReportsRunning s
  | .rackclkStop => Sys2Proof.Machine.execRackclkStop s
  | .vaultSelfRefresh col row => Sys2Proof.Machine.execVaultSelfRefresh col row s

end Sys2Proof.Machine
end

