-- ==== Sys2Proof/WellFormed.lean ====
section
/-! DEFINITION. Which commands are well formed: operands inside the ranges that the spec gives what they name. A meaning is total; a
statement names this check where it speaks of operands that the hardware can present. -/

namespace Sys2Proof

/-- The fields of a transaction's header fit Table NGV-5. -/
def Hdr.wf (h : Hdr) : Bool :=
  decide (h.cls < 4) && decide (h.tag < 4096) && decide (h.src < 4096) && decide (h.dst < 4096) && decide (h.lines < 256) &&
    decide (h.att < 4) && decide (h.asub < 4) && decide (h.status < 256) && decide (h.addr < 2 ^ 48) && decide (h.turn < 4096) &&
    decide (h.hops < 16) && decide (h.data.length ≤ 8192)

/-- A port of the 22 ("Nganov fabric"). -/
def portWf (port : BitVec 5) : Bool := decide (port.toNat < 22)

/-- A row of the 72 rows of physical sites (R240, R241). -/
def rowWf (row : BitVec 7) : Bool := decide (row.toNat < 72)

/-- Bytes of one host access, at most a PCIe payload of 4,096 bytes (R534). -/
def accessWf (n : Nat) : Bool := decide (0 < n) && decide (n ≤ 4096)

/-- The 32 GDDR regions ("GDDR7 regions"). -/
def regionsWf (rs : List (Nat × Bool)) : Bool := rs.all (fun r => decide (r.1 < 32))

/-- A bundle of an SRAM error is one of instruction memory (R151). -/
def EccSite.wf : EccSite → Bool
  | .instr pc _ => decide (pc < 1024)
  | .fetch pc => decide (pc < 1024)
  | .outside => true

/-- Is a command well formed? -/
def Instr.wf : Instr → Bool
  | .sramEccError _ found => found.wf
  | .turnStart _ input => input.placed.all (fun x => decide (x.1 < 4096))
  | .vaultScrub _ row _ => rowWf row
  | .vaultRowRepair _ row => rowWf row
  | .bistDone _ row _ _ => rowWf row
  | .gddrTraining found => decide (found.length = 32) && found.all (fun x => x.1.all (fun d => decide (d ≤ 2)))
  | .gddrScrub _ outs => decide (outs.length = 15)
  | .codewordReceive port word => portWf port && (word.flits.isEmpty || word.flits.length == 10)
  | .flitReceive port _ _ _ _ => portWf port
  | .retry port _ => portWf port
  | .replayTimeout port => portWf port
  | .portRetrain port _ => portWf port
  | .credit port _ _ _ _ => portWf port
  | .ident port _ _ _ _ => portWf port
  | .lanes port _ => portWf port
  | .echo port _ _ => portWf port
  | .portTraining port _ _ => portWf port
  | .portDownRetry port => portWf port
  | .read port h => portWf port && h.wf
  | .write port h => portWf port && h.wf
  | .atomicAdd port h => portWf port && h.wf
  | .copy port h => portWf port && h.wf
  | .reduce port h => portWf port && h.wf
  | .signal port h => portWf port && h.wf
  | .rdrsp port h => portWf port && h.wf
  | .ack port h => portWf port && h.wf
  | .transitForward port _ h => portWf port && h.wf
  | .portCtrl _ port _ => portWf port
  | .portCred _ port _ => portWf port
  | .portPrbs _ port _ => portWf port
  | .reqTail _ size _ => accessWf size
  | .cmdTail _ size _ => accessWf size
  | .tokHead _ size _ => accessWf size
  | .cplHead _ size _ => accessWf size
  | .bar4Read _ _ len => accessWf len
  | .bar4Write _ _ data _ => accessWf data.length
  | .registerWrite _ bar _ size _ => decide (bar.toNat < 2) && accessWf size
  | .pllLock pll _ bad => decide (pll.toNat < 6) && regionsWf bad
  | .lossOfLock pll => decide (pll.toNat < 6)
  | .clkPllnCfg _ pll _ => decide (pll.toNat < 6)
  | .wakeComplete bad => regionsWf bad
  | .porRelease _ cks _ _ => decide (cks.length = 4)
  | .mbist _ row _ => rowWf row
  | .retryRepeat port => portWf port
  | .vaultSelfRefresh _ row => rowWf row
  | .nop _ | .mode _ _ _ _ | .tld _ _ _ _ | .tldm _ _ _ | .tsw _ | .pln _ _ _ _ _ _ _ _ _ | .xld _ _ | .cld _ _ | .gopn _ _ _
  | .gspl _ _ _ | .gresReset _ _ | .gresReload _ _ | .gcls _ _ | .sld _ _ _ | .draw _ _ _ _ _ _ _ | .tileReady _ | .xldComplete _
  | .cldComplete _ | .plnRowWrite _ | .epi _ _ | .epiRowWrite _ | .ldv _ _ _ _ | .stv _ _ _ _ | .vbcs _ _ _ | .vext _ _ _ _
  | .vadd _ _ | .vsub _ _ | .vmul _ _ | .vfma _ _ | .vmax _ _ | .vmin _ _ | .vadds _ _ | .vsubs _ _ | .vand _ _ | .vor _ _
  | .vxor _ _ | .vshl _ _ | .vshr _ _ | .vcmp _ _ | .vsel _ _ | .vcvt _ _ | .vfn _ _ | .vred _ _ | .venc _ _ | .vencWrite _
  | .vdec _ _ _ _ _ _ | .vunq _ _ | .vutp _ _ | .vpkt _ _ | .add _ _ _ _ | .sub _ _ _ _ | .and _ _ _ _ | .or _ _ _ _
  | .xor _ _ _ _ | .shl _ _ _ _ | .shr _ _ _ _ | .sra _ _ _ _ | .slt _ _ _ _ | .sltu _ _ _ _ | .mul _ _ _ _ | .addi _ _ _ _
  | .ori _ _ _ _ | .lui _ _ _ | .ldw _ _ _ _ | .stw _ _ _ _ | .aset _ _ _ | .rds _ _ _ | .b _ _ | .bc _ _ _ _ _ | .br _ _
  | .loop _ _ _ | .sectNext _ _ _ | .sectAt _ _ _ | .sectBar _ _ _ | .sectionStart _ | .endTurn _ | .vld _ _ | .vst _ _
  | .vaultLineServed _ _ | .get _ _ _ | .put _ _ _ | .bdec _ _ _ | .dmaDescriptorComplete _ _ _ _ _ | .waitAlign _ _ _ _
  | .waitLoose _ _ _ _ | .waitResume _ _ | .waitTimeout _ | .looseInterlockRelease _ _ | .msnd _ _ | .mbc _ _ _ | .mred _ _ _ _
  | .meshBeatArrival _ | .ovld _ _ | .ovb _ _ | .pwk _ _ _ _ | .pwkS _ _ _ _ | .teamFaultStop _ | .frameBoundary
  | .clusterWake _ _ _ | .clusterStop _ _ _ | .clusterEnterRun _ | .standIn _ _ | .standInComplete _ _ _
  | .backgroundLineServe _ _ _ | .hardRepairProgram | .hardRepairDone | .softRow _ _ _ | .softColumn _ _ _
  | .programHardRow _ _ _ _ | .programHardColumn _ _ _ _ | .bistStart _ _ | .gddrShortRetrain _ _ _ _ | .gddrAccess _ _ _ _
  | .gddrAccessTimeout _ | .gdrRetireCmd _ _ | .burTableSel _ _ | .burWinCfg _ _ _ | .encoderBlock _ _ _ | .poolSet _ _ _ _ _ _ _
  | .reserve _ _ _ | .release _ _ _ | .chainNew _ _ _ _ _ _ _ _ _ | .chainFree _ | .prepare _ _ _ | .commit _ _ _ _ _
  | .discard _ _ _ | .move _ _ _ | .markLost _ _ | .lend _ _ | .bind _ _ | .policy _ _ _ _ _ | .stagingCopyDone _ _
  | .writeBackDone _ _ | .moveComplete _ _ _ | .eviction _ _ | .demotion _ | .reclaim _ | .modelLoad _ _ _ | .modelUnload _ _ _
  | .deltaLoad _ _ _ | .teamLoad _ _ _ | .teamUnload _ _ _ | .cancel _ _ _ | .roleSet _ _ _ | .fwSwitch _ _ _ | .generate _ _ _
  | .refine _ _ _ | .queuedDeadline _ _ | .turnEnd _ _ _ _ _ | .sliceResult _ _ _ _ | .sliceVoteTimeout _ | .sliceDecision _ _
  | .sliceReady _ _ | .sliceReadyTimeout _ _ | .contextResetWait _ | .turnWatchdog _ | .dealerHeartbeat _ | .dealerTakeover _
  | .transactionTimeout _ _ | .tagHoldExpiry _ _ | .ngvDest _ _ _ | .ngvId _ _ | .activate _ | .dissolve _ | .cut _ _
  | .restore _ | .cutMessage _ | .detRingTail _ _ | .detTlogTail _ _ | .turnBoundaryResume _ _ | .detCfg _ _ | .start _ _
  | .abort _ | .capture _ | .ringEnable _ _ _ _ | .restart _ _ _ _ | .descriptorFetch _ _ _ _ | .descriptorReadTimeout _ _
  | .promptRead _ _ _ | .recordPost _ | .irqDelayExpiry _ _ | .vfFlr _ | .pfFlr | .perst | .configRequest _ _ | .ideIntegrityFail
  | .tick _ | .time _ _ _ | .snap _ _ _ | .snapLatch | .enum _ | .roster _ _ _ _ _ | .fault _ _ _ _ _ | .stageOpen _ _
  | .stageData _ _ _ | .stageClose _ _ _ | .result _ _ _ | .frameResendTimeout _ | .chainInputLost _ | .chainInputRestored _
  | .leadTakeover | .racksyncEdge _ | .uhlRtSet _ _ | .uhlSnapT _ _ | .stageLocal _ _ _ | .stageRack _ _ _ | .umpSwitch _ _
  | .umpireSwitchTimeout | .umpireWatchdog | .umpSvcOut _ _ | .commitSvn _ _ | .revoke _ _ | .claim _ _ _ _ | .releaseClaim _ _ _
  | .timerExpiry _ | .mctpControl _ | .pldmRequest _ | .spdmMessage _ | .crystalStart _ _ | .clockInputStop _ | .clkDomSel _ _ _
  | .domainRestart _ | .clkXctrl _ _ | .clkClkout _ _ | .rest _ _ | .restEntered | .wake _ _ | .thermalTrip _ _ | .porAssert
  | .teamReset _ _ _ | .teamResetDrainDone _ | .trst | .extest _ | .sample _ _ | .idcode | .clamp | .highz | .extestPulse _
  | .extestTrain _ | .dbg _ _ _ | .linktest _ | .bypass | .perstRelease _ _ _ | .vddAonInTolerance | .pll3RelockTimeout
  | .uhlocFrameCrcFail | .packetCrcFail _ _ _ | .teamLoadComplete _ _ _ | .modelLoadComplete | .umpireReportsRunning
  | .rackclkStop => true

end Sys2Proof
end

