-- ==== Sys2Proof/Certificates/Slice0/Obligations.lean ====
section
/-! DEFINITION. The statements for the provers. The helpers below name what a hypothesis or a conclusion says of a core that issues an
instruction. -/

namespace Sys2Proof.Claims

open Sys2Proof.Machine

/-- The state in which an instruction acts: its bundle opened where it is the bundle's first (R133, R137). -/
def opened (i : Issue) (s : State) : State := if i.first then openBundle i.core.toNat s else s

/-- The core that issues, after its bundle opened. -/
def issuer (i : Issue) (s : State) : Core := (opened i s).core i.core.toNat

/-- The instruction takes its slot in a bundle that has met neither an interlock nor a fault: with the first instruction the bundle opens
and issues, a later one comes in the order of the slots (R133, R154). -/
def Opens (i : Issue) (s : State) : Prop :=
  (if i.first then
      (s.core i.core.toNat).exec = .issuing ∧ (s.core i.core.toNat).bundleOpen = false ∧ (issuer i s).exec = .issuing
    else (s.core i.core.toNat).bundleOpen = true ∧ (s.core i.core.toNat).bundleSlot ≤ i.slot.toNat) ∧
  (issuer i s).bundleStall = [] ∧ (issuer i s).bundleFaults = []

/-- The instruction takes a slot of its class (Table ISA-1); where it completes its bundle, instruction memory holds words that spell
instructions (R162, R202). -/
def Sits (i : Issue) (cls : Nat) (s : State) : Prop :=
  Opens i s ∧ i.slot.toNat = cls ∧
    (closesBundle i = true → (opened i s).wordFaults i.core.toNat (issuer i s).pc = [])

/-- The instruction takes its slot, and issue stays in its bank after it where it completes its bundle (R151). -/
def Issues (i : Issue) (cls : Nat) (s : State) : Prop :=
  Sits i cls s ∧ (closesBundle i = true → (issuer i s).runsOut = false)

/-- None of the data-memory spans read still awaits a vault line, where the section is loose (R149). -/
def Free (c : Core) (rs : List (Nat × Nat)) : Prop := c.sect.loose = true → c.awaits rs = []

/-- A span of data memory: inside it and aligned (R163). -/
def Span (a len al : Nat) : Prop := a + len ≤ 65536 ∧ a % al = 0

/-- A span that a store may write: inside data memory, aligned, outside the resident area (R158, R163). -/
def StoreSpan (c : Core) (a len al : Nat) : Prop := Span a len al ∧ (len = 0 ∨ c.resTop ≤ a)

/-- No ready tile waits for the back buffer (R69). -/
def NoneDue (c : Core) : Prop := ∀ u ∈ c.tiles, u.due = false

/-- The instruction's outcome replaces the issuing core and changes nothing else of the opened state; then its slot ends. -/
def CoreBecomes (i : Issue) (s : State) (c : Core) : Host.Outcome State Fault Refusal :=
  .next (slotEnds i ((opened i s).setCore i.core.toNat c))

end Sys2Proof.Claims

open Sys2Proof Sys2Proof.Machine Sys2Proof.Claims

/-! ## The queue and the memory -/

/-- A step runs the command at the front of the queue on the state with the queue's rest. -/
def Sys2Proof.Claims.StepRunsFrontCommand : Prop :=
  ∀ (c : Instr) (rest : List Instr) (s : State), s.pending = c :: rest → step s = exec c { s with pending := rest }

/-- On an empty queue the block idles (the model's choice, log entry 7). -/
def Sys2Proof.Claims.EmptyQueueIdles : Prop := ∀ s : State, s.pending = [] → step s = .next s

/-- No command ends the machine: every error the spec names is recorded in the state (the model's choice of form, log entry 5). -/
def Sys2Proof.Claims.EveryCommandAnswersNext : Prop := ∀ (c : Instr) (s : State), ∃ t, exec c s = .next t

/-- A step runs the front command, on an empty queue the block idles, and every command answers a next state. -/
def Obligations.CommandsRunInOrder : Prop := Claims.StepRunsFrontCommand ∧ Claims.EmptyQueueIdles ∧ Claims.EveryCommandAnswersNext

/-- Every step keeps the canonical form of memory: addresses strictly rising, no entry equal to the unwritten byte. -/
def Obligations.MemoryCanonicalKept : Prop :=
  ∀ s t : State, s.mem.wf = true → step s = .next t → t.mem.wf = true

/-! ## Instruction words (R131, R162, R167, R183, R192, R202, R203) -/

namespace Sys2Proof.Claims

/-- What a word spells whose reserved bits are `r`. -/
def unless0 {n : Nat} (r : BitVec n) (c : Instr) : Decoded := if r = 0 then .instr c else .illegal

/-- One bit. -/
abbrev b1 (b : Bool) : BitVec 1 := BitVec.ofBool b

/-- The opcode of a word. -/
def opOf (w : Word) : Nat := w.toNat / 2 ^ 26

/-- Codes and instructions of the vector unit in R-form (Table ISA-19). -/
def rformCodes : List (BitVec 6 × (Issue → RForm → Instr)) :=
  [(0x08#6, .vadd), (0x09#6, .vsub), (0x0A#6, .vmul), (0x0B#6, .vfma), (0x0C#6, .vmax), (0x0D#6, .vmin), (0x0E#6, .vadds), (0x0F#6, .vsubs),
    (0x10#6, .vand), (0x11#6, .vor), (0x12#6, .vxor), (0x13#6, .vshl), (0x14#6, .vshr), (0x15#6, .vcmp), (0x16#6, .vsel), (0x18#6, .vcvt),
    (0x19#6, .vfn), (0x1A#6, .vred), (0x1C#6, .venc), (0x1E#6, .vunq), (0x1F#6, .vutp), (0x20#6, .vpkt)]

/-- Codes and instructions of the scalar unit in R-form (Table ISA-21). -/
def scalarCodes : List (BitVec 6 × (Issue → BitVec 5 → BitVec 5 → BitVec 5 → Instr)) :=
  [(0x01#6, .add), (0x02#6, .sub), (0x03#6, .and), (0x04#6, .or), (0x05#6, .xor), (0x06#6, .shl), (0x07#6, .shr), (0x08#6, .sra),
    (0x09#6, .slt), (0x0A#6, .sltu), (0x0B#6, .mul)]

end Sys2Proof.Claims

/-- R162, R167, Table ISA-15: every P-class word, field by field. -/
def Sys2Proof.Claims.PlaneWords : Prop :=
  ∀ i : Issue,
    (∀ (r : BitVec 18) (xb : BitVec 2) (k w : BitVec 3), decodeP i (0x01#6 ++ r ++ xb ++ k ++ w) = unless0 r (.mode i w k xb)) ∧
    (∀ (r : BitVec 16) (tpos : BitVec 3) (src : BitVec 2) (a : BitVec 5),
      decodeP i (0x02#6 ++ r ++ tpos ++ src ++ a) = unless0 r (.tld i a src tpos)) ∧
    (∀ (r : BitVec 20) (layout : Bool) (a : BitVec 5), decodeP i (0x03#6 ++ r ++ b1 layout ++ a) = unless0 r (.tldm i a layout)) ∧
    (∀ r : BitVec 26, decodeP i (0x04#6 ++ r) = unless0 r (.tsw i)) ∧
    (∀ (cb sw triple : Bool) (rowOff m : BitVec 6) (sX : BitVec 5) (aN g : BitVec 3),
      decodeP i (0x05#6 ++ b1 cb ++ b1 sw ++ b1 triple ++ rowOff ++ m ++ sX ++ aN ++ g) = .instr (.pln i g aN sX m rowOff triple sw cb)) ∧
    (∀ (r : BitVec 21) (a : BitVec 5), decodeP i (0x06#6 ++ r ++ a) = unless0 r (.xld i a) ∧
      decodeP i (0x07#6 ++ r ++ a) = unless0 r (.cld i a)) ∧
    (∀ (r : BitVec 18) (a : BitVec 5) (g : BitVec 3), decodeP i (0x08#6 ++ r ++ a ++ g) = unless0 r (.gopn i g a)) ∧
    (∀ (r : BitVec 22) (f : Bool) (g : BitVec 3), decodeP i (0x09#6 ++ r ++ b1 f ++ g) = unless0 r (.gspl i g f) ∧
      decodeP i (0x0A#6 ++ r ++ b1 f ++ g) = unless0 r (if f then .gresReload i g else .gresReset i g)) ∧
    (∀ (r : BitVec 23) (g : BitVec 3), decodeP i (0x0B#6 ++ r ++ g) = unless0 r (.gcls i g)) ∧
    (∀ (r : BitVec 15) (a : BitVec 5) (e : BitVec 6), decodeP i (0x0C#6 ++ r ++ a ++ e) = unless0 r (.sld i e a)) ∧
    (∀ (vd vb : BitVec 4) (a : BitVec 5) (idx seq : Bool) (e : BitVec 6) (r : BitVec 5),
      decodeP i (0x0D#6 ++ vd ++ a ++ vb ++ b1 idx ++ b1 seq ++ e ++ r) = unless0 r (.draw i e seq idx vb a vd)) ∧
    (∀ w : Word, opOf w = 0 ∨ 0x0E ≤ opOf w → decodeP i w = .illegal)

/-- R183, R191, R192, R198, Tables ISA-17, ISA-19: every V-class word, field by field. -/
def Sys2Proof.Claims.VectorWords : Prop :=
  ∀ i : Issue,
    (∀ (v : BitVec 4) (a : BitVec 3) (p : Bool) (r : BitVec 18), decodeV i (0x01#6 ++ v ++ a ++ b1 p ++ r) = unless0 r (.ldv i v a p) ∧
      decodeV i (0x02#6 ++ v ++ a ++ b1 p ++ r) = unless0 r (.stv i v a p)) ∧
    (∀ (v : BitVec 4) (a : BitVec 5) (r : BitVec 17), decodeV i (0x03#6 ++ v ++ a ++ r) = unless0 r (.vbcs i v a)) ∧
    (∀ (d lane : BitVec 5) (v : BitVec 4) (r : BitVec 12), decodeV i (0x04#6 ++ d ++ v ++ lane ++ r) = unless0 r (.vext i d v lane)) ∧
    (∀ (r : RForm), ∀ x ∈ rformCodes, decodeV i (x.1 ++ r.vd ++ r.va ++ r.vb ++ r.vc ++ r.t ++ r.f) = .instr (x.2 i r)) ∧
    (∀ (v : BitVec 4) (a : BitVec 5) (w : BitVec 3) (ol cp : Bool) (r : BitVec 12),
      decodeV i (0x1D#6 ++ v ++ a ++ w ++ b1 ol ++ b1 cp ++ r) = unless0 r (.vdec i v a w ol cp)) ∧
    (∀ e : EpiWord, decodeV i (0x30#6 ++ e.reserved ++ b1 e.qstip ++ e.store ++ b1 e.side ++ b1 e.bias ++ e.act ++ e.zfmt ++ e.op ++
      b1 e.order ++ b1 e.close ++ e.sd ++ e.g) = .instr (.epi i e)) ∧
    (∀ w : Word, opOf w ∈ [0, 5, 6, 7, 0x17, 0x1B] ∨ (0x20 < opOf w ∧ opOf w ≠ 0x30) → decodeV i w = .illegal)

/-- R202, R203, R215, Table ISA-21: every S-class word, field by field. -/
def Sys2Proof.Claims.ScalarWords : Prop :=
  ∀ i : Issue,
    (∀ (d a b : BitVec 5) (r : BitVec 11), ∀ x ∈ scalarCodes, decodeS i (x.1 ++ d ++ a ++ b ++ r) = unless0 r (x.2 i d a b)) ∧
    (∀ (d a : BitVec 5) (v : BitVec 16), decodeS i (0x10#6 ++ d ++ a ++ v) = .instr (.addi i d a v) ∧
      decodeS i (0x11#6 ++ d ++ a ++ v) = .instr (.ori i d a v) ∧ decodeS i (0x12#6 ++ d ++ a ++ v) = unless0 a (.lui i d v) ∧
      decodeS i (0x13#6 ++ d ++ a ++ v) = .instr (.ldw i d a v) ∧ decodeS i (0x14#6 ++ d ++ a ++ v) = .instr (.stw i d a v)) ∧
    (∀ (h : BitVec 2) (n : BitVec 3) (a : BitVec 5) (r : BitVec 16), decodeS i (0x15#6 ++ h ++ n ++ a ++ r) = unless0 (h ++ r) (.aset i n a)) ∧
    (∀ (d : BitVec 5) (r : BitVec 13) (code : BitVec 8), decodeS i (0x16#6 ++ d ++ r ++ code) = unless0 r (.rds i d code)) ∧
    (∀ (r : BitVec 16) (t : BitVec 10), decodeS i (0x18#6 ++ r ++ t) = unless0 r (.b i t)) ∧
    (∀ (cond : BitVec 3) (a b : BitVec 5) (r : BitVec 3) (t : BitVec 10),
      decodeS i (0x19#6 ++ cond ++ a ++ b ++ r ++ t) = unless0 r (.bc i cond a b t)) ∧
    (∀ (h a : BitVec 5) (r : BitVec 16), decodeS i (0x1A#6 ++ h ++ a ++ r) = unless0 (h ++ r) (.br i a)) ∧
    (∀ (a : BitVec 5) (r : BitVec 11) (lend : BitVec 10), decodeS i (0x1B#6 ++ a ++ r ++ lend) = unless0 r (.loop i a lend)) ∧
    (∀ (r : BitVec 3) (id : BitVec 16) (f : BitVec 5), decodeS i (0x1C#6 ++ r ++ id ++ f ++ 0#2) = unless0 r (.sectNext i f id) ∧
      decodeS i (0x1C#6 ++ r ++ id ++ f ++ 1#2) = unless0 r (.sectAt i f id) ∧
      decodeS i (0x1C#6 ++ r ++ id ++ f ++ 2#2) = unless0 r (.sectBar i f id) ∧
      decodeS i (0x1C#6 ++ r ++ id ++ f ++ 3#2) = (if r = 0 ∧ f = 0 then .badForm else .illegal)) ∧
    (∀ r : BitVec 26, decodeS i (0x1D#6 ++ r) = unless0 r (.endTurn i)) ∧
    (∀ w : Word, opOf w = 0 ∨ (0x0B < opOf w ∧ opOf w < 0x10) ∨ opOf w = 0x17 ∨ 0x1D < opOf w → decodeS i w = .illegal)

/-- R202, R203, R222, Table ISA-22: every M-class word, field by field; a DQP spells a GET, a PUT or a BDEC by its descriptor's KIND. -/
def Sys2Proof.Claims.MovementWords : Prop :=
  ∀ (i : Issue) (kind : Nat),
    (∀ (r : BitVec 21) (a : BitVec 5), decodeM i kind (0x01#6 ++ r ++ a) = unless0 r (.vld i a) ∧
      decodeM i kind (0x02#6 ++ r ++ a) = unless0 r (.vst i a) ∧ decodeM i kind (0x05#6 ++ r ++ a) = unless0 r (.msnd i a) ∧
      decodeM i kind (0x08#6 ++ r ++ a) = unless0 r (.ovld i a)) ∧
    (∀ (r : BitVec 18) (a : BitVec 5) (q : BitVec 3), decodeM i 0 (0x03#6 ++ r ++ a ++ q) = unless0 r (.get i q a) ∧
      decodeM i 1 (0x03#6 ++ r ++ a ++ q) = unless0 r (.put i q a) ∧ decodeM i 2 (0x03#6 ++ r ++ a ++ q) = unless0 r (.bdec i q a)) ∧
    (∀ (r : BitVec 1) (id : BitVec 16) (a : BitVec 5) (loose : Bool) (q : BitVec 3),
      decodeM i kind (0x04#6 ++ r ++ id ++ a ++ b1 loose ++ q) = unless0 r (if loose then .waitLoose i q a id else .waitAlign i q a id)) ∧
    (∀ (r : BitVec 20) (axis : Bool) (a : BitVec 5), decodeM i kind (0x06#6 ++ r ++ b1 axis ++ a) = unless0 r (.mbc i a axis)) ∧
    (∀ (r : BitVec 19) (fmt axis : Bool) (a : BitVec 5), decodeM i kind (0x07#6 ++ r ++ b1 fmt ++ b1 axis ++ a) =
      unless0 r (.mred i a axis fmt)) ∧
    (∀ (r : BitVec 16) (t : BitVec 10), decodeM i kind (0x09#6 ++ r ++ t) = unless0 r (.ovb i t)) ∧
    (∀ (r : BitVec 16) (a : BitVec 5) (write stream : Bool) (q : BitVec 3), decodeM i kind (0x0A#6 ++ r ++ a ++ b1 write ++ b1 stream ++ q) =
      unless0 r (if stream then .pwkS i q write a else .pwk i q write a)) ∧
    (∀ w : Word, opOf w = 0 ∨ 0x0A < opOf w → decodeM i kind w = .illegal)

/-- R131, R162, R202: a word of all zeros is a NOP, and any other belongs to the class of its slot; a bundle that holds a word that spells no
instruction stops the core with the fault of its lowest slot. -/
def Sys2Proof.Claims.SlotWords : Prop :=
  (∀ (i : Issue) (kind : Nat) (w : Word), decodeSlot i kind 0#32 = .instr (.nop i) ∧
    (w ≠ 0#32 → decodeSlot i kind w =
      (if i.slot = 0#2 then decodeP i w else if i.slot = 1#2 then decodeV i w else if i.slot = 2#2 then decodeS i w else decodeM i kind w))) ∧
  (∀ (n pc : Nat) (k : Fin 4) (s : State),
    ((k.val, CoreFault.illegalOp, 0) ∈ s.wordFaults n pc ↔
      decodeSlot ⟨BitVec.ofNat 12 n, BitVec.ofNat 2 k.val, false, false⟩ 0 (s.slotWord n pc k.val) = .illegal)) ∧
  (∀ (i : Issue) (s : State), Opens i s → closesBundle i = true →
    let n := i.core.toNat
    let c := issuer i s
    ∀ (k o : Nat) (f : CoreFault) (rest : List (Nat × CoreFault × Nat)), c.exec = .issuing → c.runsOut = false →
      (opened i s).wordFaults n c.pc = (k, f, o) :: rest → ((opened i s).cell n).before.fault.code = 0 →
        NoneDue ((opened i s).cell n).before →
      ∃ t, exec (.nop i) s = .next t ∧ (t.core n).exec = .halted ∧ (t.core n).fault.code = f.code ∧ (t.core n).fault.slot = k ∧
        (t.core n).fault.bundle = c.pc ∧ t.mem = (opened i s).mem)

/-- The words that the instruction set's chapters write out. -/
def Sys2Proof.Claims.ExampleWords : Prop :=
  ∀ i : Issue,
    decodeP i 0x0400008B#32 = .instr (.mode i 3#3 1#3 2#2) ∧ decodeP i 0x08000006#32 = .instr (.tld i 6#5 0#2 0#3) ∧
    decodeP i 0x0C000027#32 = .instr (.tldm i 7#5 true) ∧ decodeP i 0x10000000#32 = .instr (.tsw i) ∧
    decodeP i 0x15003908#32 = .instr (.pln i 0#3 1#3 4#5 7#6 0#6 false true false) ∧
    decodeP i 0x20000040#32 = .instr (.gopn i 0#3 8#5) ∧ decodeP i 0x30000383#32 = .instr (.sld i 3#6 14#5) ∧
    decodeV i 0x2048C000#32 = .instr (.vadd i ⟨1#4, 2#4, 3#4, 0#4, 0#2, 0#8⟩) ∧
    decodeS i 0x4A807100#32 = .instr (.lui i 20#5 0x7100#16) ∧ decodeS i 0x4CE90040#32 = .instr (.ldw i 7#5 9#5 64#16) ∧
    decodeS i 0x6CC0005F#32 = .instr (.loop i 6#5 0x05F#10) ∧ decodeS i 0x7000090D#32 = .instr (.sectAt i 3#5 0x0012#16) ∧
    decodeS i 0x74000000#32 = .instr (.endTurn i) ∧ decodeM i 0 0x0400000A#32 = .instr (.vld i 10#5) ∧
    decodeM i 0 0x100042C2#32 = .instr (.waitAlign i 2#3 12#5 0x21#16) ∧ decodeM i 0 0x1C00000E#32 = .instr (.mred i 14#5 false false) ∧
    decodeM i 0 0x28000300#32 = .instr (.pwk i 0#3 false 24#5)

/-- The words of a bundle (R131, R162, R167, R183, R192, R202, R203). -/
def Obligations.WordsSpellInstructions : Prop :=
  Claims.PlaneWords ∧ Claims.VectorWords ∧ Claims.ScalarWords ∧ Claims.MovementWords ∧ Claims.SlotWords ∧ Claims.ExampleWords

/-! ## The scalar unit (R205 to R210) -/

/-- R205, R206: an R-form or I-form instruction puts its result on the core's timeline, readable after 1 cycle, MUL after 3; nothing else
of the opened state changes. -/
def Sys2Proof.Claims.ScalarResults : Prop :=
  ∀ (i : Issue) (sd sa sb : BitVec 5) (imm : BitVec 16) (s : State), Issues i 2 s →
    let c := issuer i s
    let x := c.rs sa
    let y := c.rs sb
    (c.clashS sd (c.now + 1) = false →
      exec (.add i sd sa sb) s = CoreBecomes i s (c.retS sd (x + y) 1) ∧
      exec (.sub i sd sa sb) s = CoreBecomes i s (c.retS sd (x - y) 1) ∧
      exec (.and i sd sa sb) s = CoreBecomes i s (c.retS sd (x &&& y) 1) ∧
      exec (.or i sd sa sb) s = CoreBecomes i s (c.retS sd (x ||| y) 1) ∧
      exec (.xor i sd sa sb) s = CoreBecomes i s (c.retS sd (x ^^^ y) 1) ∧
      exec (.shl i sd sa sb) s = CoreBecomes i s (c.retS sd (x <<< (y.toNat % 32)) 1) ∧
      exec (.shr i sd sa sb) s = CoreBecomes i s (c.retS sd (x >>> (y.toNat % 32)) 1) ∧
      exec (.sra i sd sa sb) s = CoreBecomes i s (c.retS sd (x.sshiftRight (y.toNat % 32)) 1) ∧
      exec (.slt i sd sa sb) s = CoreBecomes i s (c.retS sd (if x.toInt < y.toInt then 1#32 else 0#32) 1) ∧
      exec (.sltu i sd sa sb) s = CoreBecomes i s (c.retS sd (if x.toNat < y.toNat then 1#32 else 0#32) 1) ∧
      exec (.addi i sd sa imm) s = CoreBecomes i s (c.retS sd (x + imm.signExtend 32) 1) ∧
      exec (.ori i sd sa imm) s = CoreBecomes i s (c.retS sd (x ||| imm.zeroExtend 32) 1) ∧
      exec (.lui i sd imm) s = CoreBecomes i s (c.retS sd (imm.zeroExtend 32 <<< 16) 1)) ∧
    (c.clashS sd (c.now + 3) = false →
      exec (.mul i sd sa sb) s = CoreBecomes i s (c.retS sd (x * y) 3))

/-- R207 to R209, R131: LDW, STW, ASET and RDS on operands that raise no fault, and NOP. -/
def Sys2Proof.Claims.ScalarMemoryAndMoves : Prop :=
  ∀ (i : Issue) (s : State), Issues i i.slot.toNat s →
    let n := i.core.toNat
    let c := issuer i s
    (∀ (sd sa : BitVec 5) (off : BitVec 16), i.slot.toNat = 2 →
      let a := (c.rs sa + off.signExtend 32).toNat
      Span a 4 4 → Free c [(a, 4)] → c.clashS sd (c.now + 3) = false →
      exec (.ldw i sd sa off) s = CoreBecomes i s (c.retS sd (BitVec.ofNat 32 ((opened i s).dmNat n a 4)) 3)) ∧
    (∀ (ss sa : BitVec 5) (off : BitVec 16), i.slot.toNat = 2 →
      let a := (c.rs sa + off.signExtend 32).toNat
      StoreSpan c a 4 4 → exec (.stw i ss sa off) s = CoreBecomes i s (c.store 2 a (leBytes 4 (c.rs ss).toNat))) ∧
    (∀ (aN : BitVec 3) (sA : BitVec 5), i.slot.toNat = 2 → sA.toNat % 2 = 0 → c.bundleAddr.contains aN.toNat = false →
      let cnt := bitsOf (c.rs1 sA 1).toNat 0 16
      let ix := bitsOf (c.rs1 sA 1).toNat 16 16
      (cnt = 0 ∨ ix < cnt) →
      exec (.aset i aN sA) s =
        CoreBecomes i s (c.writeA aN (BitVec.ofNat 64 ((c.rs sA).toNat + cnt * 2 ^ 32 + ix * 2 ^ 48)))) ∧
    (∀ (sd : BitVec 5) (code : BitVec 8) (x : Word), i.slot.toNat = 2 →
      rdsValue (opened i s) n c code.toNat = some x → c.clashS sd (c.now + 1) = false →
      exec (.rds i sd code) s = CoreBecomes i s (c.retS sd x 1)) ∧
    exec (.nop i) s = .next (slotEnds i (opened i s))

/-- The scalar unit: results, loads, stores, moves and NOP (R131, R205 to R209). -/
def Obligations.ScalarUnit : Prop := Claims.ScalarResults ∧ Claims.ScalarMemoryAndMoves

/-- R137, Table ISA-2: a scalar result is what its register reads as from its latency on, when no other scalar result is on
its way; s0 reads zero whatever is written to it; every other scalar register, every vector register and every address register is as it
was, where no result for it is on its way. -/
def Sys2Proof.Claims.ScalarResultReadableAtLatency : Prop :=
  ∀ (s : State) (n lat : Nat) (r : BitVec 5) (x : Word),
    let c := s.core n
    let t := settle n (c.now + lat) (s.setCore n (c.retS r x lat))
    (∀ it ∈ c.timeline, ∀ q y, it.act ≠ .regS q y) →
    (t.core n).rs r = (if r = 0#5 then 0#32 else x) ∧ (∀ q : BitVec 5, q ≠ r → (t.core n).rs q = c.rs q) ∧
      (t.core n).a = c.a ∧ ((∀ it ∈ c.timeline, ∀ q y, it.act ≠ .regV q y) → (t.core n).v = c.v)

/-- R137, R207: a store of cycle c is read by loads from cycle c + 2 on, and changes no other byte of memory: where no write is on its way. -/
def Sys2Proof.Claims.StoreReadableAfterItsWrite : Prop :=
  ∀ (s : State) (n slot a : Nat) (bs : List Byte) (k : Nat),
    s.mem.wf = true → (s.core n).timeline = [] →
    let t := settle n ((s.core n).now + 2) (s.setCore n ((s.core n).store slot a bs))
    t.mem.get k = (if dmAddr n a ≤ k ∧ k < dmAddr n a + bs.length then bs.getD (k - dmAddr n a) 0#8 else s.mem.get k)

/-- Results and stores are read from their cycle on (R137, R207). -/
def Obligations.ScheduledResultsLand : Prop := Claims.ScalarResultReadableAtLatency ∧ Claims.StoreReadableAfterItsWrite

/-! ## Branches, loops, sections and waits (R141 to R153, R211 to R216, R227) -/

/-- R211, R212, R220: the next bundle of B, BC, BR, LOOP and OVB, and the cycle in which it issues. -/
def Sys2Proof.Claims.BranchesTaken : Prop :=
  ∀ (i : Issue) (s : State),
    let c := issuer i s
    (∀ l ∈ c.loops, l.lend ≠ c.pc) →
    (Sits i 2 s → c.bundleMov = false →
      (∀ t : BitVec 10, t.toNat / 512 = c.pc / 512 → exec (.b i t) s = CoreBecomes i s (c.jump t.toNat 3)) ∧
      (∀ (sa : BitVec 5), (c.rs sa).toNat % 1024 / 512 = c.pc / 512 →
        exec (.br i sa) s = CoreBecomes i s (c.jump ((c.rs sa).toNat % 1024) 3)) ∧
      (∀ (cond : BitVec 3) (sa sb : BitVec 5) (t : BitVec 10) (k : Bool), t.toNat / 512 = c.pc / 512 →
        branchCond cond.toNat (c.rs sa) (c.rs sb) = some k → (k = false → closesBundle i = true → c.runsOut = false) →
        exec (.bc i cond sa sb t) s =
          CoreBecomes i s (if k then c.jump t.toNat 3
            else { c with nextIssue := max c.nextIssue (c.now + 3), bundleCtl := true })) ∧
      (∀ (sA : BitVec 5) (e : BitVec 10), c.pc < e.toNat → e.toNat / 512 = c.pc / 512 → (∀ l ∈ c.loops, e.toNat ≤ l.lend) →
        c.loops.length < 3 → ((c.rs sA).toNat % 65536 = 0 → e.toNat ≠ 511 ∧ e.toNat ≠ 1023) →
        let lc := c.lc.setIfInBounds c.loops.length (BitVec.ofNat 16 ((c.rs sA).toNat % 65536))
        exec (.loop i sA e) s =
          CoreBecomes i s (if (c.rs sA).toNat % 65536 = 0 then { c.jump (e.toNat + 1) 3 with lc := lc }
            else { c with lc := lc, loops := ⟨c.pc + 1, e.toNat⟩ :: c.loops, bundleCtl := true
                          nextPc := c.pc + 1, jumped := true }))) ∧
    (Sits i 3 s → c.bundleCtl = false → ∀ t : BitVec 10, t.toNat / 512 ≠ c.pc / 512 → c.ovldInto (t.toNat / 512) = false →
      exec (.ovb i t) s =
        CoreBecomes i s { c with nextPc := t.toNat, jumped := true, nextIssue := max c.nextIssue (c.now + 40), loops := []
                                 bundleMov := true })

/-- R212, R213, R151: when a bundle has issued, the level whose last bundle it is goes round or closes, and issue goes on at the bundle
that follows; a bundle after which issue would pass out of its bank in sequence raises OVL_ORDER and is suppressed. -/
def Sys2Proof.Claims.BundleEndDecidesNext : Prop :=
  ∀ (i : Issue) (s : State), Sits i i.slot.toNat s → closesBundle i = true →
    let n := i.core.toNat
    let c := issuer i s
    c.exec = .issuing → c.jumped = false →
    (c.runsOut = false →
      ∃ t, exec (.nop i) s = .next t ∧ (t.core n).bundleOpen = false ∧
        (∀ l ls k, c.loops = l :: ls → l.lend = c.pc → c.lc[ls.length]? = some k → 1 < k.toNat →
          (t.core n).nextPc = l.start ∧ (t.core n).loops = c.loops ∧ (t.core n).lc = c.lc.setIfInBounds ls.length (k - 1#16)) ∧
        (∀ l, c.loops = [l] → l.lend = c.pc → (c.lc[0]?.getD 0#16).toNat ≤ 1 →
          (t.core n).nextPc = c.pc + 1 ∧ (t.core n).loops = [] ∧ (t.core n).lc = c.lc) ∧
        ((∀ l ∈ c.loops, l.lend ≠ c.pc) → (t.core n).nextPc = c.pc + 1 ∧ (t.core n).loops = c.loops ∧ (t.core n).lc = c.lc)) ∧
    (c.pc = 511 ∨ c.pc = 1023 → (∀ l ∈ c.loops, l.lend ≠ c.pc) → ((opened i s).cell n).before.fault.code = 0 →
        NoneDue ((opened i s).cell n).before →
      ∃ t, exec (.nop i) s = .next t ∧ (t.core n).exec = .halted ∧ (t.core n).fault.code = 0x10 ∧ (t.core n).fault.bundle = c.pc ∧
        (t.core n).fault.cyc = c.now ∧ t.mem = (opened i s).mem)

/-- Transfers of control, and the bundle that follows one (R151, R211 to R213, R220). -/
def Obligations.BranchesAndLoops : Prop := Claims.BranchesTaken ∧ Claims.BundleEndDecidesNext

/-- R142, R143, R215, R216: a SECT names the next section's id and first cycle; END ends the core's part of the turn. -/
def Sys2Proof.Claims.SectionsAndEnd : Prop :=
  ∀ (i : Issue) (s : State), Sits i 2 s →
    let c := issuer i s
    (∀ l ∈ c.loops, l.lend ≠ c.pc) → c.bundleMov = false →
    ((closesBundle i = true → c.runsOut = false) → ∀ (sF : BitVec 5) (id : BitVec 16),
      let at_ := fun (x : SectNext) => CoreBecomes i s { c with exec := .atSect, sectNext := some x, bundleCtl := true }
      let f := (c.rs sF).toNat % 65536
      exec (.sectNext i 0#5 id) s = at_ ⟨id.toNat, some ((c.now / 2048 + 1) * 2048), false, false, c.now⟩ ∧
      exec (.sectAt i sF id) s =
        at_ (if c.now / 2048 < f then ⟨id.toNat, some (f * 2048), false, false, c.now⟩
          else ⟨id.toNat, some ((c.now / 2048 + 1) * 2048), true, false, c.now⟩) ∧
      exec (.sectBar i 0#5 id) s = at_ ⟨id.toNat, none, false, true, c.now⟩) ∧
    exec (.endTurn i) s =
      CoreBecomes i s { c with exec := .atEnd, loops := [], bundleCtl := true, sectLog := c.sectLog ++ [c.sect.log] }

/-- R142: a section with a known start starts there: the core issues again, no earlier than that cycle, in a tight section of the named
id. Where every core of the team has issued a SECT.BAR of one id, all of them start in the first frame boundary at least 512 cycles after
the last. -/
def Sys2Proof.Claims.SectionsStart : Prop :=
  ∀ (core : BitVec 12) (s : State) (x : SectNext),
    let n := core.toNat
    (s.core n).exec = .atSect → (s.core n).sectNext = some x →
    (∀ start, x.barrier = false → x.start = some start →
      ∃ t, exec (.sectionStart core) s = .next t ∧ (t.core n).exec = .issuing ∧ (t.core n).sect.id = x.id ∧
        (t.core n).sect.startFrame = start / 2048 ∧ (t.core n).sect.loose = false ∧ (t.core n).sect.late = x.late ∧
        start ≤ (t.core n).nextIssue ∧ t.mem = s.mem ∧ t.regs = s.regs) ∧
    (x.barrier = true → (s.teamCores n).Nodup → n ∈ s.teamCores n →
      (∀ m ∈ s.teamCores n, ∃ y, (s.core m).exec = .atSect ∧ (s.core m).sectNext = some y ∧ y.barrier = true ∧ y.id = x.id) →
      ∃ t start, exec (.sectionStart core) s = .next t ∧ start % 2048 = 0 ∧
        ∀ m ∈ s.teamCores n, (t.core m).exec = .issuing ∧ (t.core m).sect.id = x.id ∧
          (t.core m).sect.startFrame = start / 2048 ∧ (t.core m).sect.barrier = true ∧
          ∀ y, (s.core m).sectNext = some y → y.issued + 512 ≤ start)

/-- Sections are named, start, and a core ends its part of the turn (R142, R143, R215, R216). -/
def Obligations.SectionsOfATurn : Prop := Claims.SectionsAndEnd ∧ Claims.SectionsStart

/-- R145, R147, R227: a WAIT stops issue until its condition holds; LOOSE makes the rest of the section loose. -/
def Sys2Proof.Claims.WaitsStopIssue : Prop :=
  ∀ (i : Issue) (q : BitVec 3) (sA : BitVec 5) (id : BitVec 16) (s : State), Issues i 3 s →
    let c := issuer i s
    let target := (c.rs sA).toNat
    let limit := (c.rs1 sA 1).toNat
    (∀ l ∈ c.loops, l.lend ≠ c.pc) → c.bundleCtl = false → sA.toNat % 2 = 0 → limit ≠ 0 →
    target ≤ (c.dq.get q.toFin).posted →
    let waits := fun (align : Bool) (id : Nat) =>
      CoreBecomes i s
        { c with exec := .atWait, bundleMov := true
                 sect := { c.sect with loose := c.sect.loose || !align }
                 wait := some ⟨q.toNat, target, c.now + limit, align, id, c.now⟩ }
    exec (.waitAlign i q sA id) s = waits true id.toNat ∧ exec (.waitLoose i q sA 0#16) s = waits false 0

/-- R145 to R147, R149: a WAIT whose queue has reached its count no later than its expiry cycle resumes, in ALIGN mode at the next frame
boundary in a new section and in LOOSE mode in the next cycle; one whose count is reached later or not at all ends in WAIT_TIMEOUT; a bundle
held by interlocks issues again in the first cycle in which all of them have cleared, and the cycles it lost count as stalls. -/
def Sys2Proof.Claims.WaitsEnd : Prop :=
  ∀ (core : BitVec 12) (cyc : Nat) (w : WaitSt) (s : State),
    let n := core.toNat
    let c := s.core n
    let done := ((c.dq[w.q]?).getD {}).done
    let timeout := fun (t : State) => (t.core n).exec = .halted ∧ (t.core n).wait = none ∧
      (c.fault.code = 0 → (t.core n).fault.code = 0x15 ∧ (t.core n).fault.slot = 3 ∧ (t.core n).fault.cyc = w.expiry) ∧
      (c.fault.code ≠ 0 → (t.core n).fault = c.fault ∧ (t.core n).faultCnt = c.faultCnt + 1)
    (c.exec = .atWait → c.wait = some w → w.target ≤ done → cyc ≤ w.expiry →
      ∃ t, exec (.waitResume core cyc) s = .next t ∧ (t.core n).exec = .issuing ∧ (t.core n).wait = none ∧
        t.mem = s.mem ∧ t.regs = s.regs ∧
        (w.align = true → (t.core n).sect.id = w.id ∧ (t.core n).sect.startFrame = max cyc w.issued / 2048 + 1 ∧
          (t.core n).sect.loose = false) ∧
        (w.align = false → (t.core n).nextIssue = max c.nextIssue (max cyc w.issued + 1) ∧
          (t.core n).stall = c.stall + (max cyc w.issued - w.issued) ∧ (t.core n).sect.id = c.sect.id)) ∧
    (c.exec = .atWait → c.wait = some w → w.target ≤ done → w.expiry < cyc →
      ∃ t, exec (.waitResume core cyc) s = .next t ∧ timeout t) ∧
    (c.exec = .atWait → c.wait = some w → done < w.target → ∃ t, exec (.waitTimeout core) s = .next t ∧ timeout t) ∧
    (∀ t, c.exec = .interlock → c.clearAll c.stalledOn = some t →
      ∃ u : State, exec (.looseInterlockRelease core (max c.nextIssue t)) s = .next u ∧ (u.core n).exec = .issuing ∧ (u.core n).stalledOn = [] ∧
        (u.core n).nextIssue = max c.nextIssue t ∧ (u.core n).stall = c.stall + (t - c.nextIssue) ∧ u.mem = s.mem ∧ u.regs = s.regs)

/-- R149, R154: a bundle that meets an interlock in a loose section stalls whole: nothing of it takes effect, and the core holds it until
the interlock clears. Here a LDW of bytes that await a vault line completes the bundle. -/
def Sys2Proof.Claims.InterlockHoldsBundle : Prop :=
  ∀ (i : Issue) (sd sa : BitVec 5) (off : BitVec 16) (s : State), Sits i 2 s → closesBundle i = true →
    let n := i.core.toNat
    let c := issuer i s
    let a := (c.rs sa + off.signExtend 32).toNat
    c.sect.loose = true → c.awaits [(a, 4)] ≠ [] →
    ∃ t, exec (.ldw i sd sa off) s = .next t ∧ t.mem = (opened i s).mem ∧ t.regs = (opened i s).regs ∧
      t.core n = { ((opened i s).cell n).before with exec := .interlock, stalledOn := c.awaits [(a, 4)] }

/-- Waits and interlocks hold issue, and end (R145 to R149, R227). -/
def Obligations.WaitsHoldAndEnd : Prop := Claims.WaitsStopIssue ∧ Claims.WaitsEnd ∧ Claims.InterlockHoldsBundle

/-! ## The bundle (R133, R154, R156) -/

namespace Sys2Proof.Claims

/-- The issue fields of a slot instruction and its unit class (Table ISA-1); NOP belongs to every class. -/
def slotOf : Instr → Option (Issue × Nat)
  | .mode i _ _ _ | .tld i _ _ _ | .tldm i _ _ | .tsw i | .pln i _ _ _ _ _ _ _ _ | .xld i _ | .cld i _ | .gopn i _ _ | .gspl i _ _
  | .gresReset i _ | .gresReload i _ | .gcls i _ | .sld i _ _ | .draw i _ _ _ _ _ _ => some (i, 0)
  | .epi i _ | .ldv i _ _ _ | .stv i _ _ _ | .vbcs i _ _ | .vext i _ _ _ | .vadd i _ | .vsub i _ | .vmul i _ | .vfma i _
  | .vmax i _ | .vmin i _ | .vadds i _ | .vsubs i _ | .vand i _ | .vor i _ | .vxor i _ | .vshl i _ | .vshr i _ | .vcmp i _ | .vsel i _
  | .vcvt i _ | .vfn i _ | .vred i _ | .venc i _ | .vdec i _ _ _ _ _ | .vunq i _ | .vutp i _ | .vpkt i _ => some (i, 1)
  | .add i _ _ _ | .sub i _ _ _ | .and i _ _ _ | .or i _ _ _ | .xor i _ _ _ | .shl i _ _ _ | .shr i _ _ _ | .sra i _ _ _
  | .slt i _ _ _ | .sltu i _ _ _ | .mul i _ _ _ | .addi i _ _ _ | .ori i _ _ _ | .lui i _ _ | .ldw i _ _ _ | .stw i _ _ _
  | .aset i _ _ | .rds i _ _ | .b i _ | .bc i _ _ _ _ | .br i _ | .loop i _ _ | .sectNext i _ _ | .sectAt i _ _ | .sectBar i _ _
  | .endTurn i => some (i, 2)
  | .vld i _ | .vst i _ | .get i _ _ | .put i _ _ | .bdec i _ _ | .waitAlign i _ _ _ | .waitLoose i _ _ _ | .msnd i _
  | .mbc i _ _ | .mred i _ _ _ | .ovld i _ | .ovb i _ | .pwk i _ _ _ | .pwkS i _ _ _ => some (i, 3)
  | _ => none

end Sys2Proof.Claims

/-- R132, R154, R156: an instruction in a slot that is not of its class has no effect and raises ILLEGAL_OP: its bundle, when complete, is
suppressed: the core is as it was before the bundle but for the fault record, the cycle and the bundle's index, nothing is written to
memory or to a register of the block by it, and the core stops. The first fault of a turn fills the record with code 0x01; a later one
counts. -/
def Sys2Proof.Claims.WrongSlotSuppressesBundle : Prop :=
  ∀ (ins : Instr) (i : Issue) (cls : Nat) (s : State), slotOf ins = some (i, cls) → Opens i s → i.slot.toNat ≠ cls →
    let n := i.core.toNat
    let b := ((opened i s).cell n).before
    let c := issuer i s
    (closesBundle i = false → exec ins s = .next (noteSlot i [] [(i.slot.toNat, .illegalOp, 0)] (opened i s))) ∧
    (closesBundle i = true → (opened i s).wordFaults n c.pc = [] → c.runsOut = false → NoneDue b →
      ∃ t, exec ins s = .next t ∧ t.mem = (opened i s).mem ∧ t.regs = (opened i s).regs ∧
        t.core n =
          { b with exec := .halted, pc := c.pc, now := c.now, turnCyc := c.now
                   fault := if b.fault.code = 0 then ⟨1, 1, i.slot.toNat, true, c.pc, b.ovlOf c.pc, b.turn, c.now, 0⟩ else b.fault
                   faultCnt := if b.fault.code = 0 then b.faultCnt else b.faultCnt + 1 })

/-- A slot instruction acts on its own core, on memory and on the mesh: registers of the block (but for the two counters of coded tiles),
clusters, teams, the vault sites, GDDR regions, the plates, the dealer, the host interface, the chain and every other core are as before,
and so is the fabric but where a DMA descriptor is posted; and one that is not its bundle's first writes no memory (every store lands
later, R137). -/
def Sys2Proof.Claims.SlotInstructionFrame : Prop :=
  ∀ (ins : Instr) (i : Issue) (cls : Nat) (s t : State), slotOf ins = some (i, cls) → exec ins s = .next t →
    (∀ q sA, ins ≠ .get i q sA ∧ ins ≠ .put i q sA ∧ ins ≠ .bdec i q sA) →
    (∀ a, a ≠ Reg.burTileCnt → a ≠ Reg.burMediaCnt → t.reg a = s.reg a) ∧
      t.clusters = s.clusters ∧ t.teams = s.teams ∧ t.sites = s.sites ∧ t.regions = s.regions ∧ t.fab = s.fab ∧
      t.plt = s.plt ∧ t.dlr = s.dlr ∧ t.hst = s.hst ∧ t.det = s.det ∧ t.mgt = s.mgt ∧ t.clk = s.clk ∧ t.outbox = s.outbox ∧
      t.vpoison = s.vpoison ∧ t.gpoison = s.gpoison ∧
      (∀ m, m ≠ i.core.toNat → t.core m = s.core m) ∧ (i.first = false → t.mem = s.mem)

/-- An instruction in a slot of another class suppresses its bundle, and the frame of every slot instruction (Table ISA-1, R154, R156). -/
def Obligations.SlotClassesAndFrame : Prop := Claims.WrongSlotSuppressesBundle ∧ Claims.SlotInstructionFrame

/-! ## The vector unit (R191 to R198) -/

namespace Sys2Proof.Claims

/-- The core after a vector instruction: lane `k` of `vd` becomes `f k` after `lat` cycles, and the unit is occupied for one cycle. -/
def Core.lanes (c : Core) (vd : BitVec 4) (f : Fin 32 → Word) (lat : Nat) : Core :=
  { c.retV vd (Vector.ofFn f) lat with vecFree := c.now + 1 }

/-- The core with POISON events added to the turn's pending copy (R64). -/
def Core.poisons (c : Core) (n : Nat) : Core := { c with fmtPend := { c.fmtPend with poison := c.fmtPend.poison + n } }

/-- An operation in the lane format T (R191): FP32, BF16 in lane bits [31:16], or INT32. -/
def inFormat (t : BitVec 2) (fp int : Word → Word → Word) (x y : Word) : Word :=
  if t = 0#2 then fp x y else if t = 1#2 then toBf16Lane (fp (bf16Lane x) (bf16Lane y)) else int x y

/-- How many lanes of a function are true. -/
def countLanes (p : Fin 32 → Bool) : Nat := ((List.finRange 32).filter p).length

end Sys2Proof.Claims

/-- R191, R192: lane arithmetic in each lane format, after 2 cycles in INT32 and 4 otherwise. -/
def Sys2Proof.Claims.VectorArithmetic : Prop :=
  ∀ (i : Issue) (r : RForm) (s : State), Issues i 1 s →
    let c := issuer i s
    let a := fun k => (c.rv r.va).get k
    let b := fun k => (c.rv r.vb).get k
    let lat := if r.t = 2#2 then 2 else 4
    let becomes := fun (f : Fin 32 → Word) => CoreBecomes i s (Core.lanes c r.vd f lat)
    c.vecFree ≤ c.now → c.clashV r.vd (c.now + lat) = false → r.t ≠ 3#2 → r.f = 0#8 →
    (r.vc = 0#4 →
      exec (.vadd i r) s = becomes (fun k => inFormat r.t fpAdd (· + ·) (a k) (b k)) ∧
      exec (.vsub i r) s = becomes (fun k => inFormat r.t fpSub (· - ·) (a k) (b k)) ∧
      exec (.vmul i r) s = becomes (fun k => inFormat r.t fpMul (· * ·) (a k) (b k)) ∧
      exec (.vmax i r) s =
        becomes (fun k => inFormat r.t fpMax (fun x y => if x.toInt < y.toInt then y else x) (a k) (b k)) ∧
      exec (.vmin i r) s =
        becomes (fun k => inFormat r.t fpMin (fun x y => if y.toInt < x.toInt then y else x) (a k) (b k))) ∧
    exec (.vfma i r) s = becomes (fun k =>
      let z := (c.rv r.vc).get k
      if r.t = 0#2 then fpFma (a k) (b k) z
      else if r.t = 1#2 then toBf16Lane (fpFma (bf16Lane (a k)) (bf16Lane (b k)) (bf16Lane z))
      else a k * b k + z)

/-- R192, Table ISA-19: the INT32-only instructions: saturating sums, bitwise operations and shifts by the low five bits. -/
def Sys2Proof.Claims.VectorIntegers : Prop :=
  ∀ (i : Issue) (r : RForm) (s : State), Issues i 1 s →
    let c := issuer i s
    let a := fun k => (c.rv r.va).get k
    let b := fun k => (c.rv r.vb).get k
    let becomes := fun (f : Fin 32 → Word) => CoreBecomes i s (Core.lanes c r.vd f 2)
    let sat := fun (x : Int) =>
      if x < -2147483648 then 0x80000000#32 else if 2147483647 < x then 0x7FFFFFFF#32 else BitVec.ofInt 32 x
    c.vecFree ≤ c.now → c.clashV r.vd (c.now + 2) = false → r.t = 2#2 → r.f = 0#8 → r.vc = 0#4 →
    exec (.vadds i r) s = becomes (fun k => sat ((a k).toInt + (b k).toInt)) ∧
    exec (.vsubs i r) s = becomes (fun k => sat ((a k).toInt - (b k).toInt)) ∧
    exec (.vand i r) s = becomes (fun k => a k &&& b k) ∧
    exec (.vor i r) s = becomes (fun k => a k ||| b k) ∧
    exec (.vxor i r) s = becomes (fun k => a k ^^^ b k) ∧
    exec (.vshl i r) s = becomes (fun k => a k <<< ((b k).toNat % 32)) ∧
    exec (.vshr i r) s = becomes (fun k => (a k).sshiftRight ((b k).toNat % 32))

/-- Lane-by-lane vector arithmetic (R191 to R194). -/
def Obligations.VectorLaneArithmetic : Prop := Claims.VectorArithmetic ∧ Claims.VectorIntegers

/-- R192, R195: compare, select, convert and the table unit. A poison lane counts POISON in VCMP and in VCVT to INT32. -/
def Sys2Proof.Claims.VectorCompareSelectConvert : Prop :=
  ∀ (i : Issue) (r : RForm) (s : State), Issues i 1 s →
    let c := issuer i s
    let a := fun k => (c.rv r.va).get k
    let b := fun k => (c.rv r.vb).get k
    c.vecFree ≤ c.now →
    (r.t = 2#2 → r.vc = 0#4 → r.f.toNat < 4 → c.clashV r.vd (c.now + 2) = false →
      exec (.vcmp i r) s = CoreBecomes i s (Core.lanes c r.vd (fun k =>
        if (if r.f = 0#8 then a k = b k else if r.f = 1#8 then (a k).toInt < (b k).toInt
            else if r.f = 2#8 then (a k).toInt ≤ (b k).toInt else a k ≠ b k)
        then 0xFFFFFFFF#32 else 0#32) 2)) ∧
    (r.t = 0#2 → r.vc = 0#4 → r.f.toNat < 4 → c.clashV r.vd (c.now + 4) = false →
      exec (.vcmp i r) s = CoreBecomes i s (Core.poisons (Core.lanes c r.vd (fun k =>
        if isPoison (a k) || isPoison (b k) then 0x80000000#32
        else if cmpKeys r.f.toNat (isNaN (a k) || isNaN (b k)) (fpCmpKey (a k)) (fpCmpKey (b k)) then 0xFFFFFFFF#32 else 0#32) 4)
        (countLanes (fun k => isPoison (a k) || isPoison (b k))))) ∧
    (r.t ≠ 3#2 → r.f = 0#8 → c.clashV r.vd (c.now + 2) = false →
      exec (.vsel i r) s = CoreBecomes i s (Core.lanes c r.vd (fun k => if (c.rv r.vc).get k ≠ 0#32 then a k else b k) 2)) ∧
    (r.t = 0#2 → r.vb = 0#4 → r.vc = 0#4 → c.clashV r.vd (c.now + 4) = false →
      (r.f = 0#8 → exec (.vcvt i r) s = CoreBecomes i s (Core.lanes c r.vd (fun k => toBf16Lane (a k)) 4)) ∧
      (r.f = 1#8 → exec (.vcvt i r) s = CoreBecomes i s (Core.lanes c r.vd (fun k => bf16Lane (a k)) 4)) ∧
      (r.f = 2#8 → exec (.vcvt i r) s = CoreBecomes i s (Core.poisons (Core.lanes c r.vd (fun k => fpToInt (a k)) 4)
        (countLanes (fun k => isPoison (a k))))) ∧
      (r.f = 3#8 → exec (.vcvt i r) s = CoreBecomes i s (Core.lanes c r.vd (fun k => intToFp (a k)) 4))) ∧
    (∀ fn, tableFnOf r.f.toNat = some fn → r.t.toNat < 2 → r.vb = 0#4 → r.vc = 0#4 → c.clashV r.vd (c.now + 8) = false →
      exec (.vfn i r) s = CoreBecomes i s (Core.lanes c r.vd (fun k =>
        if r.t = 1#2 then toBf16Lane (tableUnit fn (bf16Lane (a k))) else tableUnit fn (a k)) 8))

/-- R193: LDV and STV move 128 bytes, or 64 bytes as BF16 in lane bits [31:16], at the address register's address, which then advances;
VBCS copies a scalar to every lane and VEXT a lane to a scalar. -/
def Sys2Proof.Claims.VectorMoves : Prop :=
  ∀ (i : Issue) (vd : BitVec 4) (aN : BitVec 3) (s : State), Issues i 1 s →
    let c := issuer i s
    let n := i.core.toNat
    let a := addrOf (c.ra aN)
    let next := c.writeA aN (advanceAddr (c.ra aN))
    c.vecFree ≤ c.now →
    (c.bundleAddr.contains aN.toNat = false → c.clashV vd (c.now + 3) = false →
      (Span a 128 4 → Free c [(a, 128)] →
        exec (.ldv i vd aN false) s =
          CoreBecomes i s (Core.lanes next vd (fun k => BitVec.ofNat 32 ((opened i s).dmNat n (a + 4 * k.val) 4)) 3)) ∧
      (Span a 64 2 → Free c [(a, 64)] →
        exec (.ldv i vd aN true) s =
          CoreBecomes i s (Core.lanes next vd
            (fun k => BitVec.ofNat 32 ((opened i s).dmNat n (a + 2 * k.val) 2 * 65536)) 3))) ∧
    (c.bundleAddr.contains aN.toNat = false →
      (StoreSpan c a 128 4 →
        exec (.stv i vd aN false) s =
          CoreBecomes i s { next.store 1 a ((List.finRange 32).flatMap (fun k => leBytes 4 ((c.rv vd).get k).toNat)) with
            vecFree := c.now + 1 }) ∧
      (StoreSpan c a 64 2 →
        exec (.stv i vd aN true) s =
          CoreBecomes i s { next.store 1 a ((List.finRange 32).flatMap (fun k => leBytes 2 (((c.rv vd).get k).toNat / 65536))) with
            vecFree := c.now + 1 })) ∧
    (∀ sA : BitVec 5, c.clashV vd (c.now + 2) = false →
      exec (.vbcs i vd sA) s = CoreBecomes i s (Core.lanes c vd (fun _ => c.rs sA) 2)) ∧
    (∀ (sd lane : BitVec 5), c.clashS sd (c.now + 2) = false →
      exec (.vext i sd vd lane) s = CoreBecomes i s { c.retS sd ((c.rv vd).get lane.toFin) 2 with vecFree := c.now + 1 })

/-- R116, Table ERR-2: a table-unit function returns a NaN as it is, the special values of the table exactly, and elsewhere a value within the
table's bound of the exact function (the FP32 value nearest to it always counts). -/
def Sys2Proof.Claims.TableUnitBounds : Prop :=
  ∀ (f : TableFn) (y : Word), (isNaN y = true → tableUnit f y = y) ∧
    (isNaN y = false → (∀ r, tableSpecial f y = some r → tableUnit f y = r) ∧
      (tableSpecial f y = none → meetsBound f y (tableUnit f y) = true))

/-- Vector compares, selects, conversions, table functions, loads, stores and moves. -/
def Obligations.VectorSelectConvertMove : Prop := Claims.VectorCompareSelectConvert ∧ Claims.TableUnitBounds ∧ Claims.VectorMoves

/-- R194: a reduction puts its result in lane 0 and zero elsewhere: SUM, MAX and MIN fold the lanes in the fixed order; ARGMAX gives the
largest lane and its index, ties to the lower lane. -/
def Sys2Proof.Claims.VectorReductions : Prop :=
  ∀ (i : Issue) (r : RForm) (s : State), Issues i 1 s →
    let c := issuer i s
    let xs := (c.rv r.va).toList
    c.vecFree ≤ c.now → r.vb = 0#4 → r.vc = 0#4 →
    (r.t = 2#2 → c.clashV r.vd (c.now + 6) = false →
      (r.f = 0#8 → exec (.vred i r) s = CoreBecomes i s (Core.lanes c r.vd (fun k => if k = 0 then foldLanes (· + ·) xs else 0#32) 6)) ∧
      (r.f = 1#8 → exec (.vred i r) s = CoreBecomes i s (Core.lanes c r.vd (fun k => if k = 0 then foldLanes intMax xs else 0#32) 6)) ∧
      (r.f = 2#8 → exec (.vred i r) s = CoreBecomes i s (Core.lanes c r.vd (fun k => if k = 0 then foldLanes intMin xs else 0#32) 6)) ∧
      (r.f = 3#8 → ∃ m : Fin 32, (∀ k, ((c.rv r.va).get k).toInt ≤ ((c.rv r.va).get m).toInt) ∧
        (∀ k, k < m → ((c.rv r.va).get k).toInt < ((c.rv r.va).get m).toInt) ∧
        exec (.vred i r) s = CoreBecomes i s (Core.lanes c r.vd
          (fun k => if k = 0 then (c.rv r.va).get m else if k = 1 then BitVec.ofNat 32 m.val else 0#32) 6))) ∧
    (r.t = 0#2 → c.clashV r.vd (c.now + 12) = false → xs.any isPoison = false →
      (r.f = 0#8 → exec (.vred i r) s = CoreBecomes i s (Core.lanes c r.vd (fun k => if k = 0 then foldLanes fpAdd xs else 0#32) 12)) ∧
      (r.f = 1#8 → exec (.vred i r) s = CoreBecomes i s (Core.lanes c r.vd (fun k => if k = 0 then foldLanes fpMax xs else 0#32) 12)) ∧
      (r.f = 2#8 → exec (.vred i r) s = CoreBecomes i s (Core.lanes c r.vd (fun k => if k = 0 then foldLanes fpMin xs else 0#32) 12)))

/-- R196: VUNQ unpacks the trits of seven quint bytes, VUTP and VPKT unpack and pack two trit-pair words. -/
def Sys2Proof.Claims.VectorTrits : Prop :=
  ∀ (i : Issue) (r : RForm) (s : State), Issues i 1 s →
    let c := issuer i s
    let bytes := laneBytes (c.rv r.va)
    let xs := (c.rv r.va).toList
    c.vecFree ≤ c.now → r.vb = 0#4 → r.vc = 0#4 → r.t = 0#2 → c.clashV r.vd (c.now + 2) = false →
    (r.f.toNat ≤ 17 → (∀ k, k < 7 → (bytes.getD (7 * r.f.toNat + k) 0#8).toNat < 243) →
      exec (.vunq i r) s = CoreBecomes i s (Core.lanes c r.vd (fun k =>
        BitVec.ofInt 32 (((bytes.getD (7 * r.f.toNat + k.val / 5) 0#8).toNat / 3 ^ (k.val % 5) % 3 : Nat) - 1)) 2)) ∧
    (r.f = 0#8 → (∀ k : Fin 32, bitsOf (leNat (bytes.take 8)) (2 * k.val) 2 ≠ 2) →
      exec (.vutp i r) s = CoreBecomes i s (Core.lanes c r.vd (fun k =>
        let code := bitsOf (leNat (bytes.take 8)) (2 * k.val) 2
        if code = 0 then 0#32 else if code = 1 then 1#32 else 0xFFFFFFFF#32) 2)) ∧
    (r.f = 0#8 →
      exec (.vpkt i r) s = CoreBecomes i s (Core.lanes c r.vd (fun k =>
        if k = 0 then packSigns (xs.take 16) else if k = 1 then packSigns (xs.drop 16) else 0#32) 2))

/-- Vector reductions and trit lanes. -/
def Obligations.VectorReduceAndTrits : Prop := Claims.VectorReductions ∧ Claims.VectorTrits

/-- R197, R187, R139: an encoded block is written at the end of cycle c + 15, in the place of its VENC in the issue order, and so are its list
entries and the list's header where it is a full block that has some; its events are counted. -/
def Sys2Proof.Claims.EncodedBlockIsWritten : Prop :=
  ∀ (core : BitVec 12) (j : VencJob) (rest : List VencJob) (s : State),
    let n := core.toNat
    (s.core n).vencs = j :: rest → s.mem.wf = true →
    let s1 := settle n j.writeEnd (s.setCore n { s.core n with vencs := rest })
    let ord := 4 * (j.writeEnd - 15) + 1
    let s2 := s1.withEarlier n ord j.writeEnd
    let c := s1.core n
    let k0 := bitsOf (s2.dmNat n j.ovfAddr 8) 0 7
    let room := if j.compact then 0 else 64 - k0
    let e := encodeBlock j.w j.outShift j.compact j.blk room j.xs (fun k => bitOf j.chan k)
      (fun k => if j.qstip then .stipple (rollValue c.teamSeed c.turn c.rank j.qroll (j.cnt + j.blk * 32 + k)) else .nearest)
    let apart := j.ovfAddr + 520 ≤ j.dst ∨ j.dst + e.bytes.length ≤ j.ovfAddr
    let written := fun (a : Nat) (bs : List Byte) => (⟨j.writeEnd + 1, ord, .dmem false a bs⟩ : Item)
    ∃ t, exec (.vencWrite core) s = .next t ∧ t.regs = s.regs ∧ t.mem = s1.mem ∧ (t.core n).vencs = rest ∧
      (t.core n).fmtPend = c.fmtPend.add e.ev ∧ (∀ m, m ≠ n → t.core m = s.core m) ∧
      ((j.compact = true ∨ (apart ∧ e.entries = [] ∧ e.full = false)) →
        (t.core n).timeline = insertItem (written j.dst e.bytes) c.timeline) ∧
      (j.compact = false → e.entries ≠ [] → apart →
        (∀ it ∈ c.timeline, it ∈ (t.core n).timeline) ∧ written j.dst e.bytes ∈ (t.core n).timeline ∧
        written (j.ovfAddr + 8 + 8 * k0) (e.entries.flatMap ovfBytes) ∈ (t.core n).timeline ∧
        ∃ h, written j.ovfAddr h ∈ (t.core n).timeline ∧ h.length = 8 ∧ bitsOf (leNat h) 0 7 = k0 + e.entries.length)

/-- R197, R198: VENC occupies the unit for four cycles and holds its operands until the end of cycle c + 15;
VDEC gives a block's 32 lanes after 8 cycles and counts its events. -/
def Sys2Proof.Claims.EtchEncodeAndDecode : Prop :=
  ∀ (i : Issue) (s : State), Issues i 1 s →
    let c := issuer i s
    let n := i.core.toNat
    c.vecFree ≤ c.now →
    (∀ (r : RForm) (sA : BitVec 5), r.f.toNat = sA.toNat → sA.toNat % 4 = 0 → r.vd = 0#4 → r.vc = 0#4 → r.t = 0#2 →
      let d := (c.rs sA).toNat
      let q := (c.rs1 sA 1).toNat
      let w := bitsOf d 16 3 + 1
      bitOf d 23 = true → StoreSpan c (bitsOf d 0 16) (1 + 4 * w) 1 →
      ∃ job : VencJob, job.xs = (c.rv r.va).toList ∧ job.dst = bitsOf d 0 16 ∧ job.w = w ∧ job.compact = true ∧
        job.qstip = bitOf d 22 ∧ job.qroll = bitsOf q 0 16 ∧ job.blk = (c.rs1 sA 2).toNat ∧ job.cnt = (c.rs1 sA 3).toNat ∧
        job.writeEnd = c.now + 15 ∧
        exec (.venc i r) s = CoreBecomes i s { c with vencs := c.vencs ++ [job], vecFree := c.now + 4 }) ∧
    (∀ (vd : BitVec 4) (sA : BitVec 5) (w : BitVec 3), sA.toNat % 2 = 0 →
      let a := bitsOf (c.rs sA).toNat 0 16
      let len := 4 + 4 * (w.toNat + 1)
      Span a len 4 → Free c [(a, len)] → c.clashV vd (c.now + 8) = false →
      let x := decodeBlock (w.toNat + 1) (readBlock (w.toNat + 1) false ((opened i s).dm n a len)) []
      exec (.vdec i vd sA w false false) s =
        CoreBecomes i s { Core.lanes c vd (fun k => x.1.getD k.val 0#32) 8 with fmtPend := c.fmtPend.add x.2 })

/-- Etch blocks are encoded, written and decoded (R198, R199). -/
def Obligations.BlocksEncodeAndDecode : Prop := Claims.EncodedBlockIsWritten ∧ Claims.EtchEncodeAndDecode

/-! ## The plane engine (R65 to R83, R93, R168 to R178) -/

/-- R168, R171, R174: MODE sets the mode and blocks issue for six cycles; TLDM loads a tile of 512 bytes that is ready 20 cycles later; TSW
exchanges the buffers. -/
def Sys2Proof.Claims.ModeTldmAndSwap : Prop :=
  ∀ (i : Issue) (s : State), Issues i 0 s →
    let c := issuer i s
    (∀ (w k : BitVec 3) (xb : BitVec 2), c.engFree ≤ c.now → 1 ≤ k.toNat → k.toNat ≤ 5 → xb ≠ 3#2 →
      (∀ g : Fin 8, (c.groups.get g).st = .opened ∨ (c.groups.get g).openIn c.now = true → (c.groups.get g).w = w.toNat + 1 ∧ (c.groups.get g).k = k.toNat) →
      exec (.mode i w k xb) s = CoreBecomes i s
        { c with mode := ⟨w.toNat + 1, k.toNat, xb.toNat⟩, engFree := c.now + 6, nextIssue := max c.nextIssue (c.now + 6) }) ∧
    (∀ (sA : BitVec 5) (layout : Bool),
      let a := (c.rs sA).toNat % 65536
      Span a 512 16 → Free c [(a, 512)] → c.outstandingAt c.now < 2 →
      ∃ ld tl, exec (.tldm i sA layout) s =
          CoreBecomes i s { c with nextTag := c.nextTag + 1, tiles := c.tiles ++ [ld], timeline := tl } ∧
        ld.tag = c.nextTag ∧ ld.served = true ∧ ld.readyAt = c.now + 20 ∧ ld.kind = .pairs layout ∧ ld.pc = c.pc ∧
        (∀ k, k < 16 → (⟨c.now + 1 + k, 4 * c.now, .cap c.nextTag (a + 32 * k) 32⟩ : Item) ∈ tl)) ∧
    (c.backReady = true → c.presenting ≤ c.now →
      exec (.tsw i) s = CoreBecomes i s { c with front := c.back, back := c.front, backReady := false })

/-- R169, R170, R314: a TLD that raises no fault queues the lines of its plain, wide or coded tile at the vault port (of a coded block the
header's line, which names the others); a line that it shares with the load ahead of it is not read twice. -/
def Sys2Proof.Claims.TileLoadQueues : Prop :=
  ∀ (i : Issue) (sA : BitVec 5) (src : BitVec 2) (tpos : BitVec 3) (s : State), Issues i 0 s →
    let c := issuer i s
    let n := i.core.toNat
    let off := (c.rs sA).toNat % 16777216
    let last := if src = 0#2 then off + 409 else if src = 1#2 then off + 2047 else codedEnd off ((opened i s).vault n off 12) - 1
    let lines := if src = 2#2 then [off / 32] else lineRange off last
    src ≠ 3#2 → tpos.toNat ≤ 4 → (src ≠ 1#2 → tpos = 0#3) → last < 16777216 → (src = 1#2 → off % 32 = 0) →
    c.vq.length < 8 → c.outstandingAt c.now < 2 →
    ((src = 1#2 ∨ ∀ x, c.sharing (src == 2#2) (off / 32) ≠ .served x) →
      ∃ ld req, exec (.tld i sA src tpos) s =
          CoreBecomes i s { c with nextTag := c.nextTag + 1, vq := c.vq ++ [req], tiles := c.tiles ++ [ld] } ∧
        req.kind = .tile c.nextTag ∧ ld.tag = c.nextTag ∧ ld.served = false ∧ ld.pc = c.pc ∧
        ld.kind = (if src = 0#2 then .quint off else if src = 1#2 then .wide off tpos.toNat else .coded off) ∧
        (req.lines.map VLine.line = lines ∨
          ∃ x, src ≠ 1#2 ∧ c.sharing (src == 2#2) (off / 32) = .queued x ∧ ld.sharedFrom = some x ∧
            req.lines.map VLine.line = lines.drop 1)) ∧
    (src ≠ 1#2 → ∀ x, c.sharing (src == 2#2) (off / 32) = .served x → (∀ u ∈ c.tiles, u.tag ≠ c.nextTag) →
      ∃ d ld, exec (.tld i sA src tpos) s = CoreBecomes i s d ∧ ld ∈ d.tiles ∧ ld.tag = c.nextTag ∧ ld.bytes = x.lastBytes)

/-- R68, R69, R172: the tile load that is ready first puts its tile into the empty back buffer; where the buffer is full and the
section in which it became ready is tight it raises TILE_ORDER, unless a bundle of its cycle may still swap; a trit-pair code 0b10 raises FMT_CODE; a core that a
fault stops keeps its front tile. -/
def Sys2Proof.Claims.ReadyTileGoesToBackBuffer : Prop :=
  ∀ (core : BitVec 12) (ld : TileLoad) (s : State),
    let n := core.toNat
    (s.core n).nextReady = some ld → (s.core n).bundleOpen = false → (∀ t, (s.core n).nextCycle = some t → ld.readyAt ≤ t) →
    let c := (settle n ld.readyAt s).core n
    let waits := (if ld.readyAt < c.sect.startFrame * 2048 then c.prevLoose else c.sect.loose) = true
    (∀ x media, finishTile c ld = some (x, media) → c.backReady = false →
      ∃ t, exec (.tileReady core) s = .next t ∧ (t.core n).back = some x ∧ (t.core n).backReady = true ∧
        (t.core n).front = c.front ∧ (t.core n).exec = c.exec ∧ (∀ u ∈ (t.core n).tiles, u.tag ≠ ld.tag)) ∧
    (c.backReady = true → ¬ waits → (s.core n).nextCycle ≠ some ld.readyAt → c.fault.code = 0 →
      ∃ t, exec (.tileReady core) s = .next t ∧ (t.core n).exec = .halted ∧ (t.core n).fault.code = 0x04 ∧
        (t.core n).fault.cyc = ld.readyAt ∧ (t.core n).front = c.front ∧ (t.core n).back = c.back) ∧
    (c.backReady = true → ¬ waits → (s.core n).nextCycle = some ld.readyAt →
      ∃ t, exec (.tileReady core) s = .next t ∧ (t.core n).exec = c.exec ∧ (t.core n).front = c.front ∧ (t.core n).back = c.back ∧
        (∀ u ∈ (t.core n).tiles, u.tag = ld.tag → u.due = true)) ∧
    (finishTile c ld = none → (c.backReady = false ∨ waits) → c.fault.code = 0 →
      ∃ t, exec (.tileReady core) s = .next t ∧ (t.core n).exec = .halted ∧ (t.core n).fault.code = 0x03 ∧
        (t.core n).fault.cyc = ld.readyAt ∧ (t.core n).backReady = c.backReady ∧ (t.core n).front = c.front) ∧
    (∀ x media, finishTile c ld = some (x, media) → c.backReady = true → waits →
      ∃ t, exec (.tileReady core) s = .next t ∧ (t.core n).exec = c.exec ∧ (t.core n).front = c.front ∧ (t.core n).back = c.back ∧
        (∀ u ∈ (t.core n).tiles, u.tag = ld.tag → u.due = true ∧ u.held = true))

/-- Tiles are fetched, reach the back buffer and are swapped (R169 to R174). -/
def Obligations.TilesLoadAndSwap : Prop := Claims.ModeTldmAndSwap ∧ Claims.TileLoadQueues ∧ Claims.ReadyTileGoesToBackBuffer

/-- R177, R178: XLD and CLD occupy the engine for 17 and 5 cycles; when they complete, a list that passes the checks of its format becomes
the table, and one that does not raises FMT_CODE and leaves the table. -/
def Sys2Proof.Claims.ListLoads : Prop :=
  (∀ (i : Issue) (sA : BitVec 5) (s : State), Issues i 0 s →
    let c := issuer i s
    let x := (c.rs sA).toNat
    let a := x % 65536
    c.engFree ≤ c.now →
    (Span a 520 8 → Free c [(a, 520)] →
      ∃ tl, exec (.xld i sA) s =
        CoreBecomes i s { c with nextTag := c.nextTag + 1, engFree := c.now + 17, timeline := tl
                                 xld := some ⟨c.nextTag, 0, c.now + 16, c.pc⟩ }) ∧
    (Span a 130 2 → Free c [(a, 130)] →
      ∃ tl, exec (.cld i sA) s =
        CoreBecomes i s { c with nextTag := c.nextTag + 1, engFree := c.now + 5, timeline := tl
                                 cld := some ⟨c.nextTag, if x / 65536 = 0 then 65536 else x / 65536, c.now + 4, c.pc⟩ })) ∧
  (∀ (core : BitVec 12) (j : ListLoad) (s : State),
    let n := core.toNat
    let c := (settle n j.doneCycle s).core n
    ((s.core n).xld = some j →
      ∃ t, exec (.xldComplete core) s = .next t ∧ (t.core n).xld = none ∧ (t.core n).ctab = c.ctab ∧
        (∀ es, readOvfList (c.cap j.tag) = some es → (t.core n).xtab = es ∧ (t.core n).exec = c.exec) ∧
        (readOvfList (c.cap j.tag) = none → (t.core n).xtab = c.xtab ∧ (t.core n).exec = .halted ∧
          (c.fault.code = 0 → (t.core n).fault.code = 0x03 ∧ (t.core n).fault.bundle = j.pc))) ∧
    ((s.core n).cld = some j →
      ∃ t, exec (.cldComplete core) s = .next t ∧ (t.core n).cld = none ∧ (t.core n).xtab = c.xtab ∧
        (∀ cs, readChanList (c.cap j.tag) j.channels = some cs → (t.core n).ctab = cs ∧ (t.core n).exec = c.exec) ∧
        (readChanList (c.cap j.tag) j.channels = none → (t.core n).ctab = c.ctab ∧ (t.core n).exec = .halted ∧
          (c.fault.code = 0 → (t.core n).fault.code = 0x03 ∧ (t.core n).fault.bundle = j.pc))))

/-- R44 to R47: an overflow list read by XLD holds at most 64 entries, in strictly ascending order of block and lane; a channel list holds
at most 64 channels, strictly ascending and each below the channel count. -/
def Sys2Proof.Claims.ListFormats : Prop :=
  (∀ (bs : List Byte) (es : List OvfEntry), readOvfList bs = some es →
    es.length = ovfCount bs ∧ es.length ≤ 64 ∧ (es.map OvfEntry.key).Pairwise (· < ·)) ∧
  (∀ (bs : List Byte) (channels : Nat) (cs : List Nat), readChanList bs channels = some cs →
    cs.length ≤ 64 ∧ cs.Pairwise (· < ·) ∧ ∀ c ∈ cs, c < channels)

/-- R72, R78, R175: a PLN that raises no fault, of any form, presents its vectors against the front tile (with SW, the back tile, which it
makes the front tile first): the engine is occupied for the number of cycles of R78, the group has one more PLN in its budget, the address
register has advanced once per vector, and row k of the job is the group's first row plus ROWOFF plus k, written 5 cycles after it is
presented (6 above w = 4), with the tables of its issue. -/
def Sys2Proof.Claims.PlnPresents : Prop :=
  ∀ (i : Issue) (g aN : BitVec 3) (sX : BitVec 5) (m1 rowOff : BitVec 6) (triple sw cb : Bool) (s : State), Issues i 0 s →
    let c := issuer i s
    let m := m1.toNat + 1
    let gr := c.groups.get g.toFin
    let ta := takeAddrs m (c.ra aN)
    let xbe := xbCount c.mode.xb cb
    let len := if cb then 1 + 4 * c.mode.w else 4 + 4 * c.mode.w
    c.engFree ≤ c.now → (cb = true → sX = 0#5) → (cb = false → sX.toNat % 2 = 0) → (triple = true → c.mode.k ≠ 1) →
    (∀ a ∈ ta.1, Span a len (if cb then 1 else 4)) → Free c (ta.1.map (fun a => (a, len))) → gr.st = .opened → gr.openAt ≤ c.now →
    rowOff.toNat + m ≤ gr.rowCount → gr.nb < gr.n → gr.busyUntil ≤ c.now → (sw = true → c.backReady = true ∧ c.presenting ≤ c.now) →
    ∀ tile, (if sw then c.back else c.front) = some tile → c.bundleAddr.contains aN.toNat = false →
    ∃ d job, exec (.pln i g aN sX m1 rowOff triple sw cb) s = CoreBecomes i s d ∧
      d.plns = c.plns ++ [job] ∧ job.tile = tile ∧ job.g = g.toNat ∧ job.triple = triple ∧ job.compact = cb ∧ job.vecs.length = m ∧
      job.ctab = c.ctab ∧ job.xtab = c.xtab ∧
      (∀ k v, job.vecs[k]? = some v → v.row = gr.rowBase + rowOff.toNat + k ∧
        v.writeEnd = c.now + presentAt c.mode.w xbe k + (if c.mode.w ≤ 4 then 5 else 6)) ∧
      d.engFree = c.now + plnCycles c.mode.w m xbe ∧ d.ra aN = ta.2 ∧ (∀ r, r ≠ aN → d.ra r = c.ra r) ∧
      d.groups.get g.toFin = { gr with nb := gr.nb + 1 } ∧ (∀ h : Fin 8, h ≠ g.toFin → d.groups.get h = c.groups.get h) ∧
      d.front = (if sw then c.back else c.front) ∧ d.back = (if sw then c.front else c.back) ∧
      d.backReady = (if sw then false else c.backReady) ∧ d.s = c.s ∧ d.v = c.v ∧ d.acc = c.acc

/-- R66, R73 to R77, R93: the next vector's row is written from its block, its exceptions and the tile: a poison block or tile marks the
row, clipped exceptions count OVF, and no other group's exponent changes; the vector leaves its job. -/
def Sys2Proof.Claims.PlnRowIsWritten : Prop :=
  ∀ (core : BitVec 12) (j : PlnJob) (v : PlnVec) (rest : List PlnJob) (s : State),
    let n := core.toNat
    popVec (s.core n).plns = some (j, v, rest) →
    let c := (settle n v.writeEnd s).core n
    let b := readBlock j.w j.compact (c.cap v.tag)
    let es := if j.compact then [] else j.xtab.filter (fun e => e.block == v.blk)
    let wk := vecWork j.tile j.w j.xb j.compact j.jBlk j.ctab es b
    ∃ t, exec (.plnRowWrite core) s = .next t ∧ (t.core n).plns = rest ∧ t.mem = (settle n v.writeEnd s).mem ∧ t.regs = s.regs ∧
      (∀ g : Fin 8, g.val ≠ j.g % 8 → (t.core n).groups.get g = c.groups.get g) ∧
      (wk.mark = true → ((t.core n).accRow v.row).poison = true) ∧
      (wk.mark = false → ((t.core n).accRow v.row).poison = (c.accRow v.row).poison) ∧
      (t.core n).plnXcpCnt = c.plnXcpCnt + wk.applied ∧ (t.core n).fmtPend.ovf = c.fmtPend.ovf + wk.clipped ∧
      (t.core n).s = c.s ∧ (t.core n).v = c.v

/-- The plane engine takes blocks and writes rows (R175, R176). Completion, under these conditions on state and operands alone: PLN, PLN_ROW_WRITE. -/
def Obligations.PlanePresents : Prop := Claims.PlnPresents ∧ Claims.PlnRowIsWritten

/-- R120, R199, R200: SLD puts 16 bytes of data memory into a seed entry; DRAW writes lane k the roll value of the counter base plus k (or
plus the lane of vb), of the team seed or of a loaded seed, after 12 cycles. -/
def Sys2Proof.Claims.DiceBank : Prop :=
  ∀ (i : Issue) (e : BitVec 6) (sA : BitVec 5) (s : State), Issues i 0 s →
    let c := issuer i s
    let n := i.core.toNat
    c.diceFree ≤ c.now →
    (let a := (c.rs sA).toNat % 65536
     Span a 16 16 → Free c [(a, 16)] →
      exec (.sld i e sA) s = CoreBecomes i s
        { c with seeds := put c.seeds e.toNat ((opened i s).dmNat n a 16), diceFree := c.now + 1 }) ∧
    (∀ (seq idx : Bool) (vb vd : BitVec 4), sA.toNat % 2 = 0 → c.clashV vd (c.now + 12) = false →
      (seq = false → e = 0#6) → (idx = false → vb = 0#4) →
      ∀ seed, (if seq then find? c.seeds e.toNat else some c.teamSeed) = some seed →
      let base := (c.rs sA).toNat + (c.rs1 sA 1).toNat % 65536 * 4294967296
      let roll := (c.rs1 sA 1).toNat / 65536
      exec (.draw i e seq idx vb sA vd) s = CoreBecomes i s
        { c.retV vd (Vector.ofFn (fun k : Fin 32 =>
            BitVec.ofNat 32 (rollValue seed c.turn c.rank roll (base + if idx then ((c.rv vb).get k).toNat else k.val)))) 12 with
          diceFree := c.now + 4, drawCnt := c.drawCnt + 32 })

/-- Overflow and channel lists, seeds and rolls (R177 to R179, R187 to R190). Completion, under these conditions on state and operands alone: XLD,
CLD, SLD, DRAW, XLD_COMPLETE, CLD_COMPLETE. -/
def Obligations.ListsAndDice : Prop := Claims.ListLoads ∧ Claims.ListFormats ∧ Claims.DiceBank

/-! ## Accumulation groups and the epilogue (R85 to R107, R179 to R190) -/

/-- R88, R89, R179: a GOPN that raises no fault opens the group with the fields of its descriptor and the mode's w and k, empty, and its
rows' masked columns at zero; the rows of other groups and every register are as before. -/
def Sys2Proof.Claims.GroupOpens : Prop :=
  ∀ (i : Issue) (g : BitVec 3) (sA : BitVec 5) (s : State), Issues i 0 s →
    let c := issuer i s
    let x := (c.rs sA).toNat
    let y := (c.rs1 sA 1).toNat
    let mask := (c.rs1 sA 2).toNat + (c.rs1 sA 3).toNat * 4294967296
    let base := bitsOf x 0 6
    let count := bitsOf x 6 7
    let ra := y / 65536
    let len := 16 + 6 * count * popcount 64 mask
    c.grpFree ≤ c.now → sA.toNat % 4 = 0 → mask ≠ 0 → ra % 16 = 0 → ra + len ≤ 65536 → c.resTop ≤ ra →
    bitsOf x 17 8 + 1 ≤ nMax c.mode.w c.mode.k (bitsOf x 13 4) → (c.groups.get g.toFin).st = .closed → count ≠ 0 → base + count ≤ 64 →
    c.rowsTaken g.toNat base count = false →
    let new : Group :=
      { st := .opened, rowBase := base, rowCount := count, mask := mask, guard := bitsOf x 13 4, n := bitsOf x 17 8 + 1
        stipple := bitOf x 25, roll := y % 65536, recAddr := ra, w := c.mode.w, k := c.mode.k
        openAt := c.now + 2 }
    ∃ acc, exec (.gopn i g sA) s =
        CoreBecomes i s { c with groups := c.groups.set g.toNat new g.isLt, grpFree := c.now + 2, acc := acc } ∧
      (∀ r, base ≤ r → r < base + count → (look {} acc r).poison = false ∧ (look {} acc r).owed = 0 ∧
        ∀ k, k < 64 → bitOf mask k = true → (look {} acc r).cols[k]? = some 0) ∧
      (∀ r, (r < base ∨ base + count ≤ r) → look {} acc r = c.accRow r)

/-- R98, R100, R180 to R182: GSPL leaves the group's rows at zero and the group suspended where FREE is set, and its record is written 4 + 3
cycles a row later; GRES RESET opens a suspended group at zero and keeps the record; GRES RELOAD opens it with the record's sums and no
record held; GCLS closes a group. -/
def Sys2Proof.Claims.GroupsSpillReloadClose : Prop :=
  ∀ (i : Issue) (g : BitVec 3) (s : State), Issues i 0 s →
    let c := issuer i s
    let gr := c.groups.get g.toFin
    let held := if gr.recHeld then [(gr.recAddr, 16 + 6 * gr.rowCount * popcount 64 gr.mask)] else []
    let others := fun (d : Core) =>
      (∀ h : Fin 8, h ≠ g.toFin → d.groups.get h = c.groups.get h) ∧
      (∀ r, (r < gr.rowBase ∨ gr.rowBase + gr.rowCount ≤ r) → look {} d.acc r = c.accRow r) ∧ d.s = c.s ∧ d.v = c.v ∧ d.a = c.a
    c.grpFree ≤ c.now →
    (∀ free : Bool, gr.st = .opened → c.plnPending g.toNat = false → Free c held →
      ∃ d out, exec (.gspl i g free) s = CoreBecomes i s d ∧ others d ∧
        d.grpFree = c.now + 4 + 3 * gr.rowCount ∧
        (d.groups.get g.toFin).st = (if free then .suspended else .opened) ∧
        (d.groups.get g.toFin).empty = true ∧ (d.groups.get g.toFin).nb = 0 ∧
        (d.groups.get g.toFin).recHeld = (!(gr.empty && !gr.recHeld) || c.marks gr != 0) ∧
        d.timeline = insertItem ⟨c.now + 4 + 3 * gr.rowCount, 4 * c.now, .dmem false gr.recAddr out⟩ c.timeline) ∧
    (gr.st = .suspended → c.rowsTaken g.toNat gr.rowBase gr.rowCount = false → gr.w = c.mode.w → gr.k = c.mode.k →
      (∃ acc, exec (.gresReset i g) s =
          CoreBecomes i s { c with groups := c.groups.set g.toNat { gr with st := .opened, empty := true, nb := 0, openAt := c.now + 2 } g.isLt
                                   grpFree := c.now + 2, acc := acc } ∧
        (∀ r, gr.rowBase ≤ r → r < gr.rowBase + gr.rowCount → (look {} acc r).poison = false ∧
          ∀ k, k < 64 → bitOf gr.mask k = true → (look {} acc r).cols[k]? = some 0) ∧
        (∀ r, (r < gr.rowBase ∨ gr.rowBase + gr.rowCount ≤ r) → look {} acc r = c.accRow r)) ∧
      (c.plnPending g.toNat = false → Free c held →
        ∃ d, exec (.gresReload i g) s = CoreBecomes i s d ∧ others d ∧ d.grpFree = c.now + 4 + 3 * gr.rowCount ∧
          (d.groups.get g.toFin).st = .opened ∧ (d.groups.get g.toFin).recHeld = false ∧
          (d.groups.get g.toFin).empty = !gr.recHeld ∧ (d.groups.get g.toFin).nb = 0)) ∧
    (gr.st ≠ .closed → c.plnPending g.toNat = false →
      exec (.gcls i g) s =
        CoreBecomes i s { c with groups := c.groups.set g.toNat { gr with st := .closed } g.isLt, grpFree := c.now + 1 })

/-- R183 to R185, Table ACC-1: an EPI that stores FP32 with no fused operand, side table or bias occupies the vector unit and the group port
for 6 cycles and 6 (8 with an activation) a row; each row write stores the masked columns alone, visible in the next cycle and in the place
of the EPI in the issue order (R139), and the last one closes the group where CLOSE is set. -/
def Sys2Proof.Claims.EpilogueRuns : Prop :=
  (∀ (i : Issue) (w : EpiWord) (s : State), Issues i 1 s →
    let c := issuer i s
    let n := i.core.toNat
    let da := (c.rs w.sd).toNat % 65536
    let d := epiDescOf ((opened i s).dm n da 64)
    let gr := c.groups.get w.g.toFin
    w.op = 0#2 → w.zfmt = 0#2 → w.side = false → w.bias = false → w.store = 0#2 → w.qstip = false → w.reserved = 0#3 →
    w.act.toNat < 7 → c.vecFree ≤ c.now → c.grpFree ≤ c.now → Span da 64 16 → d.reservedZero = true →
    (∀ r, r < gr.rowCount → StoreSpan c (d.outAddr + r * d.outStride) 256 4) → Span d.scaleAddr 256 4 →
    Free c ((da, 64) :: (d.scaleAddr, 256) ::
      (if gr.recHeld then [(gr.recAddr, 16 + 6 * gr.rowCount * popcount 64 gr.mask)] else [])) →
    gr.st = .opened → c.plnPending w.g.toNat = false →
    let cost := if w.act = 0#4 then 6 else 8
    let done := c.now + 6 + gr.rowCount * cost
    exec (.epi i w) s = CoreBecomes i s
      { c with groups := c.groups.set w.g.toNat { gr with busyUntil := done } w.g.isLt, vecFree := done, grpFree := done
               epi := some { word := w, desc := d, rowCost := cost, issued := c.now, nextRow := 0 } }) ∧
  (∀ (core : BitVec 12) (j : EpiJob) (s : State),
    let n := core.toNat
    (s.core n).epi = some j →
    let cyc := j.issued + 5 + (j.nextRow + 1) * j.rowCost
    let s0 := settle n cyc s
    let g := (s0.core n).groups.get j.word.g.toFin
    let written := fun (q : Nat) (bs : List Byte) =>
      (⟨cyc + 1, 4 * j.issued + 1, .dmem false (j.desc.outAddr + j.nextRow * j.desc.outStride + 4 * q) bs⟩ : Item)
    ∃ t, exec (.epiRowWrite core) s = .next t ∧ t.regs = s.regs ∧ t.mem = s0.mem ∧
      ((t.core n).groups.get j.word.g.toFin).rseq = g.rseq + 1 ∧
      (j.nextRow + 1 < g.rowCount → (t.core n).epi = some { j with nextRow := j.nextRow + 1 } ∧
        ((t.core n).groups.get j.word.g.toFin).st = g.st) ∧
      (g.rowCount ≤ j.nextRow + 1 → (t.core n).epi = none ∧
        ((t.core n).groups.get j.word.g.toFin).st = if j.word.close then .closed else g.st) ∧
      (∀ it ∈ (s0.core n).timeline, it ∈ (t.core n).timeline) ∧
      (j.word.store = 0#2 →
        (∀ q, q < 64 → bitOf g.mask q = true → ∃ bs, bs.length = 4 ∧ written q bs ∈ (t.core n).timeline) ∧
        (∀ it ∈ (t.core n).timeline, it ∈ (s0.core n).timeline ∨
          ∃ q bs, q < 64 ∧ bitOf g.mask q = true ∧ bs.length = 4 ∧ it = written q bs)))

/-- Groups open, spill, reload and close, and the epilogue runs (R180 to R186). Completion, under these conditions on state and operands alone:
GOPN, GSPL, GRES_RESET, GRES_RELOAD, GCLS, EPI, EPI_ROW_WRITE. -/
def Obligations.GroupsAndEpilogue : Prop := Claims.GroupOpens ∧ Claims.GroupsSpillReloadClose ∧ Claims.EpilogueRuns

/-! ## The vault port and the walker (R140, R152, R217 to R219, R235 to R237, R264) -/

namespace Sys2Proof.Claims

/-- The core after its request joined the vault port's queue. -/
def Core.requests (c : Core) (kind : VKind) (ls : List VLine) (earliest : Nat) : Core :=
  { c with vq := c.vq ++ [⟨kind, ls, earliest, 4 * c.now + 3⟩] }

/-- Consecutive vault lines from byte `off`, each to or from 32 bytes of memory from `dm` on. -/
def linesFrom (off dm n : Nat) : List VLine := (List.range n).map (fun k => ⟨off / 32 + k, [(0, dm + 32 * k, 32)]⟩)

end Sys2Proof.Claims

/-- R140, R217, R152, R219, R236: VLD, VST, OVLD and PWK in vault mode put one request at the end of the vault port's queue, where it holds
fewer than eight. -/
def Sys2Proof.Claims.VaultRequestsQueue : Prop :=
  ∀ (i : Issue) (sA : BitVec 5) (s : State), Issues i 3 s →
    let c := issuer i s
    let n := i.core.toNat
    let off := (c.rs sA).toNat % 16777216
    let x := (c.rs1 sA 1).toNat
    let dm := x % 65536
    let lines := bitsOf x 16 8 + 1
    sA.toNat % 2 = 0 → c.vq.length < 8 →
    (off % 32 = 0 → off + 32 * lines ≤ 16777216 → StoreSpan c dm (32 * lines) 32 →
      exec (.vld i sA) s = CoreBecomes i s (Core.requests c (.load false) (linesFrom off dm lines) c.now)) ∧
    (off % 32 = 0 → off + 32 * lines ≤ 16777216 → Span dm (32 * lines) 32 → Free c [(dm, 32 * lines)] →
      (∀ a ∈ ((opened i s).teamRec n).loadArea, a.1 + a.2 ≤ off ∨ off + 32 * lines ≤ a.1) →
      exec (.vst i sA) s = CoreBecomes i s (Core.requests c .store (linesFrom off dm lines) c.now)) ∧
    (let k := x % 1024
     let bank := 1 - c.pc / 512
     c.pc < 1024 → 2 ≤ k → k ≤ 512 → k % 2 = 0 → off % 32 = 0 → off + 16 * k ≤ 16777216 → c.ovldInto bank = false →
      exec (.ovld i sA) s = CoreBecomes i s
        { Core.requests c .overlay (linesFrom off (bank * 8192) (k / 2)) c.now with
          ovlA := if bank = 0 then x / 65536 else c.ovlA
          ovlB := if bank = 0 then c.ovlB else x / 65536 }) ∧
    (let p := pwkArgs c sA
     let e := mapEntryOf ((opened i s).dm n p.map 16)
     let f := c.pwkFmt.toNat
     let ls := plateLines f e.kvw e.log2n p.part p.t0 p.ntok e.voff p.dm
     let len := runBytes f e.kvw p.part p.ntok
     ∀ write : Bool, c.walkFree ≤ c.now → 1 ≤ p.ntok → p.ntok ≤ 4096 → Span p.map 16 16 →
      Free c ((p.map, 16) :: (if write then [(p.dm, len)] else [])) → e.wher = 1 → e.resvd = false →
      p.t0 + p.ntok ≤ 2 ^ e.log2n → p.part ≤ fmtParts f → (if write then Span p.dm len 4 else StoreSpan c p.dm len 4) → e.voff % 32 = 0 →
      (∀ l ∈ ls, 32 * l.line + 32 ≤ 16777216) →
      (write = true → ∀ l ∈ ls, ∀ a ∈ ((opened i s).teamRec n).loadArea, a.1 + a.2 ≤ 32 * l.line ∨ 32 * l.line + 32 ≤ a.1) →
      exec (.pwk i 0#3 write sA) s = CoreBecomes i s
        { Core.requests c (if write then .store else .load true) ls (c.now + 2) with
          walkStatus := 1 + (if write then 8 else 0) + p.part * 16, walkFree := c.now + 2
          pwkVltCnt := c.pwkVltCnt + 1, pwkTokCnt := c.pwkTokCnt + p.ntok })

/-- R140, R264, R270, R272: the port serves the next line of its first request, in no cycle of the refresh window: a load's bytes are visible
in data memory three cycles later, corrected where one symbol of the line has failed; a store of a whole line writes the line and clears
its poison; a line that cannot be read counts as uncorrectable. Here the background port wrote no line in that cycle. -/
def Sys2Proof.Claims.VaultLineIsServed : Prop :=
  ∀ (core : BitVec 12) (r : VReq) (l : VLine) (ls : List VLine) (rest : List VReq) (err : LineErr) (s : State),
    let n := core.toNat
    let c := s.core n
    let cyc := portCycle (max c.portNext r.earliest)
    let x := s.strike n l.line err
    let lands := fun (t : State) (a : Nat) (bs : List Byte) =>
      (t.core n).timeline = insertItem ⟨cyc + 3, r.ord, .dmem true a bs⟩ c.timeline
    c.vq = r :: rest → r.lines = l :: ls → s.bgWroteAt n l.line cyc = none →
    64 ≤ cyc % 2048 ∧ max c.portNext r.earliest ≤ cyc ∧
    ∃ t, exec (.vaultLineServed core err) s = .next t ∧ (t.core n).portNext = cyc + 1 ∧
      (t.core n).vltLineCnt = c.vltLineCnt + 1 ∧ (∀ m, m ≠ n → t.core m = s.core m) ∧
      (∀ w a, r.kind = .load w → l.spans = [(0, a, 32)] → t.mem = s.mem ∧
        (t.core n).vq = (if ls = [] then rest else { r with lines := ls } :: rest) ∧
        (x.poisoned n l.line = false → (x.vread n l.line).1 = .clean → t.regs = s.regs ∧ lands t a (x.vread n l.line).2) ∧
        (s.storedErr n l.line = ([], 0#3) → s.poisoned n l.line = false → ∀ k b, err = ⟨[(k, b)], 0#3⟩ → b ≠ 0#8 →
          lands t a (s.mem.read (vaultBase n + 32 * l.line) 32) ∧ (t.core n).vltCe = c.vltCe + 1) ∧
        (x.poisoned n l.line = true ∨ (x.vread n l.line).1 = .uncorrectable →
          (t.core n).vltUe = c.vltUe + 1 ∧ l.line ∈ (t.core n).ueLines)) ∧
      (∀ a, r.kind = .store → l.spans = [(0, a, 32)] → s.mem.wf = true →
        t.mem.read (vaultBase n + 32 * l.line) 32 = (settle n cyc s).dm n a 32 ∧ t.poisoned n l.line = false)

/-- Vault requests queue and their lines are served (R217 to R219, R256). Completion, under these conditions on state and operands alone: VLD, VST,
VAULT_LINE_SERVED, OVLD, PWK. -/
def Obligations.VaultRequestsAndLines : Prop := Claims.VaultRequestsQueue ∧ Claims.VaultLineIsServed

/-! ## The static mesh (R228 to R233, R144) -/

/-- R229: a MSND that raises no fault takes the mesh port for its beats; beat j is written at the end of cycle c + 2 + 2h + j at the core
that DX and DY name, h hops away. -/
def Sys2Proof.Claims.MeshSend : Prop :=
  ∀ (i : Issue) (sA : BitVec 5) (s : State), Issues i 3 s →
    let c := issuer i s
    let n := i.core.toNat
    let tm := (opened i s).teamRec n
    let a := meshArgs c sA
    let dx := sext a.b0 8
    let dy := sext a.b1 8
    let tx : Int := (teamX tm n : Nat) + dx
    let ty : Int := (teamY tm n : Nat) + dy
    c.meshFree ≤ c.now → sA.toNat % 2 = 0 → Span a.src (32 * a.beats) 32 → StoreSpan c a.dst (32 * a.beats) 32 →
    c.sect.loose = false → 0 ≤ tx → tx < tm.width → 0 ≤ ty → ty < tm.height → (dx ≠ 0 ∨ dy ≠ 0) →
    ∃ t, exec (.msnd i sA) s = .next t ∧ t.mem = (opened i s).mem ∧ (t.core n).meshFree = c.now + a.beats ∧
      (t.core n).meshBeatCnt = c.meshBeatCnt + a.beats ∧
      t.mesh.beats.length = (opened i s).mesh.beats.length + a.beats ∧
      ∀ j, j < a.beats → ∃ b ∈ t.mesh.beats, b.src = n ∧ b.dst = coreAt tm tx.toNat ty.toNat ∧
        b.kind = .write (a.dst + 32 * j) ∧ b.arrive = c.now + 2 + 2 * (dx.natAbs + dy.natAbs) + j ∧ b.tag = c.sect.startFrame

/-- R231: a MBC that raises no fault sends each beat to every other core of the row or column from LO to HI, h hops away at the end of cycle
c + 2 + 2h + j. -/
def Sys2Proof.Claims.MeshBroadcast : Prop :=
  ∀ (i : Issue) (sA : BitVec 5) (axis : Bool) (s : State), Issues i 3 s →
    let c := issuer i s
    let n := i.core.toNat
    let tm := (opened i s).teamRec n
    let a := meshArgs c sA
    let p := if axis then teamY tm n else teamX tm n
    let step := if axis then 64 else 1
    c.meshFree ≤ c.now → sA.toNat % 2 = 0 → Span a.src (32 * a.beats) 32 → StoreSpan c a.dst (32 * a.beats) 32 →
    c.sect.loose = false → a.b0 ≤ p → p ≤ a.b1 → a.b1 < (if axis then tm.height else tm.width) → (p - a.b0) * step ≤ n →
    ∃ t, exec (.mbc i sA axis) s = .next t ∧ t.mem = (opened i s).mem ∧ (t.core n).meshFree = c.now + a.beats ∧
      ∀ j q, j < a.beats → a.b0 ≤ q → q ≤ a.b1 → q ≠ p →
        ∃ b ∈ t.mesh.beats, b.src = n ∧ b.dst = (if p < q then n + (q - p) * step else n - (p - q) * step) ∧
          b.kind = .write (a.dst + 32 * j) ∧ b.arrive = c.now + 2 + 2 * (if p < q then q - p else p - q) + j

/-- R232: the first core of a MRED's run sends its beats as partials to the next core; every other core of the run waits for partials. -/
def Sys2Proof.Claims.MeshReduce : Prop :=
  ∀ (i : Issue) (sA : BitVec 5) (axis fmt : Bool) (s : State), Issues i 3 s →
    let c := issuer i s
    let n := i.core.toNat
    let tm := (opened i s).teamRec n
    let a := meshArgs c sA
    let p := if axis then teamY tm n else teamX tm n
    c.meshFree ≤ c.now → sA.toNat % 2 = 0 → Span a.src (32 * a.beats) 32 → StoreSpan c a.dst (32 * a.beats) 32 →
    c.sect.loose = false → a.b0 < a.b1 → a.b0 ≤ p → p ≤ a.b1 → a.b1 < (if axis then tm.height else tm.width) →
    ∃ t, exec (.mred i sA axis fmt) s = .next t ∧ t.mem = (opened i s).mem ∧ (t.core n).meshFree = c.now + a.beats ∧
      (p = a.b0 → t.mesh.reds = (opened i s).mesh.reds ∧
        ∀ j, j < a.beats → ∃ b ∈ t.mesh.beats, b.src = n ∧ b.dst = (if axis then n + 64 else n + 1) ∧
          b.kind = .partialSum a.dst a.b0 a.b1 j axis (!fmt)) ∧
      (p ≠ a.b0 → t.mesh.beats = (opened i s).mesh.beats ∧
        ∃ r, t.mesh.reds = (opened i s).mesh.reds ++ [r] ∧ r.core = n ∧ r.lo = a.b0 ∧ r.hi = a.b1 ∧ r.beats = a.beats ∧ r.dst = a.dst ∧
          r.got = [])

/-- R229, R144, R154: the next beat that reaches a core is written at the end of its arrival cycle where both sections started in the same
frame; otherwise it is dropped and the core raises MESH_SYNC; a core that has stopped takes none. -/
def Sys2Proof.Claims.MeshBeatArrives : Prop :=
  ∀ (core : BitVec 12) (b : Beat) (a : Nat) (s s1 : State),
    let n := core.toNat
    nextBeat s.mesh.beats.length n s = (s1, some b) → b.kind = .write a →
    let s2 := settle b.src (b.issued + 1 + b.capOff / 32) { s1 with mesh := s1.mesh.remove b }
    let c := s2.core n
    let data := (b.data).getD ((((s2.core b.src).cap b.capTag).drop b.capOff).take 32)
    (c.exec = .issuing → c.sect.startFrame = b.tag →
      ∃ t, exec (.meshBeatArrival core) s = .next t ∧ t.mem = s2.mem ∧ t.mesh = s1.mesh.remove b ∧
        (t.core n).timeline = insertItem ⟨b.arrive + 1, 4 * b.arrive + 4, .dmem false a data⟩ c.timeline) ∧
    (c.exec = .issuing → c.sect.startFrame ≠ b.tag → c.fault.code = 0 →
      ∃ t, exec (.meshBeatArrival core) s = .next t ∧ t.mesh = s1.mesh.remove b ∧ (t.core n).exec = .halted ∧
        (t.core n).fault.code = 0x14 ∧ (t.core n).timeline = c.timeline ∧ (t.core n).syncDrop = true) ∧
    (c.exec = .halted → exec (.meshBeatArrival core) s = .next s2)

/-- The static mesh sends, broadcasts, reduces and delivers (R228 to R234). Completion, under these conditions on state and operands alone: MSND,
MBC, MRED, MESH_BEAT_ARRIVAL. -/
def Obligations.MeshTransfers : Prop := Claims.MeshSend ∧ Claims.MeshBroadcast ∧ Claims.MeshReduce ∧ Claims.MeshBeatArrives

/-! ## DMA queues and coded tensors (R222 to R226, R237, R324 to R329) -/

namespace Sys2Proof.Claims

/-- The descriptor that a DQP finds raises none of its fault conditions. -/
def GoodDescriptor (i : Issue) (q : BitVec 3) (sA : BitVec 5) (s : State) : Prop :=
  let c := issuer i s
  let a := (c.rs sA).toNat % 65536
  let w := descWord ((opened i s).dm i.core.toNat a 32)
  Span a 32 32 ∧ Free c [(a, 32)] ∧ w.resvd = false ∧ (w.kind = 2 ∨ w.kind < 2 ∧ w.first = 0 ∧ w.blocks = 0) ∧
    w.gaddr % 32 = 0 ∧ bitsOf w.gaddr 48 4 = 0 ∧ (if w.kind = 1 then Span w.dm (32 * w.lines) 32 else StoreSpan c w.dm (32 * w.lines) 32) ∧
    ((c.dq.get q.toFin).descs.filter (fun d => !d.done)).length < 64 ∧ (c.dq.get q.toFin).posted ≠ 4294967295

end Sys2Proof.Claims

/-- R222, R223: a DQP (GET, PUT or BDEC by its descriptor's KIND) posts its descriptor behind the queue's others and counts it; the
transactions of another device's memory, and the lines of this device's vaults, start at once; nothing else changes where the memory is
this device's GDDR. -/
def Sys2Proof.Claims.DescriptorsPost : Prop :=
  ∀ (i : Issue) (q : BitVec 3) (sA : BitVec 5) (s : State), Issues i 3 s → GoodDescriptor i q sA s →
    let c := issuer i s
    let n := i.core.toNat
    let w := descWord ((opened i s).dm i.core.toNat ((c.rs sA).toNat % 65536) 32)
    let x := c.dq.get q.toFin
    ∃ d : DmaDesc, d.idx = x.posted ∧ d.kind = w.kind ∧ d.cls = w.cls ∧ d.dmAddr = w.dm ∧ d.bytes = 32 * w.lines ∧ d.gaddr = w.gaddr ∧
      d.first = w.first ∧ d.blocks = w.blocks ∧ d.done = false ∧ d.issued = (opened i s).startsNow d ∧
      (w.kind = 2 ∨ (bitsOf w.gaddr 52 12 = (opened i s).devId ∧ inGddr (bitsOf w.gaddr 0 48) = true) → d.issued = false) ∧
      let c' := { c with dq := c.dq.set q.toNat { x with posted := x.posted + 1, descs := x.descs ++ [d] } q.isLt }
      let posted : Host.Outcome State Fault Refusal :=
        if d.issued then .next (slotEnds i (((opened i s).setCore n c').startDesc n q.toNat d)) else CoreBecomes i s c'
      (w.kind = 0 → exec (.get i q sA) s = posted) ∧ (w.kind = 1 → exec (.put i q sA) s = posted) ∧
        (w.kind = 2 → exec (.bdec i q sA) s = posted)

/-- R237: PWK.S posts one GET or PUT against the plate's home copy. -/
def Sys2Proof.Claims.StreamedWalkPosts : Prop :=
  ∀ (i : Issue) (q : BitVec 3) (write : Bool) (sA : BitVec 5) (s : State), Issues i 3 s →
    let c := issuer i s
    let n := i.core.toNat
    let p := pwkArgs c sA
    let e := mapEntryOf ((opened i s).dm n p.map 16)
    let f := c.pwkFmt.toNat
    let len := runBytes f e.kvw p.part p.ntok
    let x := c.dq.get q.toFin
    c.walkFree ≤ c.now → (x.descs.filter (fun d => !d.done)).length < 64 → sA.toNat % 2 = 0 → 1 ≤ p.ntok → p.ntok ≤ 4096 →
    Span p.map 16 16 → Free c [(p.map, 16)] → (e.wher = 1 ∨ e.wher = 2) → e.resvd = false → p.t0 + p.ntok ≤ 2 ^ e.log2n →
    p.part ≤ fmtParts f → (if write then Span p.dm len 4 else StoreSpan c p.dm len 4) → x.posted ≠ 4294967295 →
    ∃ d : DmaDesc, exec (.pwkS i q write sA) s = CoreBecomes i s
        { c with dq := c.dq.set q.toNat { x with posted := x.posted + 1, descs := x.descs ++ [d] } q.isLt
                 walkStatus := e.wher + 4 + (if write then 8 else 0) + p.part * 16, walkFree := c.now + 2
                 pwkStrCnt := c.pwkStrCnt + 1, pwkTokCnt := c.pwkTokCnt + p.ntok } ∧
      d.idx = x.posted ∧ d.kind = (if write then 1 else 0) ∧ d.dmAddr = p.dm ∧ d.bytes = len ∧ d.gaddr = e.gaddr ∧ d.done = false ∧
      d.plate = some ⟨e.kvw, e.log2n, p.part, p.t0, p.ntok⟩

/-- DMA descriptors and streamed walks are posted (R222 to R226, R235). Completion, under these conditions on state and operands alone: GET, PUT,
BDEC, PWK_S. -/
def Obligations.DescriptorsAndWalks : Prop := Claims.DescriptorsPost ∧ Claims.StreamedWalkPosts

/-- No GDDR sector is poisoned, struck by an error, or accessed ahead. -/
def Sys2Proof.Claims.SoundGddr (s : State) : Prop := s.gpoison = [] ∧ s.gerr = [] ∧ s.gword = [] ∧ s.gacc = []

/-- R224, R225: a GET of this device's GDDR that the checks allow writes the bytes into data memory and its queue's DONE passes every
descriptor done; one that fails records its status with the lowest posting index and leaves undefined bytes. A GET of a vault ends with
what the background port has read for it. -/
def Sys2Proof.Claims.LocalGetCompletes : Prop :=
  ∀ (core : BitVec 12) (q : BitVec 3) (d : DmaDesc) (cyc : Nat) (found : List (BitVec 14 × BitVec 19 × LineErr)) (s : State),
    let n := core.toNat
    let x := (s.core n).dq.get q.toFin
    x.descs = [d] → s.bgWaits (.dma n q.toNat d.idx) = false → d.done = false → d.crcFail = false → d.cut = false → d.plate = none → d.kind = 0 → d.enc = none →
    bitsOf d.gaddr 52 12 = s.devId →
    let a := bitsOf d.gaddr 0 48
    let ended := fun (t : State) => (t.core n).dq.get q.toFin = { x with done := x.done + 1, descs := [] }
    let failed := fun (t : State) (st : Status) =>
      (t.core n).dq.get q.toFin = { x with done := x.done + 1, err := some (statusCode st, d.idx), descs := [] }
    (d.issued = false → inGddr a = true → spansAt a d.bytes = [(0, a, d.bytes)] →
      (s.localCheck (.core n) false a d.bytes = none → SoundGddr s →
        ∃ t, exec (.dmaDescriptorComplete core q d.idx cyc found) s = .next t ∧
          t.mem = s.mem.write (dmAddr n d.dmAddr) (s.mem.read a d.bytes) ∧ t.regs = s.regs ∧ ended t) ∧
      (∀ st, s.localCheck (.core n) false a d.bytes = some st → x.err = none →
        ∃ t, exec (.dmaDescriptorComplete core q d.idx cyc found) s = .next t ∧ failed t st)) ∧
    (d.issued = true → inApertures a = true → ∀ r : FabTx, s.txOf (.dma n q.toNat d.idx) = [r] →
      (r.done = none → exec (.dmaDescriptorComplete core q d.idx cyc found) s = .next s) ∧
      (r.done = some .ok → ∃ t, exec (.dmaDescriptorComplete core q d.idx cyc found) s = .next t ∧ t.mem = s.mem ∧ ended t) ∧
      (∀ st, st ≠ .ok → r.done = some st → x.err = none →
        ∃ t, exec (.dmaDescriptorComplete core q d.idx cyc found) s = .next t ∧ failed t st)) ∧
    (d.issued = true → inApertures a = false →
      (∀ bytes, s.bgOf (.dma n q.toNat d.idx) = [⟨.dma n q.toNat d.idx, 0, .ok, bytes⟩] →
        ∃ t, exec (.dmaDescriptorComplete core q d.idx cyc found) s = .next t ∧ t.mem = s.mem.write (dmAddr n d.dmAddr) bytes ∧ ended t) ∧
      (∀ bytes, s.bgOf (.dma n q.toNat d.idx) = [⟨.dma n q.toNat d.idx, 0, .eMedia, bytes⟩] → x.err = none →
        ∃ t, exec (.dmaDescriptorComplete core q d.idx cyc found) s = .next t ∧ failed t .eMedia))

/-- R325, R327, R328: the encoder codes the next block of an encoding PUT into its window's slot and counts it; after the first block, which
captures the window. Here the window lies in GDDR in which nothing has failed. -/
def Sys2Proof.Claims.EncoderCodesBlocks : Prop :=
  ∀ (core : BitVec 12) (q : BitVec 3) (d : DmaDesc) (e : EncJob) (s : State),
    let n := core.toNat
    let x := (s.core n).dq.get q.toFin
    x.descs = [d] → d.done = false → d.enc = some e → e.started = true → e.bad = false → e.coded * rawBytes e.fmt < d.bytes →
    let b := encodeValues (s.encTable e.fmt) e.fmt (s.dm n (d.dmAddr + e.coded * rawBytes e.fmt) (rawBytes e.fmt))
    let at_ := winData e.base e.slots + (e.first + e.coded) * slotBytes e.fmt
    let entry := e.base + 32 + 8 * (e.first + e.coded)
    let len := ceilDiv b.1.length 32 * 32
    gDev at_ = s.devId → gDev entry = s.devId → inGddr (gLoc at_) = true → inGddr (gLoc entry) = true → SoundGddr s →
    s.localCheck (.core n) true (gLoc at_) len = none → s.localCheck (.core n) true (gLoc entry) 8 = none →
    ∃ t, exec (.encoderBlock core q d.idx) s = .next t ∧
      (t.core n).dq.get q.toFin = { x with descs := [{ d with enc := some { e with coded := e.coded + 1 } }] } ∧
      t.reg Reg.burEncCnt = s.reg Reg.burEncCnt + 1 ∧ t.reg Reg.burEncBytes = s.reg Reg.burEncBytes + b.1.length ∧
      t.reg Reg.burEncRawCnt = s.reg Reg.burEncRawCnt + (if b.2 then 1 else 0) ∧
      (s.mem.wf = true → gLoc entry + 8 ≤ gLoc at_ → t.mem.read (gLoc at_) b.1.length = b.1)

/-- A local GET completes, and the encoder codes blocks (R222, R327). Completion, under these conditions on state and operands alone:
DMA_DESCRIPTOR_COMPLETE, ENCODER_BLOCK. -/
def Obligations.GetsAndEncodedPuts : Prop := Claims.LocalGetCompletes ∧ Claims.EncoderCodesBlocks

/-! ## Faults, clusters, the frame (R154, R156, R248, R249, R257, R266, R268, R521) -/

/-- R154, R156, R510: an uncorrectable SRAM error in a turn whose check is not past stops its core with SRAM_ECC in the record where it is the
turn's first fault, and only counts otherwise; one found after the check or between turns is kept for the team's next attempt or turn; one whose
repeats are below the limit declares no site failed. -/
def Sys2Proof.Claims.SramErrorStopsItsCore : Prop :=
  ∀ (core : BitVec 12) (site : EccSite) (s : State),
    let n := core.toNat
    let c := s.core n
    (∀ k, s.teamOfCore n = some k → (s.team k).running = false ∨ (s.team k).step ≠ 0 → c.eccNext = none →
      (s.eccWindow (s.siteOf n)).length + 1 < s.fld Reg.fltPolicy 8 4 →
      ∃ t, exec (.sramEccError core site) s = .next t ∧ (t.core n).eccNext = some (eccPlace c site) ∧ (t.core n).fault = c.fault ∧
        (t.core n).exec = c.exec ∧ t.mem = s.mem ∧ t.regs = s.regs ∧ t.clusters = s.clusters ∧ ∀ m, m ≠ n → t.core m = s.core m) ∧
    (c.inTurn = true → (∀ k, s.teamOfCore n = some k → (s.team k).running = true ∧ (s.team k).step = 0) →
    (c.fault.code ≠ 0 → ∃ t, exec (.sramEccError core site) s = .next t ∧ (t.core n).exec = .halted ∧ (t.core n).fault = c.fault ∧
      (t.core n).faultCnt = c.faultCnt + 1 ∧ t.mem = s.mem ∧ t.regs = s.regs) ∧
    (c.fault.code = 0 → (s.eccWindow (s.siteOf n)).length + 1 < s.fld Reg.fltPolicy 8 4 →
      ∃ t, exec (.sramEccError core site) s = .next t ∧ (t.core n).exec = .halted ∧ (t.core n).fault.code = 0x16 ∧
        (t.core n).fault.cls = 3 ∧ (t.core n).fault.cyc = s.liveCycle n ∧ (t.core n).fault.atIssue = false ∧
        (match site with
          | .instr pc slot => (t.core n).fault.bundle = pc ∧ (t.core n).fault.slot = slot.toNat
          | .fetch pc => (t.core n).fault.bundle = pc ∧ (t.core n).fault.slot = 0
          | .outside => (t.core n).fault.bundle = c.pc ∧ (t.core n).fault.slot = 3) ∧
        t.mem = s.mem ∧ t.regs = s.regs ∧ t.clusters = s.clusters ∧ ∀ m, m ≠ n → t.core m = s.core m))

/-- R154: where a core of a running team has signalled a fault, every core of the team that is in its turn and not at its END stops; a core
at its END and a core of another team stay as they are. -/
def Sys2Proof.Claims.FaultStopsTheTeam : Prop :=
  ∀ (team : BitVec 6) (s : State),
    let tm := s.team team.toNat
    tm.running = true → (∃ n ∈ tm.cores, (s.core n).fault.code ≠ 0) →
    ∃ t, exec (.teamFaultStop team) s = .next t ∧ t.mem = s.mem ∧ t.regs = s.regs ∧
      (∀ n ∈ tm.cores, (s.core n).inTurn = true → (s.core n).exec ≠ .atEnd → (t.core n).exec = .halted) ∧
      (∀ n ∈ tm.cores, (s.core n).exec = .atEnd → (t.core n).exec = .atEnd) ∧
      (∀ n, n ∉ tm.cores → t.core n = s.core n) ∧ (∀ n, (t.core n).fault = (s.core n).fault) ∧
      (∀ b ∈ t.mesh.beats, b ∈ s.mesh.beats)

/-- R248, R249, R266, R268: a frame boundary counts FREF; a cluster that waits for a wake starts to wake, one that waits for a stop goes OFF,
every cluster that is then not OFF has refreshed 64 more of 33,024 rows; a WAKING cluster enters RUN in a later frame, and no byte
changes then but those of its cores' data and instruction memories, which power gating lost; the vault of an OFF cluster refreshes itself row
by row. -/
def Sys2Proof.Claims.FramesAndClusterDomains : Prop :=
  (∀ s : State, s.frefRuns = true →
    ∃ t, exec .frameBoundary s = .next t ∧ t.fref = s.fref + 1 ∧ t.mem = s.mem ∧ t.cores = s.cores ∧
      ∀ c, (t.cluster c).dom =
          (match (s.cluster c).dom with
            | .off => if (s.cluster c).wakeReq then .waking else .off
            | .waking => .waking
            | .run => if (s.cluster c).stopReq then .off else .run) ∧
        (t.cluster c).refreshRow = (if (t.cluster c).dom = .off then (s.cluster c).refreshRow
          else ((s.cluster c).refreshRow + 64) % 33024) ∧
        (t.cluster c).cols = (s.cluster c).cols ∧ (t.cluster c).team = (s.cluster c).team) ∧
  (∀ (cl : BitVec 6) (s : State), (s.cluster cl.toNat).dom = .waking → (s.cluster cl.toNat).since < s.fref →
    ∃ t, exec (.clusterEnterRun cl) s = .next t ∧
      (t.cluster cl.toNat).dom = (if (s.cluster cl.toNat).stopReq then .off else .run) ∧
      (∀ c, c ≠ cl.toNat → t.cluster c = s.cluster c) ∧ t.regs = s.regs ∧ ((s.cluster cl.toNat).stopReq = true → t.mem = s.mem) ∧
      (s.mem.wf = true → ∀ a, (∀ n, n < 4096 → clusterOf n = cl.toNat → a < coreWindow n ∨ coreWindow n + 0x14000 ≤ a) →
        t.mem.get a = s.mem.get a)) ∧
  (∀ (col : BitVec 6) (row : BitVec 7) (s : State), row.toNat < 72 →
    let site := row.toNat * 64 + col.toNat
    (s.cluster (row.toNat / 9 * 8 + col.toNat / 8)).dom = .off → (s.site site).testing ≠ some 2 →
    ∃ t, exec (.vaultSelfRefresh col row) s = .next t ∧ (t.site site).refresh = ((s.site site).refresh + 1) % 33024 ∧ t.mem = s.mem ∧
      ∀ x, x ≠ site → t.site x = s.site x)

/-- R257, R510: a packet that fails its CRC fails its descriptor, or the load that it belongs to, with E_MEDIA; a control packet is sent again
once, and its second failure is a hardware fault of the cluster's team: of the attempt that runs, or after its check of the next one. -/
def Sys2Proof.Claims.PacketErrors : Prop :=
  ∀ (cl : BitVec 6) (s : State),
    exec (.packetCrcFail cl false .control) s = .next s ∧
    (∀ tm, (s.cluster cl.toNat).team = some tm →
      ((s.team tm).running = true → (s.team tm).step = 0 → (s.team tm).dynFault = none →
        ∃ t, exec (.packetCrcFail cl true .control) s = .next t ∧ (t.team tm).dynFault = some cl.toNat ∧ t.mem = s.mem ∧ t.cores = s.cores) ∧
      ((s.team tm).running = false ∨ ((s.team tm).step ≠ 0 ∧ (s.team tm).step ≠ 7) → (s.team tm).dynNext = none →
        ∃ t, exec (.packetCrcFail cl true .control) s = .next t ∧ (t.team tm).dynFault = (s.team tm).dynFault ∧
          (t.team tm).dynNext = some cl.toNat ∧ t.mem = s.mem ∧ t.cores = s.cores)) ∧
    (∀ (core : BitVec 12) (q : BitVec 3) (d : DmaDesc) (again : Bool),
      let n := core.toNat
      let x := (s.core n).dq.get q.toFin
      x.descs = [d] → x.err = none → d.done = false →
      ∃ t, exec (.packetCrcFail cl again (.desc core q d.idx)) s = .next t ∧
        (t.core n).dq.get q.toFin = { x with done := x.done + 1, err := some (0xB, d.idx), descs := [] }) ∧
    (∀ (team : BitVec 6) (again : Bool), (s.team team.toNat).loading ≠ none →
      ∃ t, exec (.packetCrcFail cl again (.teamLoad team)) s = .next t ∧ (t.team team.toNat).loadBad = true ∧ t.mem = s.mem)

/-- Frame boundaries, cluster domains and packet errors (R248, R249, R257, R266). Completion, under these conditions on state and operands alone:
FRAME_BOUNDARY, CLUSTER_ENTER_RUN, PACKET_CRC_FAIL, VAULT_SELF_REFRESH. -/
def Obligations.FramesClustersPackets : Prop := Claims.FramesAndClusterDomains ∧ Claims.PacketErrors

/-! ## Vaults between turns (R262 to R265, R273 to R281) -/

namespace Sys2Proof.Claims

/-- A write of BAR0 by the host that no check before the register's own turns away (R537, R539, R598, R609). -/
def Writable (s : State) (fn : BitVec 6) (off : Nat) : Prop :=
  s.linkDown = false ∧ s.ideBlocks = false ∧ fn = 0#6 ∧ s.shadowServed off = false ∧ s.restBlocks off = false

end Sys2Proof.Claims

/-- R277, R280, R281: a soft row command on a site whose checks pass queues the 16 lines of the row for the copy at the background port; a
soft column command makes the entry and queues the hard one; a hard command starts to program the entry at once; a self-test starts on a
testable site; CMD_STATUS reads OK. A failing check leaves the site and gives its status. -/
def Sys2Proof.Claims.VaultRepairCommands : Prop :=
  ∀ (bank : BitVec 2) (index : BitVec 13) (s : State),
    let site := s.selSite
    let b := bank.toNat
    let i := index.toNat
    (Writable s 0#6 Reg.vltRepairCmd → s.siteBusy site = false → s.repairBusy = false → s.fld Reg.vltStatus 1 1 = 0 →
      (∀ v, s.canSoft site b i false = true → s.vaultAt site = some v →
        ∃ t : State, exec (.softRow 0#6 bank index) s = .next t ∧ (t.site site).copying = some (b * 8192 + i) ∧
          (look [] t.bgq v).map (fun r => (r.line, r.act)) = (look [] s.bgq v).map (fun r => (r.line, r.act)) ++
            (List.range 16).map (fun k => (i * 64 + b + 4 * k, BgAct.copy)) ∧
          (t.site site).softRows = (s.site site).softRows ∧ t.repairBusy = true ∧
          t.fld Reg.vltStatus 4 4 = 0 ∧ t.mem = s.mem ∧ ∀ x, x ≠ site → t.site x = s.site x) ∧
      (s.canSoft site b i true = true → i < 560 →
        ∃ t spare, exec (.softColumn 0#6 bank index) s = .next t ∧ (b, i, spare) ∈ (t.site site).softCols ∧
          spare ∉ s.colsTaken site b ∧ (t.site site).softRows = (s.site site).softRows ∧
          t.mgt.hardQueue = s.mgt.hardQueue ++ [(site, b + 4, i, spare)] ∧ t.fld Reg.vltStatus 4 4 = 0 ∧ t.mem = s.mem) ∧
      (s.freeRows site b ≠ [] →
        ∃ t spare, exec (.programHardRow 0#6 bank index 0xA5#8) s = .next t ∧ spare ∉ s.rowsTaken site b ∧
          t.mgt.hardQueue = (site, b, i, spare) :: s.mgt.hardQueue ∧ t.fld Reg.vltStatus 1 1 = 1 ∧ t.fld Reg.vltStatus 4 4 = 0 ∧
          t.sites = s.sites) ∧
      (s.freeCols site b ≠ [] → i < 560 →
        ∃ t spare, exec (.programHardColumn 0#6 bank index 0xA5#8) s = .next t ∧ spare ∉ s.colsTaken site b ∧
          t.mgt.hardQueue = (site, b + 4, i, spare) :: s.mgt.hardQueue ∧ t.fld Reg.vltStatus 1 1 = 1 ∧ t.sites = s.sites) ∧
      (∀ key : BitVec 8, key ≠ 0xA5#8 → s.freeRows site b ≠ [] →
        ∃ t, exec (.programHardRow 0#6 bank index key) s = .next t ∧ t.fld Reg.vltStatus 4 4 = 8 ∧ t.mgt.hardQueue = s.mgt.hardQueue ∧
          t.sites = s.sites)) ∧
    (Writable s 0#6 Reg.vltRepairCmd → s.siteBusy site = true →
      ∃ t, exec (.softRow 0#6 bank index) s = .next t ∧ t.fld Reg.vltStatus 4 4 = 4 ∧ t.sites = s.sites ∧
        t.mgt.hardQueue = s.mgt.hardQueue) ∧
    (∀ pattern : BitVec 4, Writable s 0#6 Reg.vltBistCtrl → pattern.toNat < 4 → s.testable site = true →
      ∃ t, exec (.bistStart 0#6 pattern) s = .next t ∧ (t.site site).testing = some pattern.toNat ∧ t.fld Reg.vltStatus 4 4 = 0)

/-- R276 to R278: a row due for repair begins to be copied in the gap between turns; the copy of its last line makes the soft entry, queues
the hard one and logs the repair; programming an entry ends with the entry in the site's hard list, in force from the next POR#, or in
the Umpire's record where the spare's entry has been programmed before; a self-test that ends leaves the number of failing symbols. -/
def Sys2Proof.Claims.VaultRepairEvents : Prop :=
  (∀ (col : BitVec 6) (row : BitVec 7) (r v : Nat) (ws : List Nat) (s : State),
    let site := row.toNat * 64 + col.toNat
    s.fld Reg.vltCtrl 12 1 = 1 → row.toNat < 72 → s.siteIdle site = true → (s.site site).weak = r :: ws → (s.site site).copying = none →
    s.vaultAt site = some v → s.canSoft site (r / 8192) (r % 8192) false = true →
    ∃ t : State, exec (.vaultRowRepair col row) s = .next t ∧ (t.site site).copying = some r ∧ t.mem = s.mem ∧
      (look [] t.bgq v).length = (look [] s.bgq v).length + 16) ∧
  (∀ (v row : Nat) (s : State), (s.site (s.siteOf v)).copying = some row → (look [] s.bgq v).any (fun r => r.act == .copy) = false →
    let site := s.siteOf v
    let t := s.endCopy v
    ∃ spare, (row / 8192, row % 8192, spare) ∈ (t.site site).softRows ∧ row ∉ (t.site site).weak ∧ (t.site site).copying = none ∧
      (site, row / 8192, row % 8192, spare) ∈ t.mgt.hardQueue ∧ t.mem = s.mem) ∧
  (∀ s : State, s.mgt.hardQueue ≠ [] → s.fld Reg.vltStatus 1 1 = 0 →
    ∃ t, exec .hardRepairProgram s = .next t ∧ t.fld Reg.vltStatus 1 1 = 1 ∧ t.mgt = s.mgt ∧ t.sites = s.sites) ∧
  (∀ (site kb i spare : Nat) (rest : List (Nat × Nat × Nat × Nat)) (s : State), s.fld Reg.vltStatus 1 1 = 1 → kb < 8 →
    s.mgt.hardQueue = (site, kb, i, spare) :: rest →
    ∃ t, exec .hardRepairDone s = .next t ∧ t.fld Reg.vltStatus 1 1 = 0 ∧ t.mgt.hardQueue = rest ∧
      (s.spentSpare site (kb % 4) spare (decide (4 ≤ kb)) = true →
        t.sites = s.sites ∧ t.mgt.softRecord = s.mgt.softRecord ++ [(site, kb, i, spare)]) ∧
      (s.spentSpare site (kb % 4) spare (decide (4 ≤ kb)) = false →
        (kb < 4 → (t.site site).hardRows = (kb, i, spare) :: (s.site site).hardRows ∧ (t.site site).liveRows = (s.site site).liveRows) ∧
        (4 ≤ kb → (t.site site).hardCols = (kb - 4, i, spare) :: (s.site site).hardCols ∧
          (t.site site).liveCols = (s.site site).liveCols))) ∧
  (∀ (col : BitVec 6) (row : BitVec 7) (fails : Nat) (s : State),
    let site := row.toNat * 64 + col.toNat
    (s.site site).testing ≠ none →
    ∃ t, exec (.bistDone col row fails []) s = .next t ∧ (t.site site).testing = none ∧
      (t.site site).testFailed = decide (0 < fails) ∧ t.reg Reg.vltBistFailCnt = fails)

/-- R262, R263, R266, R273, R274: in a cycle in which it has a slot the background port serves a vault's first line request: a write merges
its bytes, or is lost, counted and fails its owner where the core port wrote the line in that cycle; a read of the host leaves with the
line's bytes as they were before the cycle; the scrubber takes a slot, reads its next line and poisons an uncorrectable one. -/
def Sys2Proof.Claims.BackgroundPortAndScrubber : Prop :=
  (∀ (vault : BitVec 14) (cyc : Nat) (r : BgReq) (rest : List BgReq) (s : State),
    let n := vault.toNat
    n < 4096 → look [] s.bgq n = r :: rest → s.resting = false → s.bgSlot n cyc = cyc → s.storedErr n r.line = ([], 0#3) →
    s.poisoned n r.line = false →
    let met := fun (w : CoreWrite) => (s.core n).coreWrite = some w ∧ w.line = r.line ∧ w.cycle = cyc
    let run := exec (.backgroundLineServe vault cyc {}) s
    (∀ bytes mask, r.act = .write bytes mask → (∀ w, ¬ met w) →
      ∃ t, run = .next t ∧ look [] t.bgq n = rest.filter (fun q => !(q.line == r.line && q.act.isBack)) ∧
        t.mem = s.mem.write (vaultBase n + 32 * r.line) (mergeBytes mask (s.vline n r.line) bytes) ∧ t.regs = s.regs) ∧
    (∀ bytes mask w, r.act = .write bytes mask → met w → (∀ core q idx, r.owner = .dma core q idx →
      ∃ t : State, run = .next t ∧ look [] t.bgq n = rest ∧ t.mem = s.mem ∧ t.reg Reg.vltBgLostCnt = s.reg Reg.vltBgLostCnt + 1 ∧
        t.bgDone = s.bgDone ++ [⟨r.owner, r.off, .eMedia, []⟩])) ∧
    (∀ w fn, r.act = .read → r.owner = .host fn → met w → w.old.flag = false → w.old.err = ([], 0#3) →
      ∃ t, run = .next t ∧ look [] t.bgq n = rest ∧ t.mem = s.mem ∧
        t.outbox = s.outbox ++ [.read fn .ok ((w.old.bytes.drop r.first).take r.len) false]) ∧
    (∀ fn, r.act = .read → r.owner = .host fn → (∀ w, ¬ met w) →
      ∃ t, run = .next t ∧ look [] t.bgq n = rest ∧ t.mem = s.mem ∧
        t.outbox = s.outbox ++ [.read fn .ok (((s.vline n r.line).drop r.first).take r.len) false])) ∧
  (∀ (vault : BitVec 14) (cyc : Nat) (err : LineErr) (s : State), s.bgSlot vault.toNat cyc ≠ cyc ∨ s.resting = true →
    exec (.backgroundLineServe vault cyc err) s = .next s) ∧
  (∀ (v t : Nat) (s : State), (s.cluster (siteCluster (s.siteOf v))).dom ≠ .off →
    s.bgSlot v t % 2 = 0 ∧ 64 ≤ s.bgSlot v t % 2048 ∧ t ≤ s.bgSlot v t) ∧
  (∀ (col : BitVec 6) (row : BitVec 7) (cyc : Nat) (err : LineErr) (n : Nat) (s : State),
    let site := row.toNat * 64 + col.toNat
    let line := (s.site site).scrubPtr
    s.fld Reg.vltCtrl 0 1 = 1 → row.toNat < 72 → s.lidOf site = some n → n < 4096 → s.resting = false → s.bgSlot n cyc = cyc →
    s.scrubDue site cyc = true →
    ∃ t : State, exec (.vaultScrub col row ⟨cyc, err⟩) s = .next t ∧ t.mem = s.mem ∧
      (t.site site).scrubPtr = (line + 1) % 524288 ∧ cyc < (t.site site).bgFree ∧
      ((∀ w, (s.core n).coreWrite = some w → w.line = line → w.cycle ≠ cyc) → (s.strike n line err).lineBad n line = true →
        t.poisoned n line = true ∧ (t.core n).vltUe = (s.core n).vltUe + 1))

/-- Vault repairs, self-tests, the background port and the scrubber (R262 to R281). Completion, under these conditions on state and operands alone:
BACKGROUND_LINE_SERVE, VAULT_SCRUB, VAULT_ROW_REPAIR, HARD_REPAIR_PROGRAM, HARD_REPAIR_DONE, SOFT_ROW, SOFT_COLUMN, PROGRAM_HARD_ROW,
PROGRAM_HARD_COLUMN, BIST_START, BIST_DONE. -/
def Obligations.VaultRepairAndBackground : Prop :=
  Claims.VaultRepairCommands ∧ Claims.VaultRepairEvents ∧ Claims.BackgroundPortAndScrubber

/-! ## GDDR regions (R289 to R305) -/

/-- R289, R297: where every region's devices report one density and pass, training puts every region in service with that density, and the
densities do not differ. -/
def Sys2Proof.Claims.TrainingPutsRegionsInService : Prop :=
  ∀ (d : Nat) (s : State), d ≤ 2 →
    ∃ t, exec (.gddrTraining (List.replicate 32 (some d, true))) s = .next t ∧ (∀ n, n < 32 → t.regionSt n = 2) ∧
      t.fld Reg.gdrCfg 2 2 = d ∧ t.fld Reg.gdrCfg 4 1 = 0 ∧ t.mem = s.mem ∧
      t.usable = (if d = 0 then 1920 else if d = 1 then 2880 else 3840) * 1048576

/-- R291, R293 to R298: a sector access in a region in service is decoded: one symbol that has failed is corrected and counted, a flag or a
word that cannot be read makes the access fail and count as uncorrectable, and so do a fourth retry and an access that no device answers;
a scrub passes to the next group of 15 sectors; a short retrain that is due begins, and the region reads RETRAINING until it ends. -/
def Sys2Proof.Claims.RegionAccesses : Prop :=
  ∀ (region : BitVec 5) (s : State),
    let n := region.toNat
    s.regionUp n = true → SoundGddr s → (s.region n).ueTicks = [] → 1 < s.fld Reg.gdrPolicy 0 8 →
    (∀ sector : BitVec 26, 64 * sector.toNat + 64 ≤ s.usable →
      let k := gddrBase n / 64 + sector.toNat
      let run := fun (err : SectorErr) (retries : Nat) => exec (.gddrAccess region sector err retries) s
      (∃ t, run {} 0 = .next t ∧ t.mem = s.mem ∧ t.gpoison = s.gpoison ∧ (t.region n).noResp = 0 ∧ t.sectorFails k = false ∧
        t.reg Reg.gdrCeCnt = s.reg Reg.gdrCeCnt ∧ t.reg Reg.gdrUeCnt = s.reg Reg.gdrUeCnt) ∧
      (∀ sym b, b ≠ 0#8 → ∃ t, run ⟨[(sym, b)], 0#32⟩ 0 = .next t ∧ t.mem = s.mem ∧ t.sectorFails k = false ∧
        t.reg Reg.gdrCeCnt = s.reg Reg.gdrCeCnt + 1 ∧ t.reg (Reg.gdrRgnCe n) = s.reg (Reg.gdrRgnCe n) + 1) ∧
      (∀ word, wordOk word = false → ∃ t, run ⟨[], word⟩ 0 = .next t ∧ t.mem = s.mem ∧ t.sectorFails k = true ∧
        t.reg Reg.gdrUeCnt = s.reg Reg.gdrUeCnt + 1) ∧
      (∀ retries, 3 < retries → (s.region n).exhausted + 1 < s.fld Reg.gdrPolicy 8 8 →
        ∃ t, run {} retries = .next t ∧ t.mem = s.mem ∧ t.sectorFails k = true ∧ t.reg Reg.gdrUeCnt = s.reg Reg.gdrUeCnt + 1) ∧
      ((s.region n).noResp < 15 → ∃ t, exec (.gddrAccessTimeout ⟨region, sector⟩) s = .next t ∧ t.mem = s.mem ∧ t.sectorFails k = true ∧
        t.reg Reg.gdrUeCnt = s.reg Reg.gdrUeCnt + 1)) ∧
    (∃ t, exec (.gddrScrub region []) s = .next t ∧ t.mem = s.mem ∧ t.regs = s.regs ∧ t.gpoison = s.gpoison ∧
      (t.region n).scrubGroup = (if ((s.region n).scrubGroup + 1) * 960 < s.usable then (s.region n).scrubGroup + 1 else 0)) ∧
    (∀ (temp : BitVec 8) (full : Bool), s.regionSt n = 2 → s.groupRetrains n = false →
      (s.region n).lastTick + 16 * s.fld Reg.gdrPolicy 16 8 ≤ s.reg Reg.glbTicks →
      ∃ t, exec (.gddrShortRetrain region temp true full) s = .next t ∧ t.regionSt n = 3 ∧ t.mem = s.mem ∧ t.regions = s.regions) ∧
    (∀ (temp : BitVec 8) (full : Bool), s.regionSt n = 3 →
      ∃ t, exec (.gddrShortRetrain region temp true full) s = .next t ∧ t.regionSt n = 2 ∧
        (t.region n).lastTick = s.reg Reg.glbTicks ∧ (t.region n).lastTemp = temp.toNat ∧ t.mem = s.mem)

/-- R303, R305: the host's retire command with its key takes a region in service out of service; without the key it is turned away with
E_PERM and nothing is retired. -/
def Sys2Proof.Claims.RegionRetireCommand : Prop :=
  ∀ (value : Word) (s : State), Writable s 0#6 Reg.gdrRetireCmd →
    let n := value.toNat % 32
    bitsOf value.toNat 6 18 = 0 →
    (bitsOf value.toNat 24 8 = 0x5A → s.regionUp n = true → s.groupLost (n / 8) = 0 →
      ∃ t, exec (.gdrRetireCmd 0#6 value) s = .next t ∧ t.regionSt n = 4 ∧ bitOf (t.reg Reg.gdrRetired) n = true ∧ t.regionUp n = false ∧
        t.mem = s.mem) ∧
    (bitsOf value.toNat 24 8 ≠ 0x5A →
      ∃ t, exec (.gdrRetireCmd 0#6 value) s = .next t ∧ t.regionSt n = s.regionSt n ∧ t.reg Reg.hstRejCnt = s.reg Reg.hstRejCnt + 1 ∧
        t.mem = s.mem ∧ t.regions = s.regions)

/-- GDDR regions train, are accessed, scrubbed and retired (R289 to R305). Completion, under these conditions on state and operands alone:
GDDR_TRAINING, GDDR_SHORT_RETRAIN, GDDR_ACCESS, GDDR_ACCESS_TIMEOUT, GDDR_SCRUB, GDR_RETIRE_CMD. -/
def Obligations.GddrRegions : Prop := Claims.TrainingPutsRegionsInService ∧ Claims.RegionAccesses ∧ Claims.RegionRetireCommand

/-! ## Turns (R141, R239, R402 to R404, R446, R491, R507 to R515) -/

namespace Sys2Proof.Claims

/-- The state at the end of a turn's work: the mesh's last beats have passed, every write on its way has landed, and the Dealer holds the
output words of the entries that sample (R403 step 1, R416). -/
def workEnded (n rrc : Nat) (outs : List (Nat × List Nat × List (Nat × Nat))) (s : State) : State :=
  let cs := (s.team n).cores
  let s0 := s.setReg Reg.uhlRrc (max (s.reg Reg.uhlRrc) rrc)
  let s1 := cs.foldl (fun s m => missedPartials m (settle m (2 ^ 64) s)) (passLinks cs (2 ^ 64) s0)
  let put := s1.sampled (s.team n).batch (outs.map (fun o => ⟨o.1, o.2.1, o.2.2⟩))
  s1.updTeam n (fun t =>
    { t with outputs := put, sources := [], promote := [], ran := t.ran ++ [(t.runRank, put, s1.turnFrames t)] })

/-- That state in step 1, the fault check. -/
def inCheck (n rrc : Nat) (outs : List (Nat × List Nat × List (Nat × Nat))) (s : State) : State :=
  (workEnded n rrc outs s).updTeam n (fun t => { t with step := 1 })

/-- The team's turn may end now: it runs, every core has ended and every descriptor is complete, no reset waits, no replay job runs, the team
stays loaded, and this device carries no other rank. -/
def MayEnd (n : Nat) (s : State) : Prop :=
  (s.team n).running = true ∧ (s.team n).step = 0 ∧ (s.team n).resetReq = false ∧ s.workDone (s.team n) = true ∧ (s.team n).runs = [] ∧
    (s.team n).savedTurn = none ∧ s.jobRuns = false ∧ (s.team n).unloading = none ∧ (s.team n).cut = false

/-- Nothing the turn read was bad: no vault line and no tile of a core, and no load-area line is poisoned. -/
def ReadClean (n : Nat) (s : State) : Prop :=
  (∀ m ∈ (s.team n).cores, (s.core m).ueLines = [] ∧ (s.core m).poisonTile = []) ∧ s.badLoadLines (s.team n) = []

end Sys2Proof.Claims

/-- A core of a team begins a turn: it issues from the role's entry bundle with its rank, the turn number and the team seed, in the reset
mode, with no group open, no seed loaded, no descriptor posted and no fault. One with an SRAM error found since the last check stands halted
with that fault (R510). -/
def Sys2Proof.Claims.Begins (tm : Team) (turn role seed m : Nat) (s t : State) : Prop :=
  (t.core m).exec = (if (s.core m).eccNext.isNone then .issuing else .halted) ∧ (t.core m).inTurn = true ∧ (t.core m).jumped = true ∧
    (t.core m).nextPc = (if role = 0 then tm.image.entryPrefill else if role = 1 then tm.image.entryDecode else tm.image.entryRefine) ∧
    (t.core m).turn = turn ∧ (t.core m).rank = tm.rankOf m ∧ (t.core m).teamSeed = seed ∧
    (t.core m).mode = ⟨4, 1, 1⟩ ∧ (∀ g : Fin 8, ((t.core m).groups.get g).st = .closed) ∧ (t.core m).seeds = [] ∧
    (∀ q : Fin 8, ((t.core m).dq.get q).descs = [] ∧ ((t.core m).dq.get q).posted = 0) ∧
    (t.core m).fault.code = (if (s.core m).eccNext.isNone then 0 else 0x16) ∧
    (t.core m).resTop = (s.core m).resTop

/-- R141, R166, R239, R403: a turn of a team that may start, with its batch ready, no load-area line bad, no slot of its sequences being zeroed and
no unload or READY outstanding, starts in the present frame: its cores begin, no other core changes, and the next batch is formed (R400). A lead
and a device without a slice run the batch that waits; a member of a slice runs its lead's turn (R404), once it has taken it, and does nothing
before the lead has sent it. No row copy runs meanwhile. Completion, under these conditions on state and operands alone: TURN_START. -/
def Obligations.TurnStarts : Prop :=
  ∀ (team : BitVec 6) (placed : List (Nat × Nat × List Byte)) (gs : List LineFrom) (s : State),
    let n := team.toNat
    let tm := s.team n
    let own := s.isLead || (s.jobRuns && s.jobTeam == n)
    let run := fun (lead : Option LeadTurn) (turn role seed : Nat) =>
      ∃ u : State, exec (.turnStart team ⟨placed, lead, gs⟩) s = .next (u.formTurn n) ∧ (u.team n).running = true ∧ (u.team n).step = 0 ∧
        (u.team n).startFrame = s.fref ∧ (u.team n).turn = turn ∧ (u.team n).role = role ∧ (∀ m, m ∉ tm.cores → u.core m = s.core m) ∧
        ∀ m ∈ tm.cores, Begins tm turn role seed m s u
    tm.running = false → s.mayStart n = true → (∀ x ∈ s.sites, x.2.copying = none) → s.badLoadLines tm = [] → tm.unloading = none →
    tm.marked = false →
    (∀ lead, own = true → tm.batch ≠ [] → (∀ e ∈ tm.batch, s.entryHeld tm e = true) → s.seqsZeroing (tm.batch.map Entry.slot) = false →
      run lead tm.turn tm.role (s.teamSeedOf { tm with leadSeed := none })) ∧
    (∀ l u, own = false → s.takeLead n l = some u → (u.team n).batch ≠ [] → u.seqsZeroing ((u.team n).batch.map Entry.slot) = false →
      run (some l) l.turn l.role.toNat l.seed.toNat) ∧
    (own = false → exec (.turnStart team ⟨placed, none, gs⟩) s = .next s)

/-- R403, R410, R507: without a slice, with no sector that fails and no poisoned load-area line, a turn whose fault check finds nothing commits: it counts, the team's turn number advances, its cores
stand idle, and no attempt is pending. One whose proof finds no ring room, or finds another boundary waiting for it, waits, and goes on when the
host has made room (R491), or is discarded without counting where a member was cut out meanwhile (R476). -/
def Sys2Proof.Claims.TurnCommits : Prop :=
  (∀ (team : BitVec 6) (rrc : BitVec 64) (outs : List (Nat × List Nat × List (Nat × Nat))) (s : State),
    let n := team.toNat
    let s2 := inCheck n rrc.toNat outs s
    MayEnd n s → s.sliceSt = 0 → s2.turnFaults n = [] → SoundGddr s → s2.badLoadLines (s2.team n) = [] →
    (s.det.holding = [] → s2.turnRoom n (s2.team n) = true →
      ∃ t, exec (.turnEnd team rrc outs [] []) s = .next t ∧ (t.team n).running = false ∧ (t.team n).turn = (s.team n).turn + 1 ∧
        (t.team n).attempt = 0 ∧ t.reg Reg.dlrCommitCnt = s.reg Reg.dlrCommitCnt + 1 ∧
        ∀ m ∈ (s.team n).cores, (t.core m).exec = .idle ∧ (t.core m).inTurn = false) ∧
    (s.det.holding ≠ [] ∨ s2.turnRoom n (s2.team n) = false →
      ∃ t, exec (.turnEnd team rrc outs [] []) s = .next t ∧ n ∈ t.det.holding ∧ (t.team n).running = true ∧ (t.team n).step = 2 ∧
        (t.team n).turn = (s.team n).turn ∧ t.fld Reg.detStatus 1 1 = 1)) ∧
  (∀ (team : BitVec 6) (rrc : BitVec 64) (s : State),
    let n := team.toNat
    n ∈ s.det.holding → SoundGddr s → ReadClean n s → (s.team n).savedTurn = none → s.jobRuns = false → (s.team n).unloading = none →
    ((s.team n).cut = false → s.turnRoom n (s.team n) = true →
      ∃ t, exec (.turnBoundaryResume team rrc) s = .next t ∧ n ∉ t.det.holding ∧ (t.team n).running = false ∧
        (t.team n).turn = (s.team n).turn + 1) ∧
    ((s.team n).cut = true →
      ∃ t, exec (.turnBoundaryResume team rrc) s = .next t ∧ n ∉ t.det.holding ∧ (t.team n).running = false ∧
        (t.team n).turn = (s.team n).turn ∧ (t.team n).attempt = (s.team n).attempt))

/-- R511 to R514: without a slice, a first or second attempt whose fault check finds a fault (and no bad line) is discarded and replayed: the
turn number stays, the attempt and the replay and discard counters advance, the cores stand idle and their banks will be filled again. -/
def Sys2Proof.Claims.FailedTurnIsReplayed : Prop :=
  ∀ (team : BitVec 6) (rrc : BitVec 64) (outs : List (Nat × List Nat × List (Nat × Nat))) (s : State),
    let n := team.toNat
    let s2 := inCheck n rrc.toNat outs s
    MayEnd n s → s.sliceSt = 0 → s2.turnFaults n ≠ [] → ReadClean n s2 → (s.team n).attempt < 2 → (s.team n).stopped = false →
    ∃ t, exec (.turnEnd team rrc outs [] []) s = .next t ∧ (t.team n).running = false ∧ (t.team n).turn = (s.team n).turn ∧
      (t.team n).attempt = (s.team n).attempt + 1 ∧ (t.team n).reloadBanks = true ∧
      t.reg Reg.fltReplayCnt = s.reg Reg.fltReplayCnt + 1 ∧ t.reg Reg.dlrDiscardCnt = s.reg Reg.dlrDiscardCnt + 1 ∧
      t.reg Reg.dlrCommitCnt = s.reg Reg.dlrCommitCnt ∧ ∀ m ∈ (s.team n).cores, (t.core m).exec = .idle ∧ (t.core m).fmtPend = {}

/-- A turn whose check passes commits, one whose check fails is replayed (R403, R507, R511 to R514). Completion, under these conditions on state and
operands alone: TURN_END, TURN_BOUNDARY_RESUME. -/
def Obligations.TurnsEnd : Prop := Claims.TurnCommits ∧ Claims.FailedTurnIsReplayed

/-- R404, R474, R515: on the lead a member's result is kept until the lead's own check is done; a result that does not arrive counts as failed, its
rank as missing, and the turn is discarded; a READY is kept, and one that does not arrive within READY_LIMIT of its REPAIR makes its rank
missing; on a member the lead's decision is kept until its own check. Completion, under these conditions on state and operands alone:
SLICE_RESULT, SLICE_VOTE_TIMEOUT, SLICE_DECISION, SLICE_READY, SLICE_READY_TIMEOUT. -/
def Obligations.SliceVotes : Prop :=
  ∀ (team : BitVec 6) (rank : BitVec 7) (s : State),
    let n := team.toNat
    let r := rank.toNat
    (∀ (passed : Bool) (mark : SliceMark), s.isLead = true → r ∈ s.votingRanks → (s.team n).running = true → (s.team n).step = 0 →
      ∃ t, exec (.sliceResult team rank passed mark) s = .next t ∧ (r, passed, mark) ∈ (t.team n).results ∧
        (∀ x ∈ (t.team n).results, x.1 = r → x = (r, passed, mark)) ∧ r ∉ (t.team n).missing ∧ t.cores = s.cores ∧
        (mark.lost = [] → t.regs = s.regs) ∧ t.mem = s.mem ∧
        (mark.repair = true → passed = false → find? (t.team n).readyWait r = some (s.reg Reg.glbTicks))) ∧
    (s.isLead = true → (s.team n).running = true → (s.team n).step = 1 → (s.team n).resetReq = false → (s.team n).cut = false →
      (s.team n).savedTurn = none → (s.team n).missing = [] → (s.team n).attempt < 2 → s.jobRuns = false → (s.team n).stopped = false →
      r ∈ s.votingRanks → (∀ x ∈ (s.team n).results, x.1 ≠ r) → ReadClean n s →
      ∃ t, exec (.sliceVoteTimeout team) s = .next t ∧ r ∈ (t.team n).missing ∧ (t.team n).attempt = (s.team n).attempt + 1 ∧
        (t.team n).running = false) ∧
    (∀ verdict : SliceVerdict, s.isLead = false → (s.team n).running = true → (s.team n).step = 0 → (s.team n).resetReq = false →
      ∃ t, exec (.sliceDecision team verdict) s = .next t ∧ (t.team n).decision = some verdict ∧ (t.team n).running = true ∧
        t.cores = s.cores ∧ t.mem = s.mem) ∧
    (s.isLead = true → ∃ t, exec (.sliceReady team rank) s = .next t ∧ (t.team n).ready = (s.team n).ready ++ [r] ∧ t.cores = s.cores) ∧
    (∀ k, s.isLead = true → find? (s.team n).readyWait r = some k → r ∉ (s.team n).ready → r ∉ (s.team n).missing →
      (k + s.fld Reg.fltPolicy 22 8 ≤ s.reg Reg.glbTicks →
        ∃ t, exec (.sliceReadyTimeout team rank) s = .next t ∧ r ∈ (t.team n).missing ∧ r ∈ (t.team n).ready ∧ t.cores = s.cores) ∧
      (s.reg Reg.glbTicks < k + s.fld Reg.fltPolicy 22 8 → exec (.sliceReadyTimeout team rank) s = .next s))

/-- R446, R509: after the wait that follows a discard the team's reduction contexts are EMPTY; a turn that has run past its limit, not all of its
work done, is stopped and names its first core that has not ended. Completion, under these conditions on state and operands alone:
CONTEXT_RESET_WAIT, TURN_WATCHDOG. -/
def Obligations.ContextsAndWatchdog : Prop :=
  ∀ (team : BitVec 6) (s : State),
    let n := team.toNat
    ((s.team n).resetWait = true →
      ∃ t, exec (.contextResetWait team) s = .next t ∧ (t.team n).resetWait = false ∧ t.cores = s.cores ∧ t.mem = s.mem ∧
        ∀ c, c < 256 → s.ctx c 17 6 = n → s.ctx c 0 1 = 1 → t.ctx c 206 2 = 0) ∧
    ((s.team n).running = true → (s.team n).step = 0 → (s.team n).watchdog = none → s.workDone (s.team n) = false →
      (s.team n).startFrame + (s.team n).image.framesMax + 16 * s.fld Reg.fltPolicy 0 8 < s.fref →
      ∃ t m, exec (.turnWatchdog team) s = .next t ∧ (t.team n).watchdog = some m ∧ t.mem = s.mem ∧ t.regs = s.regs ∧
        ∀ k ∈ (s.team n).cores, (t.core k).exec = (if (s.core k).exec = .atEnd then .atEnd else .halted))

/-! ## The Dealer (R248, R250, R382 to R421, R552) -/

namespace Sys2Proof.Claims

/-- The state in which a command's completion leaves: `u` with the completion record of the command posted or deferred (R551). -/
def completed (fn : BitVec 6) (idx : Word) (d : BitVec 512) (st : Status) (result : Nat) (u : State) : State :=
  u.cmdDone fn.toNat (bitsOf d.toNat 32 32) idx.toNat st result

/-- The Dealer commands of the PF alone: function, ring index and descriptor. -/
def pfCommand : Instr → Option (BitVec 6 × Word × BitVec 512)
  | .clusterWake fn idx d | .clusterStop fn idx d | .modelLoad fn idx d | .modelUnload fn idx d | .deltaLoad fn idx d
  | .teamLoad fn idx d | .teamUnload fn idx d | .roleSet fn idx d | .fwSwitch fn idx d => some (fn, idx, d)
  | _ => none

end Sys2Proof.Claims

/-- R384, R552: a Dealer command of the PF that a VF sends completes with E_PERM and changes nothing else. -/
def Sys2Proof.Claims.PfCommandsRefuseVfs : Prop :=
  ∀ (c : Instr) (fn : BitVec 6) (idx : Word) (d : BitVec 512) (s : State), pfCommand c = some (fn, idx, d) → fn ≠ 0#6 →
    exec c s = .next (completed fn idx d .ePerm 0 s)

/-- R248, R250: a wake marks an OFF cluster, a stop marks one that is not OFF and belongs to no team; a stop of a team's cluster completes with
E_STATE. Completion, under these conditions on state and operands alone: CLUSTER_WAKE, CLUSTER_STOP. -/
def Obligations.ClusterCommands : Prop :=
  ∀ (idx : Word) (d : BitVec 512) (s : State),
    let c := bitsOf d.toNat 64 6
    cmdBad d [(64, 6)] = false →
    (∃ u, exec (.clusterWake 0#6 idx d) s = .next (completed 0#6 idx d .ok 0 u) ∧
      u.cluster c = (if (s.cluster c).dom = .off then { s.cluster c with wakeReq := true } else s.cluster c) ∧
      (∀ k, k ≠ c → u.cluster k = s.cluster k) ∧ u.mem = s.mem ∧ u.regs = s.regs ∧ u.cores = s.cores) ∧
    ((s.cluster c).team = none →
      ∃ u, exec (.clusterStop 0#6 idx d) s = .next (completed 0#6 idx d .ok 0 u) ∧
        u.cluster c = (if (s.cluster c).dom = .off then { s.cluster c with wakeReq := false } else { s.cluster c with stopReq := true }) ∧
        (∀ k, k ≠ c → u.cluster k = s.cluster k) ∧ u.mem = s.mem ∧ u.regs = s.regs ∧ u.cores = s.cores) ∧
    ((s.cluster c).team ≠ none → exec (.clusterStop 0#6 idx d) s = .next (completed 0#6 idx d .eState 0 s))

/-- R300, R384: a model load records the model with its place, not yet ready, and queues the golden engine's work; its completion writes the
copy and makes the model serve, or drops the model where its source cannot be read; a delta is recorded at its completion; a model no
team is loaded with is removed. -/
def Sys2Proof.Claims.ModelsAndDeltas : Prop :=
  (∀ (idx : Word) (d : BitVec 512) (s : State),
    let m := bitsOf d.toNat 64 16
    let src := bitsOf d.toNat 128 64
    let len := bitsOf d.toNat 192 64
    (cmdBad d [(64, 16), (128, 64), (192, 64), (256, 128), (384, 2), (448, 64)] = false → len ≠ 0 → s.gddrOk src len = true →
      s.inGold src len = false → s.model? m = none → s.goldFind len ≠ none →
      ∃ t x, exec (.modelLoad 0#6 idx d) s = .next t ∧ t.model? m = some x ∧ x.ready = false ∧ x.len = len ∧
        x.tenants = bitsOf d.toNat 448 64 ∧ t.mem = s.mem ∧ t.regs = s.regs ∧ t.dlr.golden.length = s.dlr.golden.length + 1 ∧
        ∀ k, k ≠ m → t.model? k = s.model? k) ∧
    (cmdBad d [(64, 16)] = false → s.model? m ≠ none → (∀ t ∈ s.teams, t.2.model = m → t.2.loaded = false ∧ t.2.loading = none) →
      ∃ u, exec (.modelUnload 0#6 idx d) s = .next (completed 0#6 idx d .ok 0 u) ∧ u.model? m = none ∧ u.mem = s.mem ∧
        ∀ k, k ≠ m → u.model? k = s.model? k) ∧
    (cmdBad d [(64, 16), (80, 16), (96, 6), (128, 64), (192, 64)] = false → len ≠ 0 → bitsOf d.toNat 80 16 ≠ 0 →
      s.gddrOk src len = true → s.inGold src len = false → s.goldFind len ≠ none →
      ∀ x, s.model? m = some x → x.ready = true → (∀ e ∈ x.deltas, e.1 ≠ bitsOf d.toNat 80 16) →
      ∃ t, exec (.deltaLoad 0#6 idx d) s = .next t ∧ t.dlr.golden.length = s.dlr.golden.length + 1 ∧ t.dlr.models = s.dlr.models ∧
        t.mem = s.mem ∧ t.regs = s.regs)) ∧
  (∀ (g : GoldenJob) (rest : List GoldenJob) (s : State), s.dlr.golden = g :: rest →
    (s.gddrOk g.src g.len = true → s.sectorBad g.src g.len = false → ∀ x, s.model? g.model = some x →
      ∃ (u : State) (y : Model), exec .modelLoadComplete s = .next (u.cmdDone g.fn g.tag g.idx .ok 0) ∧ u.dlr.golden = rest ∧ u.model? g.model = some y ∧
        (g.delta = none → y.ready = true ∧ y.deltas = x.deltas) ∧
        (∀ k tenant, g.delta = some (k, tenant) → y.deltas = x.deltas ++ [(k, tenant, g.off, g.len)] ∧ y.ready = x.ready)) ∧
    (s.sectorBad g.src g.len = true → g.delta = none →
      ∃ u : State, exec .modelLoadComplete s = .next (u.cmdDone g.fn g.tag g.idx .eMedia 0) ∧ u.dlr.golden = rest ∧ u.model? g.model = none ∧
        u.mem = s.mem))

/-- R385, R159, R408: a team load that passes its checks takes the lowest team id, places the team and wakes its clusters; the load's end,
with its clusters in RUN, makes the team loaded at turn 0, with the header's RES_TOP and the plate format on every core, or fails where a
source cannot be read or a cluster has left service meanwhile (R246, R252); an unload outside a turn frees its clusters; a role command asks for a role; a load with no free place completes with E_NOROOM, one whose image's header cannot be read with E_MEDIA (the model's choice, log entry 179). -/
def Sys2Proof.Claims.TeamsLoadAndUnload : Prop :=
  (∀ (idx : Word) (d : BitVec 512) (n : Nat) (o shape : Nat × Nat) (s : State),
    let ia := bitsOf d.toNat 128 64
    let r := s.readGddr ia 64
    let h := imageHeader ia r.2.2
    let role := bitsOf d.toNat 94 2
    let origin := bitsOf d.toNat 88 6
    cmdBad d [(64, 32), (128, 64), (192, 64), (256, 14), (288, 64)] = false →
    (∃ x, s.model? (bitsOf d.toNat 64 16) = some x ∧ x.ready = true) → teamShape (bitsOf d.toNat 80 7) = some shape →
    (role = 0 ∨ role = 1) → bitsOf d.toNat 288 32 ≠ 0 → bitsOf d.toNat 320 16 ≠ 0 → bitsOf d.toNat 336 16 ≠ 0 →
    (bitOf d.toNat 87 = true ∨ originOk shape origin = true) → s.stagedAt ia 64 = true → s.gddrOk (bitsOf d.toNat 192 64) 1 = true →
    (r.2.1 ≠ .ok → exec (.teamLoad 0#6 idx d) s = .next (completed 0#6 idx d .eMedia 0 r.1)) ∧
    (r.2.1 = .ok → h.2.2.1 = s.reg Reg.glbDetClass → h.2.1 = 0x41445831 → h.1.clusters = bitsOf d.toNat 80 7 → h.1.badEntry = false →
    s.freeTeam = some n →
    (s.loadPlace shape (bitOf d.toNat 87) origin = some o →
      ∃ t, exec (.teamLoad 0#6 idx d) s = .next t ∧ (t.team n).ox = o.1 ∧ (t.team n).oy = o.2 ∧ (t.team n).cw = shape.1 ∧
        (t.team n).ch = shape.2 ∧ (t.team n).role = role ∧ (t.team n).loading = some (0, bitsOf d.toNat 32 32, idx.toNat) ∧
        (t.team n).loaded = false ∧ t.mem = s.mem ∧ t.cores = s.cores ∧
        (∀ c ∈ clustersAt o.1 o.2 shape.1 shape.2, (t.cluster c).team = some n ∧
          ((s.cluster c).dom = .off → (t.cluster c).wakeReq = true)) ∧
        ∀ k, k ≠ n → t.team k = s.team k) ∧
    (s.loadPlace shape (bitOf d.toNat 87) origin = none →
      exec (.teamLoad 0#6 idx d) s = .next (completed 0#6 idx d .eNoroom 0 r.1)))) ∧
  (∀ (team : BitVec 6) (b : LoadBytes) (srcs : List (LineSrc × Option (List Byte))) (job : Nat × Nat × Nat) (s : State),
    let n := team.toNat
    let tm := s.team n
    tm.loading = some job → (∀ c ∈ tm.clusters, (s.cluster c).dom = .run ∧ (s.cluster c).stopReq = false) →
    ((∀ c ∈ tm.clusters, (s.cluster c).lost = false) → tm.loadBad = false → (s.readSources srcs).2 = none →
      ∃ u : State, exec (.teamLoadComplete team b srcs) s = .next (u.cmdDone job.1 job.2.1 job.2.2 .ok n) ∧ (u.team n).loaded = true ∧
        (u.team n).loading = none ∧ (u.team n).turn = 0 ∧ (u.team n).idle = 0 ∧ (u.team n).model = tm.model ∧
        ∀ m ∈ tm.cores, (u.core m).resTop = tm.resTop ∧ (u.core m).pwkFmt = BitVec.ofNat 32 b.plateFmt) ∧
    ((∀ c ∈ tm.clusters, (s.cluster c).lost = false) → tm.loadBad = true ∨ (s.readSources srcs).2 ≠ none →
      ∃ u : State, exec (.teamLoadComplete team b srcs) s = .next (u.cmdDone job.1 job.2.1 job.2.2 .eMedia 0) ∧ (u.team n).loaded = false ∧
        ∀ c ∈ tm.clusters, (u.cluster c).team = none) ∧
    ((∃ c ∈ tm.clusters, (s.cluster c).lost = true) →
      ∃ u : State, exec (.teamLoadComplete team b srcs) s = .next (u.cmdDone job.1 job.2.1 job.2.2 .eNoroom 0) ∧ (u.team n).loaded = false ∧
        u.mem = s.mem ∧ ∀ c ∈ tm.clusters, (u.cluster c).team = none)) ∧
  (∀ (idx : Word) (d : BitVec 512) (s : State),
    let n := bitsOf d.toNat 64 6
    (s.team n).loaded = true →
    (cmdBad d [(64, 6)] = false → (s.team n).unloading = none → s.bound n = [] → s.jobRuns = false → (s.team n).running = true →
      ∃ t, exec (.teamUnload 0#6 idx d) s = .next t ∧ (t.team n).unloading = some (0, bitsOf d.toNat 32 32, idx.toNat) ∧
        (t.team n).loaded = true ∧ t.mem = s.mem ∧ t.cores = s.cores) ∧
    (cmdBad d [(64, 6)] = false → (s.team n).unloading = none → s.bound n = [] → s.attached n = [] → s.jobRuns = false →
      (s.team n).running = false → s.dlr.switching = none → s.fld (Reg.dlrTeamRst n) 0 1 = 0 →
      ∃ u, exec (.teamUnload 0#6 idx d) s = .next (completed 0#6 idx d .ok 0 u).admitAll ∧ (u.team n).loaded = false ∧
        (∀ c ∈ (s.team n).clusters, (u.cluster c).team = none) ∧ u.mem = s.mem ∧
        (∀ m ∈ (s.team n).cores, u.core m = { s.core m with pwkFmt := 0#32 }) ∧ ∀ m, m ∉ (s.team n).cores → u.core m = s.core m) ∧
    (∀ r, bitsOf d.toNat 70 2 = r → cmdBad d [(64, 8)] = false → r < 2 → s.fld Reg.dlrRoleCfg 0 1 = 0 → s.jobRuns = false →
      ∃ u, exec (.roleSet 0#6 idx d) s = .next (completed 0#6 idx d .ok 0 u) ∧ (u.team n).nextRole = some r ∧
        (u.team n).role = (s.team n).role ∧ u.mem = s.mem))

/-- Models, deltas and teams are loaded and unloaded. -/
def Obligations.ModelsAndTeamsLoad : Prop := Claims.ModelsAndDeltas ∧ Claims.TeamsLoadAndUnload

/-- R382, R389, R399, R413, R397: a GENERATE or REFINE descriptor that passes its checks takes the lowest free slot, QUEUED, with the next
arrival number; one that fails is completed with its first failing check and takes none; a cancel marks a running request, and a queued
request whose deadline has come ends with E_LATE. -/
def Sys2Proof.Claims.RequestsQueueAndCancel : Prop :=
  (∀ (fn : BitVec 6) (idx : Word) (d : BitVec 1024) (kind n : Nat) (s : State),
    let r := reqDescOf (descBytes d)
    let go := fun k => if k = 1 then exec (.generate fn idx d) s else exec (.refine fn idx d) s
    (kind = 1 ∨ kind = 2) →
    (s.freeSlotNo = some n → firstCheck (s.descChecks kind r (s.fld (Reg.fnTenant fn.toNat) 0 6) true) = none →
      ∃ t x, go kind = .next t ∧ t.slot? n = some x ∧ x.st = .queued ∧ x.fn = fn.toNat ∧ x.tag = r.tag ∧ x.model = r.model ∧
        x.refine = (kind == 2) ∧ x.arrival = s.reg Reg.dlrArrival ∧ t.reg Reg.dlrArrival = s.reg Reg.dlrArrival + 1 ∧
        x.promptLen = r.promptLen ∧ x.maxTokens = r.maxTokens ∧ t.mem = s.mem ∧ (∀ k, k ≠ n → t.slot? k = s.slot? k)) ∧
    (∀ st, firstCheck (s.descChecks kind r (s.fld (Reg.fnTenant fn.toNat) 0 6) s.freeSlotNo.isSome) = some st →
      go kind = .next (s.post fn.toNat ringCpl (cplRecord r.tag st false false true 0 0 idx.toNat)))) ∧
  (∀ (fn : BitVec 6) (idx : Word) (d : BitVec 512) (n : Nat) (x : Slot) (s : State), cmdBad d [(64, 32)] = false →
    s.tagged fn.toNat (bitsOf d.toNat 64 32) = [(n, x)] → s.slot? n = some x → x.st ≠ .queued →
    ∃ u, exec (.cancel fn idx d) s = .next (completed fn idx d .ok 1 u) ∧ u.slot? n = some { x with cancel := true } ∧
      (∀ k, k ≠ n → u.slot? k = s.slot? k) ∧ u.mem = s.mem ∧ u.regs = s.regs) ∧
  (∀ (slot : BitVec 13) (rrc : Dword) (x : Slot) (s : State), s.slot? slot.toNat = some x → x.deadline ≠ 0 →
    let s0 := s.setReg Reg.uhlRrc (max (s.reg Reg.uhlRrc) rrc.toNat)
    (x.st = .queued → x.deadline ≤ s0.rackTime → exec (.queuedDeadline slot rrc) s = .next (s0.examineAfter (s0.endReq slot.toNat .eLate))) ∧
    (x.st ≠ .queued ∨ s0.rackTime < x.deadline → exec (.queuedDeadline slot rrc) s = .next s0))

/-- R388, R410: a request that ends goes to ENDING with its status, and its completion names the tokens delivered; one that is ending stays
as it is. -/
def Sys2Proof.Claims.RequestsEnd : Prop :=
  ∀ (n : Nat) (st : Status) (x : Slot) (s : State), s.slot? n = some x →
    (x.st = .ending → s.endReq n st = s) ∧
    (x.st ≠ .ending → x.discard = false →
      ∃ (u : State) (y : Slot), s.endReq n st = u.post x.fn ringCpl (cplRecord x.tag st false x.late false n x.delivered x.descIdx) ∧
        u.slot? n = some y ∧ y.st = .ending ∧ y.result = some st ∧ y.delivered = x.delivered)

/-- Requests queue, are cancelled and end. -/
def Obligations.RequestsAreServed : Prop := Claims.RequestsQueueAndCancel ∧ Claims.RequestsEnd

/-- R418 to R421: a Dealer core's heartbeat advances its word and counts the checks in which its partner's stood still; after ten the partner
is held in reset and this core carries both; a firmware switch of a running pair begins with its odd cores. -/
def Obligations.DealerCores : Prop :=
  (∀ (core : BitVec 4) (s : State),
    let n := core.toNat
    let p := partner n
    s.dealerSt n ≠ 2 →
    ∃ t, exec (.dealerHeartbeat core) s = .next t ∧ look 0 t.dlr.beats n = look 0 s.dlr.beats n + 1 ∧
      look 0 t.dlr.seen p = look 0 s.dlr.beats p ∧
      look 0 t.dlr.stale p = (if look 0 s.dlr.beats p = look 0 s.dlr.seen p then look 0 s.dlr.stale p + 1 else 0) ∧
      t.mem = s.mem ∧ t.regs = s.regs) ∧
  (∀ (core : BitVec 4) (s : State),
    let n := core.toNat
    let p := partner n
    s.dealerSt n ≠ 2 → s.dealerSt p ≠ 2 → 10 ≤ look 0 s.dlr.stale n → look 0 s.dlr.beats n = look 0 s.dlr.seen n →
    ∃ t, exec (.dealerTakeover core) s = .next t ∧ t.dealerSt n = 2 ∧ t.dealerSt p = 1 ∧
      t.reg Reg.dlrTakeoverCnt = s.reg Reg.dlrTakeoverCnt + 1 ∧ t.mem = s.mem ∧ t.teams = s.teams) ∧
  (∀ (idx : Word) (d : BitVec 512) (s : State),
    let slot := bitsOf d.toNat 64 1
    cmdBad d [(64, 1)] = false → s.dlr.switching = none → slot ≠ s.runSlot 2 → (∃ x, find? s.mgt.slots (4 + slot) = some x ∧ x.valid = true) →
    (∃ k, (s.team k).loaded = true ∧ k % 8 = 0 ∧ (k, s.team k) ∈ s.teams) →
    ∃ u ts, exec (.fwSwitch 0#6 idx d) s = .next (completed 0#6 idx d .ok 0 u) ∧ u.dlr.switching = some (slot, 0, ts) ∧
      u.fld (Reg.dlrPairState 0) 5 1 = slot ∧ u.mem = s.mem ∧ u.teams = s.teams)

/-! ## Plates (R358 to R380) -/

namespace Sys2Proof.Claims

/-- A plate of a sequence's working version. -/
def plateAt (s : State) (seq key : Nat) : Option Plate := (s.chain? seq).bind (fun c => plateOf c.shadow key)

/-- LAST_STATUS of PLT_STATUS. -/
def lastStatus (s : State) : Nat := s.fld Reg.pltStatus 12 8

/-- May a staged copy be evicted from a rank of a pool (R372)? -/
def evictable (s : State) (p r seq : Nat) (x : Plate) : Bool :=
  x.tier != 0 && x.staged && !x.wbPend && x.spool == p && x.srank == r && !((s.runningIn seq).isSome && x.mapped == 1) &&
    !s.plt.turns.any (fun t => t.2.prepared.any (fun q => q.1 == seq))

end Sys2Proof.Claims

/-- R358, R359, R377, R379, Table PLT-10: a pool command, a reservation, a release, a lend or a policy that its checks allow has its effect and
LAST_STATUS reads OK; one that a check refuses changes LAST_STATUS only. -/
def Sys2Proof.Claims.PoolsAndReservations : Prop :=
  ∀ (pool : BitVec 6) (s : State),
    let p := pool.toNat
    (∀ (en : Bool) (tier : BitVec 2) (lines : BitVec 20) (team : BitVec 6) (base : Dword) (count : Word), lines ≠ 0#20 → s.takenSlots p = [] →
      (en = false ∨ s.poolClash p tier.toNat lines.toNat team.toNat base.toNat count.toNat = false →
        ∃ t, exec (.poolSet pool en tier lines team base count) s = .next t ∧ t.poolOn p = en ∧ t.poolTier p = tier.toNat ∧
          t.poolLines p = lines.toNat ∧ t.poolTeam p = team.toNat ∧ t.poolBase p = base.toNat ∧ t.poolCount p = count.toNat ∧
          lastStatus t = 0 ∧ t.mem = s.mem ∧ t.plt = s.plt) ∧
      (en = true → s.poolClash p tier.toNat lines.toNat team.toNat base.toNat count.toNat = true →
        ∃ t, exec (.poolSet pool en tier lines team base count) s = .next t ∧ lastStatus t = 2 ∧ t.poolOn p = s.poolOn p ∧
          t.poolCount p = s.poolCount p ∧ t.plt = s.plt)) ∧
    (s.poolOn p = true → ∀ (seq : BitVec 13) (n : Word),
      (s.poolRsv p + n.toNat ≤ s.poolFree p →
        ∃ t, exec (.reserve pool seq n) s = .next t ∧ look 0 (t.pool p).rsv seq.toNat = look 0 (s.pool p).rsv seq.toNat + n.toNat ∧
          (t.pool p).used = (s.pool p).used ∧ lastStatus t = 0 ∧ t.mem = s.mem) ∧
      (s.poolFree p < s.poolRsv p + n.toNat →
        ∃ t, exec (.reserve pool seq n) s = .next t ∧ lastStatus t = 6 ∧ t.plt = s.plt) ∧
      (∃ t : State, exec (.release pool seq n) s = .next (s.examineAfter t) ∧ lastStatus t = 0 ∧ (t.pool p).used = (s.pool p).used ∧
        look 0 (t.pool p).rsv seq.toNat ≤ look 0 (s.pool p).rsv seq.toNat ∧
        look 0 (s.pool p).rsv seq.toNat ≤ look 0 (t.pool p).rsv seq.toNat + n.toNat)) ∧
    (s.poolOn p = true → ∀ (low high demoteTo : BitVec 6) (demoteEn : Bool),
      ∃ t, exec (.policy pool low high demoteTo demoteEn) s = .next t ∧ lastStatus t = 0 ∧ t.fld (Reg.pltPoolWm p) 0 6 = low.toNat ∧
        t.fld (Reg.pltPoolWm p) 8 6 = high.toNat ∧ t.fld (Reg.pltPoolWm p) 16 6 = demoteTo.toNat ∧ t.plt = s.plt) ∧
    (∀ base len : Dword, base.toNat % 32 = 0 → len.toNat % 32 = 0 →
      let meets := fun (k : Nat) => (s.poolSpans (s.poolTier k) (s.poolTeam k) (s.poolBase k) (s.poolCount k * s.poolLines k * 32)).any
        (fun x => overlaps base.toNat len.toNat x.1 x.2)
      ((∀ k, k < 64 → s.poolOn k = true → meets k = false) →
        ∃ t, exec (.lend base len) s = .next t ∧ lastStatus t = 0 ∧ t.plt.lends = s.plt.lends ++ [(base.toNat, len.toNat)] ∧
          t.mem = s.mem) ∧
      (∀ k, k < 64 → s.poolOn k = true → meets k = true →
        ∃ t, exec (.lend base len) s = .next t ∧ lastStatus t = 6 ∧ t.plt = s.plt))

/-- R361, R362, R373, R379: a chain is created with an empty root node where the sequence has none, bound to a team, and freed with its slots and reservations. -/
def Sys2Proof.Claims.ChainsComeAndGo : Prop :=
  ∀ (seq : BitVec 13) (s : State),
    let n := seq.toNat
    (∀ (tenant : BitVec 6) (log2n : BitVec 4) (kvw depth : BitVec 3) (jb : BitVec 5) (lhb : BitVec 4) (hpool : BitVec 6) (lhs : Nat),
      4 ≤ log2n.toNat → log2n.toNat ≤ 12 → lhs ≤ 2 ^ lhb.toNat → jb.toNat + log2n.toNat ≤ 20 →
      depth.toNat = ceilDiv (lhb.toNat + jb.toNat) 6 → 1 ≤ depth.toNat → depth.toNat ≤ 5 → s.poolOn hpool.toNat = true →
      (s.chain? n = none →
        ∃ t, exec (.chainNew seq tenant log2n kvw depth jb lhb hpool lhs) s = .next t ∧ lastStatus t = 0 ∧ t.mem = s.mem ∧
          (let k := freeNumber s.plt.nodes
           let place := s.placeNode s.plt.nodes
           find? t.plt.nodes k = some ⟨place.1, place.2, []⟩ ∧
           t.chain? n = some { tenant := tenant.toNat, log2n := log2n.toNat, kvw := kvw.toNat + 1, depth := depth.toNat, jb := jb.toNat
                               lhb := lhb.toNat, hpool := hpool.toNat, lhs := lhs, root := place.1, tree := [(0, 0, k)]
                               pubTree := [(0, 0, k)] }) ∧
          ∀ k, k ≠ n → t.chain? k = s.chain? k) ∧
      (s.chain? n ≠ none →
        ∃ t, exec (.chainNew seq tenant log2n kvw depth jb lhb hpool lhs) s = .next t ∧ lastStatus t = 4 ∧ t.plt = s.plt)) ∧
    (∀ c, s.chain? n = some c →
      (∃ t : State, exec (.chainFree seq) s = .next (s.examineAfter t) ∧ lastStatus t = 0 ∧ t.chain? n = none ∧ (∀ k, k ≠ n → t.chain? k = s.chain? k) ∧
        (∀ x ∈ t.plt.moves, x.seq ≠ n) ∧ (∀ x ∈ t.plt.staging, x.seq ≠ n) ∧ t.mem = s.mem) ∧
      (∀ team : BitVec 6, s.runningIn n = none → s.teamLoaded team.toNat = true →
        ∃ t, exec (.bind seq team) s = .next t ∧ lastStatus t = 0 ∧ t.chain? n = some { c with team := some team.toNat } ∧
          (∀ x, s.slot? n = some x → t.slot? n = some { x with team := some team.toNat }) ∧ t.mem = s.mem))

/-- R359, R360, R367: PREPARE of a sequence whose plates all stand in the team's own vault pools records the batch and the turn and changes
no plate; a plate that does not exist takes the lowest free slot of its home pool that no other reservation holds; where the pool has none,
or its slots are too small, the allocation is refused and reported, and the plate stays absent. -/
def Sys2Proof.Claims.PrepareAllocates : Prop :=
  (∀ (team spool : BitVec 6) (turn : Dword) (seq : BitVec 13) (hi : Nat) (c : Chain) (s : State),
    let n := seq.toNat
    s.teamLoaded team.toNat = true → s.chain? n = some c → s.sweepChain n = s →
    (∀ k ∈ s.keysOf team.toNat (s.firstPos n c) hi c, ∃ p, plateOf c.shadow k = some p ∧ p.lost = false) →
    (∀ p ∈ c.shadow, p.tier = 0 ∧ s.poolTeam p.hpool = team.toNat) →
    ∃ t, exec (.prepare team spool ⟨turn, [(seq, hi)]⟩) s = .next t ∧ lastStatus t = 0 ∧ (t.turnPlates team.toNat).prepared = [(n, hi)] ∧
      (t.turnPlates team.toNat).turn = turn.toNat ∧ t.plt.chains = s.plt.chains ∧ t.plt.pools = s.plt.pools ∧ t.mem = s.mem) ∧
  (∀ (n team key : Nat) (c : Chain) (s : State), s.chain? n = some c → plateOf c.shadow key = none →
    let p := c.hpool
    let rank := if s.poolTier p = 0 then s.holderOf team c key else 0
    (s.poolLines p < s.plateLinesOf c c.kvw team → s.allocPlate n team key = (s.refuse p .eRange, .eRange)) ∧
    (s.plateLinesOf c c.kvw team ≤ s.poolLines p →
      (∀ k, s.findSlot p rank n = some k → (s.takeSlot p rank k n key c.tenant).2 = .ok →
        (s.allocPlate n team key).2 = .ok ∧ (rank, k, n) ∈ ((s.allocPlate n team key).1.pool p).used ∧
          ∃ x, plateAt (s.allocPlate n team key).1 n key = some x ∧ x.hslot = k ∧ x.hpool = p ∧ x.tent = true ∧ x.lost = false ∧
            x.tier = s.poolTier p) ∧
      (s.findSlot p rank n = none → s.allocPlate n team key = (s.refuse p .eNoroom, .eNoroom))))

/-- R369 to R371, R419: COMMIT of a sequence advances its committed length, sets its tentative length back to it, leaves no plate that lies
below it tentative, and notes the turn;
a second COMMIT of the same turn and attempt, and a DISCARD, change no plate. -/
def Sys2Proof.Claims.CommitAndDiscard : Prop :=
  ∀ (team : BitVec 6) (turn : Dword) (attempt : BitVec 2) (s : State),
    let m := team.toNat
    (∀ (seq : BitVec 13) (len : Nat) (c : Chain), s.chain? seq.toNat = some c → s.sweepChain seq.toNat = s →
      (s.turnPlates m).finished ≠ some (turn.toNat, attempt.toNat) →
      ∃ (t : State) (c' : Chain), exec (.commit team turn attempt [(seq, len)] []) s = .next (s.examineAfter t) ∧ lastStatus t = 0 ∧ t.chain? seq.toNat = some c' ∧
        c'.committed = max c.committed len ∧ (∀ p ∈ c'.shadow, 2 ^ c.log2n * (p.key % 2 ^ c.jb) < len → p.tent = false) ∧
        (∀ p ∈ c'.shadow, ∃ q ∈ c.shadow, q.key = p.key ∧ q.hpool = p.hpool ∧ q.hslot = p.hslot) ∧
        (∀ x, s.slot? seq.toNat = some x → ∃ y, t.slot? seq.toNat = some y ∧ y.tentative = len) ∧
        (t.turnPlates m).finished = some (turn.toNat, attempt.toNat) ∧ t.mem = s.mem) ∧
    (∀ (seqs : List (BitVec 13 × Nat)), (∀ b ∈ seqs, s.chain? b.1.toNat ≠ none) →
      (s.turnPlates m).finished = some (turn.toNat, attempt.toNat) →
      ∃ t, exec (.commit team turn attempt seqs []) s = .next t ∧ lastStatus t = 0 ∧ t.plt = s.plt ∧ t.mem = s.mem) ∧
    (s.teamLoaded m = true →
      ∃ t, exec (.discard team turn attempt) s = .next t ∧ lastStatus t = 0 ∧ t.plt.chains = s.plt.chains ∧ t.plt.pools = s.plt.pools ∧
        (t.turnPlates m).finished = some (turn.toNat, attempt.toNat) ∧ t.mem = s.mem)

/-- PREPARE allocates, COMMIT and DISCARD end what it allocated. -/
def Obligations.PlatesOfATurn : Prop := Claims.PrepareAllocates ∧ Claims.CommitAndDiscard

/-- R374, R375, R378: a move of a plate that may move takes a slot of the destination and marks the plate; when its copy ends on this device
the plate's home is the new slot; a plate marked lost keeps no copy and its copies in progress are dropped. -/
def Sys2Proof.Claims.PlatesMoveAndAreLost : Prop :=
  ∀ (seq : BitVec 13) (key : Nat) (c : Chain) (p : Plate) (s : State),
    let n := seq.toNat
    s.chain? n = some c → plateOf c.shadow key = some p →
    (∀ (pool : BitVec 6) (k : Nat),
      let to_ := pool.toNat
      let team := c.team.getD (s.poolTeam to_)
      let rank := if s.poolTier to_ = 0 then s.holderOf team c p.key else 0
      s.poolOn to_ = true → s.poolTier to_ ≠ 3 → s.movable n p = true → s.plateLinesOf c p.kvw team ≤ s.poolLines to_ →
      (s.findSlot to_ rank n = some k →
        ∃ t, exec (.move seq key pool) s = .next t ∧ lastStatus t = 0 ∧ t.plt.moves = s.plt.moves ++ [⟨n, key, to_, rank, k⟩] ∧
          plateAt t n key = some { p with moving := true } ∧ (rank, k, n) ∈ (t.pool to_).used) ∧
      (s.findSlot to_ rank n = none →
        ∃ t, exec (.move seq key pool) s = .next t ∧ lastStatus t = 6 ∧ t.plt = { s.plt with refusal := some (to_, .eNoroom) })) ∧
    (s.movable n p = false → ∀ pool : BitVec 6, s.poolOn pool.toNat = true → s.poolTier pool.toNat ≠ 3 →
      ∃ t, exec (.move seq key pool) s = .next t ∧ lastStatus t = 5 ∧ t.plt = s.plt) ∧
    (p.lost = false →
      ∃ t : State, exec (.markLost seq key) s = .next (s.examineAfter t) ∧ lastStatus t = 0 ∧ t.reg Reg.pltLostCnt = s.reg Reg.pltLostCnt + 1 ∧
        plateAt t n key = some { p with lost := true, staged := false, wbPend := false, moving := false } ∧
        (∀ x ∈ t.plt.moves, ¬(x.seq = n ∧ x.key = key)) ∧ (∀ x ∈ t.plt.staging, ¬(x.seq = n ∧ x.key = key)) ∧ t.mem = s.mem)

/-- R368, R369, R374: the copy of a staging, of a write-back or of a move between slots of this device ends, no packet of it having failed its
CRC: the destination slot is written with the bytes read, the plate's entry says so, and the copy is counted; a staging or a move whose read
fails loses the plate. -/
def Sys2Proof.Claims.PlateCopiesEnd : Prop :=
  ∀ (seq : BitVec 13) (key : Nat) (c : Chain) (p : Plate) (s : State),
    let n := seq.toNat
    let home := s.slotAddr p.hpool p.homeRank p.hslot
    let len := 32 * s.poolLines p.hpool
    let r := s.getLocal .plates (gLoc home) len
    s.chain? n = some c → plateOf c.shadow key = some p → gDev home = s.devId →
    (∀ use, s.hasFailed n key use = false) →
    (∀ x : PlateCopy, s.plt.staging.find? (fun x => x.seq == n && x.key == key) = some x →
      let s1 := r.1.clearFailed n key [.stage]
      let s2 := { s1 with plt := { s1.plt with staging := s1.plt.staging.filter (fun y => y != x) } }
      let w := s2.writeLocal (gLoc (s.slotAddr x.pool x.rank x.slot)) (r.2.2.take (32 * s.poolLines x.pool))
      gDev (s.slotAddr x.pool x.rank x.slot) = s.devId →
      (r.2.1 = .ok → w.2 = .ok →
        ∃ t, exec (.stagingCopyDone seq key) s = .next t ∧ t.mem = w.1.mem ∧
          plateAt t n key = some { p with staged := true, spool := x.pool, srank := x.rank, sslot := x.slot } ∧
          t.reg Reg.pltStageCnt = w.1.reg Reg.pltStageCnt + 1 ∧ (∀ y ∈ t.plt.staging, y ≠ x)) ∧
      (r.2.1 ≠ .ok → p.lost = false →
        ∃ t q, exec (.stagingCopyDone seq key) s = .next t ∧ t.mem = r.1.mem ∧ plateAt t n key = some q ∧ q.lost = true ∧
          ∀ y ∈ t.plt.staging, y ≠ x)) ∧
    (∀ x, s.plt.writeBacks = [x] → x.1 = n → x.2.1 = key → s.plt.promote = [] →
      let src := gLoc (s.slotAddr p.spool p.srank p.sslot)
      let ls := plateSpan (s.team (c.team.getD (s.poolTeam p.spool))).bytes.plateFmt p.kvw c.log2n x.2.2.1 x.2.2.2
      s.localCheck .plates true (gLoc home) len = none → (s.writeBackLines src (gLoc home) ls).2 = .ok →
      ∃ t : State, exec (.writeBackDone seq key) s = .next (s.examineAfter (t.moveTransit n)) ∧ t.mem = (s.writeBackLines src (gLoc home) ls).1.mem ∧ t.plt.writeBacks = [] ∧
        ∃ q, plateAt t n key = some q ∧ q.wbPend = false ∧ q.hslot = p.hslot) ∧
    (∀ x : PlateCopy, s.plt.moves.find? (fun x => x.seq == n && x.key == key) = some x →
      let dst := s.slotAddr x.pool x.rank x.slot
      let s1 := r.1.clearFailed n key [.moveRead]
      let w := s1.writeLocal (gLoc dst) (r.2.2.take (32 * s.poolLines x.pool))
      gDev dst = s.devId → s.txOf (.plate n key .zero) = [] → s1.localCheck .plates true (gLoc dst) (32 * s.poolLines x.pool) = none →
      (r.2.1 = .ok → w.2 = .ok →
        ∃ (t : State) (q : Plate), exec (.moveComplete seq key false) s = .next (s.examineAfter t) ∧ plateAt t n key = some q ∧ q.hpool = x.pool ∧ q.hslot = x.slot ∧
          q.tier = s.poolTier x.pool ∧ q.moving = false ∧ t.reg Reg.pltMoveCnt = w.1.reg Reg.pltMoveCnt + 1 ∧ t.mem = w.1.mem) ∧
      (r.2.1 ≠ .ok → p.lost = false →
        ∃ (t : State) (q : Plate), exec (.moveComplete seq key false) s = .next (s.examineAfter t) ∧ plateAt t n key = some q ∧ q.lost = true ∧ t.mem = r.1.mem ∧
          ∀ y ∈ t.plt.moves, y ≠ x))

/-- Plates move, are lost, and their copies end. -/
def Obligations.PlatesMove : Prop := Claims.PlatesMoveAndAreLost ∧ Claims.PlateCopiesEnd

/-- R370, R372, R375: while a vault pool is below LOW, a staged copy that no turn needs is evicted and its slot freed, and a plate that may
move starts to the demotion pool; above LOW nothing happens; slots and nodes whose release waited for a turn that has ended are freed. -/
def Sys2Proof.Claims.PoolsMakeRoom : Prop :=
  ∀ (pool : BitVec 6) (rank : BitVec 12) (s : State),
    let p := pool.toNat
    let r := rank.toNat
    (s.lowMark p ≤ s.freeAt p r → exec (.eviction pool rank) s = .next s) ∧
    (s.lowMark p ≤ s.poolFree p → exec (.demotion pool) s = .next s) ∧
    (∀ (n : Nat) (x : Plate), s.poolOn p = true → s.poolTier p = 0 → s.freeAt p r < s.lowMark p → s.freeAt p r < s.highMark p →
      s.byStamp (evictable s p r) = [(n, x)] →
      ∃ t : State, exec (.eviction pool rank) s = .next (s.examineAfter t) ∧ t.reg Reg.pltEvictCnt = s.reg Reg.pltEvictCnt + 1 ∧ t.mem = s.mem ∧
        (∀ u ∈ (t.pool p).used, ¬(u.1 = r ∧ u.2.1 = x.sslot)) ∧
        ∀ c, t.chain? n = some c → ∀ y ∈ c.shadow, y.key = x.key → y.staged = false) ∧
    (∀ (n : Nat) (c : Chain) (x : Plate) (k : Nat),
      let to_ := s.fld (Reg.pltPoolWm p) 16 6
      let team := c.team.getD (s.poolTeam p)
      let at_ := if s.poolTier to_ = 0 then s.holderOf team c x.key else 0
      s.poolOn p = true → s.poolTier p = 0 → s.fld (Reg.pltPoolWm p) 22 1 = 1 → s.poolFree p < s.lowMark p → s.freeSoon p < s.highMark p →
      s.plt.moves = [] → s.byStamp (fun seq x => x.tier == 0 && x.hpool == p && s.movable seq x) = [(n, x)] → s.chain? n = some c →
      s.plateLinesOf c x.kvw team ≤ s.poolLines to_ → s.findSlot to_ at_ n = some k →
      ∃ t, exec (.demotion pool) s = .next t ∧ t.plt.moves = [⟨n, x.key, to_, at_, k⟩]) ∧
    (∀ team : BitVec 6, ∃ t : State, exec (.reclaim team) s = .next (s.examineAfter t) ∧ t.mem = s.mem ∧ t.regs = s.regs ∧
      (∀ d ∈ t.plt.deferred, d ∈ s.plt.deferred ∧ ¬(d.1 = team.toNat ∧ d.2.2.2.2 ≤ (s.turnPlates team.toNat).ended)) ∧
      ∀ d ∈ s.plt.deferred, d.1 = team.toNat → d.2.2.2.2 ≤ (s.turnPlates team.toNat).ended →
        ∀ u ∈ (t.pool d.2.1).used, ¬(u.1 = d.2.2.1 ∧ u.2.1 = d.2.2.2.1)) ∧
    (∀ team : BitVec 6, ∃ t : State, exec (.reclaim team) s = .next (s.examineAfter t) ∧
      ∀ d ∈ s.plt.deferredNodes, d.1 = team.toNat → d.2.2 ≤ (s.turnPlates team.toNat).ended → find? t.plt.nodes d.2.1 = none)

/-- Pools, reservations and chains; pools make room (R353 to R375). -/
def Obligations.PoolsAndChains : Prop := Claims.PoolsAndReservations ∧ Claims.ChainsComeAndGo ∧ Claims.PoolsMakeRoom

/-! ## Links and ports (R424 to R432, R449, R456 to R459, R618) -/

namespace Sys2Proof.Claims

/-- What leaves on a port's link: flits, and the link records that they carry. -/
def OnPort (p : Nat) (o : Out) : Prop := (∃ h i bytes, o = .flit p h i bytes) ∨ ∃ code value, o = .link p code value

/-- Replays of flit `seq` in a row, this one counted (R429). -/
def replayNo (x : Port) (seq : Nat) : Nat := if x.replayed = seq then x.replays + 1 else 1

/-- Every flit that the port keeps from flit `seq` on leaves again in `t`, under its own number (R428). -/
def ResentIn (p seq : Nat) (x : Port) (t : State) : Prop :=
  let d := min x.kept.length ((x.txSeq + 2 ^ 16 - seq) % 2 ^ 16)
  ∀ j f, j < d → x.kept[x.kept.length - d + j]? = some f →
    ∃ h i ack, .flit p h i (f.bytes ack ((x.txSeq + 2 ^ 16 - (d - j)) % 2 ^ 16)) ∈ t.outbox

/-- The port replays from flit `seq`: the replay counts, nothing is renumbered, what is kept from there on leaves again, and at RETRY_LIMIT the
port retrains. -/
def Replays (c : Instr) (p seq : Nat) (s : State) : Prop :=
  let x := s.port p
  ∃ t fs, exec c s = .next t ∧ t.reg (Reg.portRetryCnt p) = s.reg (Reg.portRetryCnt p) + 1 ∧
    (x.idle = true → (t.port p).txSeq = x.txSeq) ∧ (t.port p).acked = x.acked ∧ (t.port p).replayed = seq ∧
    (t.port p).replays = replayNo x seq ∧
    t.portSt p = (if s.fld Reg.ngvCfg 8 8 ≤ replayNo x seq then 3 else 2) ∧ t.mem = s.mem ∧
    t.outbox = s.outbox ++ fs ∧ (∀ o ∈ fs, OnPort p o) ∧
    (replayNo x seq < s.fld Reg.ngvCfg 8 8 → s.portShut p = false → ResentIn p seq x t)

/-- The state after a sequenced flit has passed its CRC, before its payload is taken: what it acknowledges has left the replay buffer, the next
number is expected, its buffer space is free and it is to be reported. -/
def flitPassed (p cls ackinc : Nat) (s : State) : State :=
  ((s.acknowledge p ackinc).updPort p (fun x =>
    { x with rxSeq := (x.rxSeq + 1) % 2 ^ 16, discarding := false, rxFreed := updNth x.rxFreed cls (fun k => (k + 1) % 2 ^ 16)
             unreported := x.unreported + 1 })).bump (Reg.portRxFlits p) 1

end Sys2Proof.Claims

/-- R426: what a codeword's decoding counts, where no flits are to be handed on; one on a lane that is not active carries nothing. -/
def Sys2Proof.Claims.CodewordsAreCounted : Prop :=
  ∀ (port : BitVec 5) (lane : BitVec 3) (header : BitVec 20) (s : State), portWf port = true →
    let p := port.toNat
    let run := fun out => exec (.codewordReceive port ⟨lane, header, out, []⟩) s
    ((∀ r ∈ (s.port p).rounds, r.2.2.2 = []) →
      (∃ t, run .clean = .next t ∧ t.regs = s.regs ∧ t.mem = s.mem ∧ t.outbox = s.outbox) ∧
      (∀ sym, ∃ t, run (.corrected sym) = .next t ∧ t.regs = (s.bump (Reg.portFecCe p) 1).regs ∧ t.mem = s.mem) ∧
      (∃ t, run .uncorrectable = .next t ∧ t.regs = (s.bump (Reg.portFecUe p) 1).regs ∧ t.mem = s.mem)) ∧
    (lane.toNat ∉ s.portLanes p → ∀ flits, exec (.codewordReceive port ⟨lane, header, .clean, flits⟩) s = .next s)

/-- R424: the codeword that completes round `k` of a port with NL active lanes hands the round on: port flit 10 NL k + NL i + q stands in
slot i of the lane of rank q, and the flits of the round are taken in that order. -/
def Sys2Proof.Claims.RoundsAreOrdered : Prop :=
  ∀ (port : BitVec 5) (lane : BitVec 3) (k : Nat) (flits : List (BitVec 512)) (s : State), portWf port = true → k < 8192 →
    let p := port.toNat
    let x := s.port p
    let lanes := s.portLanes p
    let nl := lanes.length
    lane.toNat ∈ lanes → (∀ l ∈ lanes, l ≠ lane.toNat → ∃ fs, (k, l, true, fs) ∈ x.rounds) → (∀ r ∈ x.rounds, r.1 = k → r.2.2.1 = true) →
    ∃ (y : Port) (words : List (Nat × List (BitVec 512))),
      exec (.codewordReceive port ⟨lane, BitVec.ofNat 20 (codewordHeader lane.toNat k), .clean, flits⟩) s =
        .next ((flitsInOrder words y.placed).foldl (fun s f => s.takeFlitBits p f) (s.updPort p (fun _ => y))) ∧
      (lane.toNat, flits) ∈ words ∧ (∀ l fs, (k, l, true, fs) ∈ x.rounds → (l, fs) ∈ words) ∧
      y.placed.length = 10 * nl ∧ (∀ r ∈ y.rounds, r.1 ≠ k) ∧
      (∀ j, j < 10 * nl → y.placed[j]? = some (10 * nl * k + j, lanes.getD (j % nl) 0, j / nl)) ∧
      (flits = [] → (∀ r ∈ x.rounds, r.2.2.2 = []) → flitsInOrder words y.placed = [])

/-- R427, R428, R430, R431, R433: a sequenced flit whose CRC, over payload, link control and the number expected, is right advances that number
and is counted, acknowledges flits, and joins the transaction of its class, which with its last flit is taken; the port answers in the next slot,
with a CREDIT record where nothing waits to be sent. A link record takes effect by its code, and one of a code that is not used is ignored. -/
def Sys2Proof.Claims.FlitsPass : Prop :=
  ∀ (port : BitVec 5) (payload : BitVec 480) (kind cls : BitVec 2) (tail : BitVec 28) (s : State), portWf port = true →
    let p := port.toNat
    let x := s.port p
    let pay := leBytes 60 payload.toNat
    let ack := bitsOf tail.toNat 0 4
    s.portSt p = 2 → bitsOf tail.toNat 4 24 = flitCrc pay kind.toNat cls.toNat ack x.rxSeq →
    let run := exec (.flitReceive port payload kind cls tail) s
    let whole := fun (bs : List Byte) => 60 * flitsOf (dataLength (bitsOf (leAt bs 0 16) 0 4) (bitsOf (leAt bs 0 16) 44 8) (bitsOf (leAt bs 0 16) 56 8))
    let passes := fun (bs : List Byte) =>
      (bs.length < whole bs →
        ∃ t fs, run = .next t ∧ (t.port p).rxSeq = (x.rxSeq + 1) % 2 ^ 16 ∧ (t.port p).discarding = false ∧
          t.reg (Reg.portRxFlits p) = s.reg (Reg.portRxFlits p) + 1 ∧ (t.port p).acked = (x.acked + min ack x.unacked) % 2 ^ 16 ∧
          t.mem = s.mem ∧ (cls.toNat < x.arriving.length → nth [] (t.port p).arriving cls.toNat = bs) ∧
          t.outbox = s.outbox ++ fs ∧ (∀ o ∈ fs, OnPort p o) ∧ fs ≠ [] ∧
          (x.idle = true → x.resend = 0 → x.told = x.rxFreed → x.rxFreed.length = 4 →
            ∃ h i, fs = [.link p 1 (creditWord (t.port p).rxFreed),
              .flit p h i ((⟨3, 0, recordPayload 1 (creditWord (t.port p).rxFreed)⟩ : Flit).bytes (min 15 (x.unreported + 1)) 0)])) ∧
      (whole bs ≤ bs.length →
        let w := leAt bs 0 16
        run = .next ((((flitPassed p cls.toNat ack s).updPort p (fun x => { x with arriving := setNth x.arriving cls.toNat [] })).takeTx p
          (bitsOf w 0 4) (hdrOfWord w ((bs.drop 16).take (dataLength (bitsOf w 0 4) (bitsOf w 44 8) (bitsOf w 56 8))))).answerSlot p))
    (kind = 1#2 → passes pay) ∧
    (kind = 2#2 → nth [] x.arriving cls.toNat ≠ [] → passes (nth [] x.arriving cls.toNat ++ pay)) ∧
    (kind = 3#2 →
      (leAt pay 0 1 = 1 → ∃ t, run = .next t ∧ (t.port p).freed = (List.range 4).map (fun c => leAt pay (2 + 2 * c) 2) ∧
        (t.port p).rxSeq = x.rxSeq ∧ t.mem = s.mem) ∧
      (leAt pay 0 1 = 3 → ∃ t, run = .next t ∧ t.reg (Reg.portPeerSerial p) = leAt pay 8 8 ∧ t.fld (Reg.portPeer p) 0 12 = leAt pay 16 2 % 4096 ∧
        t.fld (Reg.portPeer p) 18 1 = 1 ∧ t.mem = s.mem) ∧
      (leAt pay 0 1 = 0 ∨ 5 < leAt pay 0 1 → run = .next ((s.acknowledge p ack).answerSlot p))) ∧
    (kind = 0#2 → run = .next ((s.acknowledge p ack).answerSlot p))

/-- R427 to R429, R465: a flit whose CRC is wrong is dropped and counted; for a sequenced one a RETRY record goes, once, and nothing sequenced is
taken until the expected flit comes; a RETRY or an expired replay timer makes the sender replay, unless the port is held; the receiver repeats
its RETRY. -/
def Sys2Proof.Claims.FlitsAndReplay : Prop :=
  ∀ (port : BitVec 5) (s : State), portWf port = true →
    let p := port.toNat
    let x := s.port p
    (s.portSt p = 2 →
      (∀ (payload : BitVec 480) (kind cls : BitVec 2) (tail : BitVec 28),
        bitsOf tail.toNat 4 24 ≠ flitCrc (leBytes 60 payload.toNat) kind.toNat cls.toNat (bitsOf tail.toNat 0 4) x.rxSeq →
        (kind = 1#2 ∨ kind = 2#2 → x.discarding = false →
          ∃ t h i, exec (.flitReceive port payload kind cls tail) s = .next t ∧ (t.port p).discarding = true ∧ (t.port p).rxSeq = x.rxSeq ∧
            t.reg (Reg.portCrcCnt p) = s.reg (Reg.portCrcCnt p) + 1 ∧ t.mem = s.mem ∧
            t.outbox = s.outbox ++ [.link p 2 x.rxSeq, .flit p h i ((⟨3, 0, recordPayload 2 x.rxSeq⟩ : Flit).bytes (min 15 x.unreported) 0)]) ∧
        (kind = 0#2 ∨ kind = 3#2 ∨ x.discarding = true →
          exec (.flitReceive port payload kind cls tail) s = .next (s.bump (Reg.portCrcCnt p) 1))) ∧
      (x.discarding = true → exec (.retryRepeat port) s = .next (s.sendRecord p 2 x.rxSeq)) ∧
      (s.portHeld p = false →
        (∀ expected : BitVec 16, (expected.toNat + 2 ^ 16 - x.acked) % 2 ^ 16 < x.unacked →
          Replays (.retry port expected) p expected.toNat s) ∧
        (x.txSeq ≠ x.acked → Replays (.replayTimeout port) p x.acked s)) ∧
      (s.portHeld p = true → (∀ expected, exec (.retry port expected) s = .next s) ∧ exec (.replayTimeout port) s = .next s))

/-- Codewords are counted and put in order, flits are acknowledged and replayed (R424 to R429). -/
def Obligations.LinkErrorsAndReplay : Prop :=
  Claims.CodewordsAreCounted ∧ Claims.RoundsAreOrdered ∧ Claims.FlitsPass ∧ Claims.FlitsAndReplay

/-- R429, R456, R457, R587: a port that is UP and loses lane alignment retrains, and comes back UP or trains in full; a training ends UP on all
eight lanes or on the lowest six that both ends can use, or DOWN; with PLL4 off its setting of Table CLK-4 no training comes UP; a DOWN port
that is enabled trains again after 64 ticks. -/
def Obligations.PortsTrainAndRetrain : Prop :=
  ∀ (port : BitVec 5) (s : State), portWf port = true →
    let p := port.toNat
    let x := s.port p
    (s.portSt p = 2 → ∃ t, exec (.portRetrain port none) s = .next t ∧ t.portSt p = 3 ∧ t.fab = s.fab ∧ t.mem = s.mem ∧
      t.reg (Reg.portRetrainCnt p) = s.reg (Reg.portRetrainCnt p) + 1) ∧
    (s.portSt p = 3 →
      (s.linesTrain = true →
        ∃ t, exec (.portRetrain port (some true)) s = .next t ∧ t.portSt p = 2 ∧ (t.port p).replays = 0 ∧ (t.port p).acked = x.acked ∧
          (t.port p).rxSeq = x.rxSeq ∧ t.mem = s.mem ∧
          (x.unacked ≠ 0 → s.portShut p = false →
            t.reg (Reg.portRetryCnt p) = s.reg (Reg.portRetryCnt p) + 1 ∧ ResentIn p x.acked x t)) ∧
      (∀ passed : Bool, passed = false ∨ s.linesTrain = false →
        ∃ t, exec (.portRetrain port (some passed)) s = .next t ∧ t.portSt p = 1 ∧ (t.port p).trained = x.trained + 1)) ∧
    (s.portSt p = 1 →
      (∀ l : BitVec 8, ∃ t, exec (.lanes port l) s = .next t ∧ (t.port p).peerLanes = l.toNat ∧ t.regs = s.regs ∧ t.mem = s.mem) ∧
      (∀ (passed : Bool) (usable : BitVec 8),
        let both := onesOf 8 (Nat.land (Nat.land usable.toNat (s.fld (Reg.portCtrl p) 2 8)) x.peerLanes)
        (passed = true → ∃ t, exec (.portTraining port passed usable) s = .next t ∧
          .link p 4 (Nat.land usable.toNat (s.fld (Reg.portCtrl p) 2 8)) ∈ t.outbox) ∧
        (passed = true → s.linesTrain = true → both.length = 8 →
          ∃ t, exec (.portTraining port passed usable) s = .next t ∧ t.portSt p = 2 ∧ t.fld (Reg.portStatus p) 3 8 = 255 ∧
            t.fld (Reg.portStatus p) 11 1 = 0 ∧ t.mem = s.mem ∧ (t.port p).txSeq = 0 ∧ (t.port p).rxSeq = 0) ∧
        (passed = true → s.linesTrain = true → both.length = 6 ∨ both.length = 7 →
          ∃ t, exec (.portTraining port passed usable) s = .next t ∧ t.portSt p = 2 ∧
            onesOf 8 (t.fld (Reg.portStatus p) 3 8) = both.take 6 ∧ t.fld (Reg.portStatus p) 11 1 = 1 ∧ t.mem = s.mem) ∧
        (passed = false ∨ s.linesTrain = false ∨ both.length < 6 →
          ∃ t, exec (.portTraining port passed usable) s = .next t ∧ t.portSt p = 4 ∧ (t.port p).downTick = s.reg Reg.glbTicks ∧
            t.reg Reg.fltSerial = s.reg Reg.fltSerial + 1 ∧ t.mem = s.mem))) ∧
    (s.portSt p = 4 → s.fld (Reg.portCtrl p) 0 1 = 1 → s.fld (Reg.portPrbs p) 0 1 = 0 → s.fld Reg.pwrStatus 0 2 = 0 →
      x.downTick + 64 ≤ s.reg Reg.glbTicks →
      ∃ t, exec (.portDownRetry port) s = .next t ∧ t.portSt p = 1 ∧ (t.port p).trained = x.trained + 1 ∧ t.mem = s.mem)

/-- R430, R431, R448, R449, R452, R456, R459, R618: the records of the partner, and the host's writes of the port, destination and identity
registers, each with the conditions under which it is turned away. -/
def Obligations.LinkRecordsAndPortRegisters : Prop :=
  ∀ (port : BitVec 5) (s : State), portWf port = true →
    let p := port.toNat
    (s.portSt p = 2 →
      (∀ c0 c1 c2 c3 : BitVec 16, ∃ t, exec (.credit port c0 c1 c2 c3) s = .next t ∧
        (t.port p).freed = [c0.toNat, c1.toNat, c2.toNat, c3.toNat] ∧ (t.port p).rxSeq = (s.port p).rxSeq ∧ t.mem = s.mem) ∧
      (∀ (serial : BitVec 64) (id : BitVec 12) (valid : Bool) (peer : BitVec 5), ∃ t, exec (.ident port serial id valid peer) s = .next t ∧
        t.fld (Reg.portPeer p) 0 12 = id.toNat ∧ t.fld (Reg.portPeer p) 12 1 = bit valid ∧ t.fld (Reg.portPeer p) 13 5 = peer.toNat ∧
        t.fld (Reg.portPeer p) 18 1 = 1 ∧ t.reg (Reg.portPeerSerial p) = serial.toNat ∧ t.mem = s.mem) ∧
      (∀ stamp : BitVec 64, exec (.echo port stamp none) s = .next (s.sendRecord p 5 stamp.toNat)) ∧
      (∀ (stamp : BitVec 64) (rtt : BitVec 32), exec (.echo port stamp (some rtt)) s = .next (s.setReg (Reg.portRtt p) rtt.toNat))) ∧
    (∀ (d : BitVec 12) (v : Dword), Writable s 0#6 (Reg.ngvDest d.toNat) →
      exec (.ngvDest 0#6 d v) s = .next (if bitsOf v.toNat 49 15 = 0 then s.setReg (Reg.ngvDest d.toNat) v.toNat
        else s.reject 0 .eArg 0 (Reg.ngvDest d.toNat) false)) ∧
    (∀ v : Word, Writable s 0#6 Reg.ngvId → bitsOf v.toNat 13 19 = 0 →
      (s.fld Reg.ngvId 12 1 = 0 ∨ v.toNat % 4096 = s.devId ∧ (bitOf v.toNat 12 = true ∨ s.anyTeam = false) →
        ∃ t, exec (.ngvId 0#6 v) s = .next t ∧ t.reg Reg.ngvId = v.toNat ∧ t.regs = (s.setReg Reg.ngvId v.toNat).regs ∧ t.mem = s.mem) ∧
      (s.fld Reg.ngvId 12 1 = 1 → v.toNat % 4096 ≠ s.devId →
        exec (.ngvId 0#6 v) s = .next (s.reject 0 .eState 0 Reg.ngvId false))) ∧
    (∀ v : Word, Writable s 0#6 (Reg.portCtrl p) → bitsOf v.toNat 10 22 = 0 →
      (bitOf v.toNat 0 = false → ∃ t, exec (.portCtrl 0#6 port v) s = .next t ∧ t.portSt p = 0 ∧ t.reg (Reg.portCtrl p) = v.toNat ∧
        t.mem = s.mem) ∧
      (bitOf v.toNat 0 = true → s.fld (Reg.portCtrl p) 0 1 = 0 → s.fld (Reg.portPrbs p) 0 1 = 0 → s.fld Reg.pwrStatus 0 2 = 0 →
        ∃ t, exec (.portCtrl 0#6 port v) s = .next t ∧ t.portSt p = 1 ∧ t.reg (Reg.portCtrl p) = v.toNat ∧ t.mem = s.mem)) ∧
    (∀ v : Word, Writable s 0#6 (Reg.portCred p) →
      let us := (List.range 4).map (fun c => bitsOf v.toNat (8 * c) 8)
      ((∀ u ∈ us, 0 < u) → us.sum ≤ 128 → s.portSt p = 0 →
        exec (.portCred 0#6 port v) s = .next (s.setReg (Reg.portCred p) v.toNat)) ∧
      ((∀ u ∈ us, 0 < u) → us.sum ≤ 128 → s.portSt p ≠ 0 →
        exec (.portCred 0#6 port v) s = .next (s.reject 0 .eBusy 0 (Reg.portCred p) false)) ∧
      (0 ∈ us ∨ 128 < us.sum → exec (.portCred 0#6 port v) s = .next (s.reject 0 .eRange 0 (Reg.portCred p) false))) ∧
    (∀ v : Word, Writable s 0#6 (Reg.portPrbs p) → bitsOf v.toNat 11 21 = 0 →
      (bitOf v.toNat 0 = true → s.portSt p = 0 ∨ s.portSt p = 4 →
        ∃ t, exec (.portPrbs 0#6 port v) s = .next t ∧ t.fld (Reg.portPrbs p) 0 3 = v.toNat % 8 ∧ t.fld (Reg.portPrbs p) 3 8 = 0 ∧
          t.reg (Reg.portPrbsErr p) = 0 ∧ t.portSt p = s.portSt p ∧ t.mem = s.mem) ∧
      (bitOf v.toNat 0 = true → s.portSt p ≠ 0 → s.portSt p ≠ 4 →
        exec (.portPrbs 0#6 port v) s = .next (s.reject 0 .eBusy 0 (Reg.portPrbs p) false)))

/-! ## The fabric (R433 to R447, R451, R453, R465 to R467) -/

namespace Sys2Proof.Claims

/-- A well-formed transaction for this device, from another, on a port that is UP and not held (R448, R465). -/
def Reaches (port : BitVec 5) (h : Hdr) (s : State) : Prop :=
  portWf port = true ∧ h.wf = true ∧ s.fld Reg.ngvId 12 1 = 1 ∧ s.portSt port.toNat = 2 ∧ h.dst = s.devId ∧ h.src ≠ s.devId ∧
    s.portHeld port.toNat = false

/-- The response `op` with a status and data leaves for the requester under its tag, where a route to it is open (R434). `s` is the state
after the request's own access. -/
def Answers (h : Hdr) (op : Nat) (st : Status) (data : List Byte) (s t : State) : Prop :=
  ∀ p, s.routeTo h.src h.cls h.tag = some p →
    ∃ r fs, t.outbox = s.outbox ++ .tx p op r :: fs ∧ (∀ o ∈ fs, OnPort p o) ∧ r.lines = data.length / 32 - 1 ∧ r.tag = h.tag ∧ r.cls = h.cls ∧ r.src = s.devId ∧ r.dst = h.src ∧
      r.status = statusCode st ∧ r.data = data

/-- A request that is refused: its response carries the status and counts where it can be sent, and it changes no memory. -/
def Refused (c : Instr) (h : Hdr) (op : Nat) (st : Status) (s : State) : Prop :=
  ∃ t, exec c s = .next t ∧ t.mem = s.mem ∧ Answers h op st [] s t ∧
    t.reg Reg.ngvRejectCnt = s.reg Reg.ngvRejectCnt + bit (s.routeTo h.src h.cls h.tag).isSome

/-- A request that writes bytes: memory is as the write leaves it, and the request counts and is acknowledged, or refused where the write
fails. -/
def Writes (c : Instr) (h : Hdr) (w : State × Status) (s : State) : Prop :=
  ∃ t, exec c s = .next t ∧ t.mem = w.1.mem ∧ Answers h 9 w.2 [] w.1 t ∧
    t.reg Reg.ngvRxCnt = w.1.reg Reg.ngvRxCnt + (if w.2 = .ok then 1 else 0) ∧
    t.reg Reg.ngvRejectCnt = w.1.reg Reg.ngvRejectCnt + (if w.2 = .ok then 0 else bit (w.1.routeTo h.src h.cls h.tag).isSome)

/-- Nothing is wrong with a vault line and nothing waits for it: no stored error, no poison, no request in its queue, and no write of its core
in the cycle in which it is served (R263, R270). -/
def SoundLine (s : State) (v line : Nat) : Prop :=
  s.storedErr v line = ([], 0#3) ∧ s.vpoison.contains (poisonKey v line) = false ∧ look [] s.bgq v = [] ∧ s.bgOf .command = [] ∧
    s.bgWaits .command = false ∧ s.lineTaken v line (s.bgSlot v (s.bgNow v)) = none

end Sys2Proof.Claims

/-- R434, R438, R440, R442: a READ, a WRITE, an ATOMIC_ADD and a SIGNAL that pass the checks have their effect and are answered; one that
fails a check is answered with its status and changes nothing in memory. -/
def Sys2Proof.Claims.FabricRequestsExecute : Prop :=
  ∀ (port : BitVec 5) (h : Hdr) (s : State), Reaches port h s →
    let len := 32 * (h.lines + 1)
    let r := s.readLocal h.addr len
    (inApertures h.addr = false → s.localCheck (.remote h.src) false h.addr len = none →
      ∃ t, exec (.read port h) s = .next t ∧ t.mem = r.1.mem ∧ Answers h 8 r.2.1 (if r.2.1 = .ok then r.2.2 else []) r.1 t ∧
        t.reg Reg.ngvRxCnt = r.1.reg Reg.ngvRxCnt + (if r.2.1 = .ok then 1 else 0)) ∧
    (inApertures h.addr = false → ∀ st, st ≠ .ok → s.localCheck (.remote h.src) false h.addr len = some st →
      Refused (.read port h) h 8 st s) ∧
    (s.localCheck (.remote h.src) true h.addr (bodyOf h).length = none → Writes (.write port h) h (s.writeLocal h.addr (bodyOf h)) s) ∧
    (s.localCheck (.remote h.src) true h.addr len = none → r.2.1 = .ok →
      Writes (.atomicAdd port h) h (r.1.writeLocal h.addr (addWords (h.asub == 1) r.2.2 (bodyOf h))) s) ∧
    (∀ st, st ≠ .ok → s.localCheck (.remote h.src) true h.addr (bodyOf h).length = some st → Refused (.write port h) h 9 st s) ∧
    (∀ st, st ≠ .ok → s.localCheck (.remote h.src) true h.addr len = some st → Refused (.atomicAdd port h) h 9 st s) ∧
    (s.mayReach (.remote h.src) true 0 32 = some true →
      let c := h.addr % 256
      let v := h.addr / 256 % 2 ^ 32
      ∃ t, exec (.signal port h) s = .next t ∧ t.reg (Reg.ngvSig c) = (s.reg (Reg.ngvSig c) + v) % 2 ^ 32 ∧
        t.dlr.mailbox = s.dlr.mailbox ++ [(c, v)] ∧ t.mem = s.mem ∧ Answers h 9 .ok [] s t) ∧
    (s.mayReach (.remote h.src) true 0 32 = some false → Refused (.signal port h) h 9 .ePerm s)

/-- R256, R264, R270, R291, R292, R438: an access of the local address space by the fabric, by DMA or by the plate manager reads and writes the bytes
of a region, of control-plane SRAM and of a vault line, where nothing is wrong with them. -/
def Sys2Proof.Claims.LocalMemory : Prop :=
  ∀ (a : Nat) (s : State), s.mem.wf = true →
    (inVaults a = false → SoundGddr s →
      (∀ len, (s.readLocal a len).2 = (.ok, s.mem.read a len) ∧ (s.readLocal a len).1.mem = s.mem) ∧
      (∀ bs, (s.writeLocal a bs).2 = .ok ∧ (s.writeLocal a bs).1.mem = s.mem.write a bs)) ∧
    (inVaults a = true → SoundLine s (a / 2 ^ 24) (a % 2 ^ 24 / 32) →
      (∀ len, 0 < len → a % 32 + len ≤ 32 →
        (s.readLocal a len).2 = (.ok, s.mem.read a len) ∧ (s.readLocal a len).1.mem = s.mem) ∧
      (∀ bs, bs ≠ [] → a % 32 + bs.length ≤ 32 → (s.writeLocal a bs).2 = .ok ∧ (s.writeLocal a bs).1.mem = s.mem.write a bs))

/-- R441, R451, R453, R466: a COPY onto this device moves its lines; a transaction for another member of the slice leaves with one hop less,
one without hops is dropped and counted. -/
def Sys2Proof.Claims.CopiesAndTransit : Prop :=
  (∀ (port : BitVec 5) (h : Hdr) (s : State), Reaches port h s →
    let len := 32 * (h.lines + 1)
    let g := leNat (h.data.take 8)
    let dst := bitsOf g 0 48
    let r := s.readLocal h.addr len
    (bitsOf g 52 12 = s.devId → s.copyChecks h.src h.addr len g = none → r.2.1 = .ok →
      Writes (.copy port h) h (r.1.writeLocal dst r.2.2) s) ∧
    (∀ st, st ≠ .ok → s.copyChecks h.src h.addr len g = some st → Refused (.copy port h) h 9 st s) ∧
    (s.mayReach (.remote h.src) true h.addr len ≠ some true → s.copyChecks h.src h.addr len g = some .ePerm)) ∧
  (∀ (port : BitVec 5) (op : BitVec 4) (h : Hdr) (s : State), portWf port = true → h.wf = true → s.fld Reg.ngvId 12 1 = 1 →
    s.portSt port.toNat = 2 → h.dst ≠ s.devId → s.portHeld port.toNat = false → s.sliceSt ≠ 0 → s.member h.src = true →
    s.member h.dst = true →
    (∀ q, 0 < h.hops → s.routeTo h.dst h.cls (if isRequest op.toNat then h.addr / 8192 else h.tag) = some q →
      ∃ t fs, exec (.transitForward port op h) s = .next t ∧ t.outbox = s.outbox ++ .tx q op.toNat { h with hops := h.hops - 1 } :: fs ∧
        (∀ o ∈ fs, OnPort q o) ∧ t.mem = s.mem ∧ t.reg Reg.ngvRxCnt = s.reg Reg.ngvRxCnt) ∧
    (h.hops = 0 → exec (.transitForward port op h) s = .next (s.bump Reg.ngvTtlDropCnt 1)))

/-- Fabric requests that this device executes or forwards (R434, R438 to R442, R453). -/
def Obligations.FabricTransactions : Prop := Claims.FabricRequestsExecute ∧ Claims.LocalMemory ∧ Claims.CopiesAndTransit

/-- R447: a READ of an aperture is answered with lines of OUT from the same offset where the context is COMPLETE under its tag, refused where a
newer tag was adopted, and held where the context is EMPTY, is older, or has not completed its tag. -/
def Sys2Proof.Claims.ApertureReads : Prop :=
  ∀ (port : BitVec 5) (h : Hdr) (s : State), Reaches port h s → inApertures h.addr = true →
    let c := ctxOf h.addr
    let len := 32 * (h.lines + 1)
    s.mayReach (.remote h.src) false h.addr len = some true → s.ctx c 0 1 = 1 → h.addr % 0x2000 + len ≤ 32 * (s.ctx c 9 8 + 1) →
    let held := exec (.read port h) s = .next { s with fab := { s.fab with heldReads := s.fab.heldReads ++ [h] } }
    (s.ctx c 206 2 = 2 → s.tagOrder c h.turn h.att = .eq →
      let r := s.readLocal (s.ctx c 64 48 + h.addr % 0x2000) len
      ∃ t, exec (.read port h) s = .next t ∧ t.mem = r.1.mem ∧ Answers h 8 r.2.1 (if r.2.1 = .ok then r.2.2 else []) r.1 t) ∧
    (s.ctx c 206 2 ≠ 0 → s.tagOrder c h.turn h.att = .lt → Refused (.read port h) h 8 .eRange s) ∧
    (s.ctx c 206 2 = 0 ∨ s.tagOrder c h.turn h.att = .gt ∨ (s.tagOrder c h.turn h.att = .eq ∧ s.ctx c 206 2 ≠ 2) → held)

/-- R443 to R445: the first contribution of rank 0 to an EMPTY context of two ranks or more adopts its tag and becomes OUT; a stale one is
refused and counted; one of a rank that is not due is parked. -/
def Sys2Proof.Claims.ReductionContributions : Prop :=
  ∀ (port : BitVec 5) (h : Hdr) (s : State), Reaches port h s → s.mayReach (.remote h.src) true h.addr 32 = some true →
    inApertures h.addr = true → h.addr % 0x2000 = 0 →
    let c := ctxOf h.addr
    let len := 32 * (h.lines + 1)
    s.ctx c 0 1 = 1 → h.lines = s.ctx c 9 8 → s.fab.heldReads = [] → SoundGddr s → s.mem.wf = true → ∀ r, s.rankOf c h.src = some r →
    (s.ctx c 206 2 = 0 → r = 0 → 0 < s.ctx c 3 6 → inVaults (s.ctx c 64 48) = false →
      ∃ t, exec (.reduce port h) s = .next t ∧ t.mem = s.mem.write (s.ctx c 64 48) ((bodyOf h ++ zeroBytes len).take len) ∧
        t.ctx c 206 2 = 1 ∧ t.ctx c 208 7 = 1 ∧ t.ctx c 256 1 = 1 ∧ t.ctx c 192 12 = h.turn ∧ t.ctx c 204 2 = h.att) ∧
    (s.ctx c 206 2 = 1 → s.tagOrder c h.turn h.att = .eq → s.ctx c (256 + r) 1 = 0 → s.ctx c 208 7 < r → r ≤ s.ctx c 3 6 →
      inVaults (s.ctx c 128 48 + (r - 1) * len) = false →
      ∃ t, exec (.reduce port h) s = .next t ∧
        t.mem = s.mem.write (s.ctx c 128 48 + (r - 1) * len) ((bodyOf h ++ zeroBytes len).take len) ∧
        t.ctx c 206 2 = 1 ∧ t.ctx c 208 7 = s.ctx c 208 7 ∧ t.ctx c (256 + r) 1 = 1) ∧
    (s.ctx c 206 2 ≠ 0 → s.tagOrder c h.turn h.att = .lt →
      ∃ t, exec (.reduce port h) s = .next t ∧ t.mem = s.mem ∧ t.reg Reg.ngvRedStaleCnt = s.reg Reg.ngvRedStaleCnt + 1 ∧
        t.reg Reg.ngvRejectCnt = s.reg Reg.ngvRejectCnt + bit (s.routeTo h.src h.cls h.tag).isSome)

/-- R434 to R437: a response completes the outstanding request of its tag, and a READ's data goes to the data memory that its descriptor
names; a request without a response ends in E_TIMEOUT and its tag stays out of use until its hold ends; a response to such a tag only counts. -/
def Sys2Proof.Claims.ResponsesCompleteRequests : Prop :=
  ∀ (port : BitVec 5) (h : Hdr) (s : State), (∀ x ∈ s.fab.outs, x.sent = true) →
    let found := fun (rd : Bool) (tag : Nat) =>
      s.fab.outs.find? (fun x => x.sent && x.done.isNone && readSpace x.op == rd && x.hdr.tag == tag)
    (∀ (x : FabTx) (core q idx : Nat) (d : DmaDesc), Reaches port h s → x.owner = .dma core q idx → s.desc? core q idx = some d →
      (found true h.tag = some x → statusOf h.status = .ok → d.kind = 0 → d.plate = none →
        ∃ t, exec (.rdrsp port h) s = .next t ∧ t.mem = s.mem.write (dmAddr core (d.dmAddr + x.off)) h.data ∧
          { x with done := some .ok, got := h.data } ∈ t.fab.outs ∧ t.regs = s.regs ∧ t.cores = s.cores) ∧
      (found false h.tag = some x →
        ∃ t, exec (.ack port h) s = .next t ∧ t.mem = s.mem ∧ { x with done := some (statusOf h.status), got := [] } ∈ t.fab.outs ∧
          t.regs = s.regs ∧ t.cores = s.cores)) ∧
    (Reaches port h s →
      (found true h.tag = none → s.fab.held.contains (true, h.tag) = true →
        exec (.rdrsp port h) s = .next (s.bump Reg.ngvLateRspCnt 1)) ∧
      (found false h.tag = none → s.fab.held.contains (false, h.tag) = true →
        exec (.ack port h) s = .next (s.bump Reg.ngvLateRspCnt 1))) ∧
    (∀ (rd : Bool) (tag : BitVec 12) (x : FabTx) (core q idx : Nat) (d : DmaDesc), found rd tag.toNat = some x →
      x.owner = .dma core q idx → s.desc? core q idx = some d →
      ∃ t, exec (.transactionTimeout rd tag) s = .next t ∧ (rd, tag.toNat) ∈ t.fab.held ∧
        { x with done := some .eTimeout, got := [] } ∈ t.fab.outs ∧ t.reg Reg.ngvTimeoutCnt = s.reg Reg.ngvTimeoutCnt + 1 ∧
        t.mem = s.mem) ∧
    (∀ (rd : Bool) (tag : BitVec 12), ∃ t, exec (.tagHoldExpiry rd tag) s = .next t ∧
      t.fab.held = s.fab.held.filter (fun y => y != (rd, tag.toNat)) ∧ t.fab.outs = s.fab.outs ∧ t.mem = s.mem ∧ t.regs = s.regs)

/-- Reduction contexts, and the responses to this device's requests (R434 to R437, R443 to R447). -/
def Obligations.ReductionsAndResponses : Prop := Claims.ReductionContributions ∧ Claims.ApertureReads ∧ Claims.ResponsesCompleteRequests

/-! ## Slices (R463 to R480) -/

namespace Sys2Proof.Claims

/-- Rank `f` has left the slice: it is no longer live or a member, its ranks are carried by its successor, and the slice is DETOUR. -/
def RankLeft (f : Nat) (s t : State) : Prop :=
  t.sliceSt = 2 ∧ t.rankLive f = false ∧ t.fld (Reg.slcRank f) 13 1 = 1 ∧ t.member (s.rankDev f) = false ∧
    t.fld Reg.slcStatus 4 8 = s.fld Reg.slcStatus 4 8 - 1 ∧ t.dlr.cuts = [] ∧ t.mem = s.mem ∧
    ∀ r, r < s.slcSize → t.fld (Reg.slcRank r) 15 7 =
      (if s.fld (Reg.slcRank r) 15 7 = f then s.successor f else s.fld (Reg.slcRank r) 15 7)

/-- A live rank other than 0, in a slice of T2 shape that runs, with no loss before it, no turn running and no request held. -/
def CanLeave (f : Nat) (s : State) : Prop :=
  (s.sliceSt = 1 ∨ s.sliceSt = 2) ∧ f ≠ 0 ∧ f < s.slcSize ∧ s.slcSize ≤ 128 ∧ s.rankLive f = true ∧ s.t2Shape = true ∧ s.dlr.cuts = [] ∧
    s.dlr.slots = [] ∧ ∀ x ∈ s.teams, x.2.running = false

/-- LAST_STATUS of SLC_CTRL. -/
def slcLast (s : State) : Nat := s.fld Reg.slcStatus 12 8

end Sys2Proof.Claims

/-- R463, R464, R469, R474 to R476, R479, R480: ACTIVATE makes every listed device a member carried by its own rank; DISSOLVE clears every
member; a lost rank other than 0 leaves a slice of T2 shape, and one of another shape breaks the slice; RESTORE ends DETOUR; a command whose
check fails changes only its status and the record of the rejection. -/
def Obligations.SliceCommands : Prop :=
  ∀ s : State,
    (Writable s 0#6 Reg.slcCtrl →
      (firstCheck s.activateChecks = none →
        ∃ t, exec (.activate 0#6) s = .next t ∧ t.sliceSt = 1 ∧ t.fld Reg.slcStatus 4 8 = s.slcSize ∧ slcLast t = 0 ∧ t.mem = s.mem ∧
          ∀ r, r < s.slcSize → t.member (s.rankDev r) = true ∧ t.fld (Reg.slcRank r) 15 7 = r) ∧
      (∀ st, firstCheck s.activateChecks = some st →
        ∃ t, exec (.activate 0#6) s = .next t ∧ t.sliceSt = s.sliceSt ∧ slcLast t = statusCode st ∧
          t.reg Reg.hstRejCnt = s.reg Reg.hstRejCnt + 1 ∧ t.mem = s.mem) ∧
      (s.dlr.slots = [] → s.sliceSt ≠ 0 →
        ∃ t, exec (.dissolve 0#6) s = .next t ∧ t.sliceSt = 0 ∧ t.fld Reg.slcStatus 4 8 = 0 ∧ slcLast t = 0 ∧ t.mem = s.mem ∧
          ∀ d, d < 4096 → t.member d = false) ∧
      (s.sliceSt = 2 → s.unreached s.others (fun _ _ => false) = false → s.leadsOut s.others [false] = false →
        ∃ t, exec (.restore 0#6) s = .next t ∧ t.sliceSt = 1 ∧ slcLast t = 0 ∧ t.mem = s.mem ∧ t.fab = s.fab) ∧
      (s.sliceSt ≠ 2 → ∃ t, exec (.restore 0#6) s = .next t ∧ t.sliceSt = s.sliceSt ∧ slcLast t = 4) ∧
      (∀ rank : BitVec 7, CanLeave rank.toNat s → rank.toNat ≠ s.slcRankNo →
        ∃ t, exec (.cut 0#6 rank) s = .next t ∧ RankLeft rank.toNat s t ∧ slcLast t = 0) ∧
      (∀ rank : BitVec 7, rank.toNat = 0 ∨ s.slcSize ≤ rank.toNat ∨ rank.toNat = s.slcRankNo →
        ∃ t, exec (.cut 0#6 rank) s = .next t ∧ t.sliceSt = s.sliceSt ∧ slcLast t = 1 ∧ t.dlr = s.dlr)) ∧
    (∀ rank : BitVec 7, CanLeave rank.toNat s → ∃ t, exec (.cutMessage rank) s = .next t ∧ RankLeft rank.toNat s t) ∧
    (∀ rank : BitVec 7, (s.sliceSt = 1 ∨ s.sliceSt = 2) → rank.toNat < s.slcSize → s.rankLive rank.toNat = true →
      s.dlr.cuts.contains rank.toNat = false → s.dlr.slots = [] →
      (s.t2Shape = false → ∃ t, exec (.cutMessage rank) s = .next t ∧ t.sliceSt = 3 ∧ t.mem = s.mem ∧
        ∀ x ∈ t.teams, x.2.running = true → x.2.cut = true) ∧
      (s.t2Shape = true → rank.toNat ≠ 0 → (∃ x ∈ s.teams, x.2.running = true) →
        ∃ t, exec (.cutMessage rank) s = .next t ∧ t.dlr.cuts = s.dlr.cuts ++ [rank.toNat] ∧ t.regs = s.regs ∧ t.mem = s.mem ∧
          ∀ x ∈ t.teams, x.2.running = true → x.2.cut = true))

/-! ## The rings and replay jobs (R490 to R505), the Burin's registers (R328, R329) -/

/-- R492, R505, R328, R329: the host frees ring records up to a tail inside the ring, enables recording on placed rings, selects the
encoder's tables and enables a coded window; a value the chapter excludes is rejected. -/
def Obligations.RingAndBurinRegisters : Prop :=
  ∀ s : State,
    (∀ v : Dword, Writable s 0#6 Reg.detRingTail →
      (v.toNat % 64 = 0 → s.reg Reg.detRingTail ≤ v.toNat → v.toNat ≤ s.reg Reg.detRingHead →
        ∃ t, exec (.detRingTail 0#6 v) s = .next t ∧ t.reg Reg.detRingTail = v.toNat ∧ t.reg Reg.detRingHead = s.reg Reg.detRingHead ∧
          (∀ x, x ∈ t.det.proofs ↔ x ∈ s.det.proofs ∧ v.toNat < x.start + x.bytes) ∧ t.det.tlogs = s.det.tlogs ∧ t.mem = s.mem) ∧
      (v.toNat < s.reg Reg.detRingTail ∨ s.reg Reg.detRingHead < v.toNat ∨ v.toNat % 64 ≠ 0 →
        exec (.detRingTail 0#6 v) s = .next (s.reject 0 .eRange 0 Reg.detRingTail false))) ∧
    (∀ v : Dword, Writable s 0#6 Reg.detTlogTail → v.toNat % 64 = 0 → s.reg Reg.detTlogTail ≤ v.toNat →
      v.toNat ≤ s.reg Reg.detTlogHead →
      ∃ t, exec (.detTlogTail 0#6 v) s = .next t ∧ t.reg Reg.detTlogTail = v.toNat ∧ t.det.proofs = s.det.proofs ∧
        (∀ x, x ∈ t.det.tlogs ↔ x ∈ s.det.tlogs ∧ v.toNat < x.start + x.bytes) ∧ t.mem = s.mem) ∧
    (∀ v : Word, Writable s 0#6 Reg.detCfg → bitsOf v.toNat 2 30 = 0 →
      (bitOf v.toNat 0 = true → s.fld Reg.detCfg 0 1 = 0 → s.badRing (s.detRing false) (s.detRing true) = false →
        s.badRing (s.detRing true) (s.detRing false) = false →
        ∃ t, exec (.detCfg 0#6 v) s = .next t ∧ t.reg Reg.detCfg = v.toNat ∧ t.det.proofs = [] ∧ t.det.tlogs = [] ∧
          t.reg Reg.detRingHead = 0 ∧ t.reg Reg.detRingTail = 0 ∧ t.reg Reg.detTlogHead = 0 ∧ t.reg Reg.detTlogTail = 0 ∧ t.mem = s.mem) ∧
      (bitOf v.toNat 0 = false → exec (.detCfg 0#6 v) s = .next (s.setReg Reg.detCfg v.toNat))) ∧
    (∀ v : Word, Writable s 0#6 Reg.burTableSel →
      exec (.burTableSel 0#6 v) s = .next (if bitOf v.toNat 3 || bitOf v.toNat 7 || bitsOf v.toNat 11 21 != 0
        then s.reject 0 .eArg 0 Reg.burTableSel false else s.setReg Reg.burTableSel v.toNat)) ∧
    (∀ (win : BitVec 4) (v : Word), Writable s 0#6 (Reg.burWinCfg win.toNat) → bitsOf v.toNat 3 5 = 0 → bitsOf v.toNat 28 4 = 0 →
      let base := s.reg (Reg.burWinBase win.toNat)
      let len := winBytes (bitsOf v.toNat 1 2) (bitsOf v.toNat 8 20 + 1)
      (bitOf (s.reg (Reg.burWinCfg win.toNat)) 0 = false → bitOf v.toNat 0 = true → bitsOf v.toNat 1 2 ≠ 0 → base % 32 = 0 →
        windowPlaced base len = true →
        (∀ k, k < 16 → k ≠ win.toNat → s.fld (Reg.burWinCfg k) 0 1 = 1 →
          overlaps base len (s.reg (Reg.burWinBase k)) (winBytes (winFmt s k) (winSlots s k)) = false) →
        exec (.burWinCfg 0#6 win v) s = .next (s.setReg (Reg.burWinCfg win.toNat) v.toNat)) ∧
      (putBits (s.reg (Reg.burWinCfg win.toNat)) 0 1 0 = v.toNat →
        exec (.burWinCfg 0#6 win v) s = .next (s.setReg (Reg.burWinCfg win.toNat) v.toNat)) ∧
      (bitOf (s.reg (Reg.burWinCfg win.toNat)) 0 = false → putBits (s.reg (Reg.burWinCfg win.toNat)) 0 1 0 ≠ v.toNat → bitsOf v.toNat 1 2 = 0 →
        exec (.burWinCfg 0#6 win v) s = .next (s.reject 0 .eArg 0 (Reg.burWinCfg win.toNat) false)) ∧
      (bitOf (s.reg (Reg.burWinCfg win.toNat)) 0 = true → putBits v.toNat 0 1 1 ≠ s.reg (Reg.burWinCfg win.toNat) →
        exec (.burWinCfg 0#6 win v) s = .next (s.reject 0 .eBusy 0 (Reg.burWinCfg win.toNat) false)))

/-- R498, R499, R503, R504: START on an image that passes its checks puts the job's turns and sequences in place, or ends with
E_MEDIA where the image cannot be read (the model's choice, log entry 156); ABORT ends the job at its
next turn boundary, at once where no turn runs; the capture point stops the team, writes the core's image at DET_CAP_ADDR and ends the job. -/
def Obligations.ReplayJobs : Prop :=
  ∀ s : State,
    (∀ (v : Word) (rs : List JobRec), Writable s 0#6 Reg.detJobCtrl →
      readImage (s.reg Reg.detJobLen + 1) s.jobImage.2.2 = some rs → firstCheck (s.startChecks v.toNat (some rs)) = none →
      let bad := s.sectorBad (s.reg Reg.detJobSrc) (64 * s.reg Reg.detJobLen)
      (bad = true → ∃ t, exec (.start 0#6 v) s = .next t ∧ t.fld Reg.detJobStatus 0 2 = 2 ∧ t.fld Reg.detJobStatus 2 8 = 0xB ∧
        t.det.jobSeqs = [] ∧ t.mem = s.mem) ∧
      (bad = false → rs.filterMap turnOf ≠ [] →
        ∃ t, exec (.start 0#6 v) s = .next t ∧ t.jobRuns = true ∧ t.det.jobTurns = rs.filterMap turnOf ∧
          t.det.jobSeqs = rs.filterMap openOf ∧ t.reg Reg.detJobDone = 0 ∧ t.jobTeam = bitsOf v.toNat 2 6 ∧ t.mem = s.mem) ∧
      (bad = false → rs.filterMap turnOf = [] →
        ∃ t, exec (.start 0#6 v) s = .next t ∧ t.fld Reg.detJobStatus 0 2 = 2 ∧ t.fld Reg.detJobStatus 2 8 = 0 ∧ t.det.jobSeqs = [] ∧
          t.mem = s.mem)) ∧
    (∀ v : Word, Writable s 0#6 Reg.detJobCtrl → s.jobRuns = true →
      exec (.start 0#6 v) s = .next (s.reject 0 .eBusy 0 Reg.detJobCtrl false)) ∧
    (Writable s 0#6 Reg.detJobCtrl → s.jobRuns = true →
      ((s.team s.jobTeam).running = true →
        ∃ t, exec (.abort 0#6) s = .next t ∧ t.det.abort = true ∧ t.jobRuns = true ∧ t.fld Reg.detJobCtrl 1 1 = 1 ∧
          t.det.jobTurns = s.det.jobTurns ∧ t.mem = s.mem) ∧
      ((s.team s.jobTeam).running = false →
        ∃ t, exec (.abort 0#6) s = .next t ∧ t.fld Reg.detJobStatus 0 2 = 2 ∧ t.fld Reg.detJobStatus 2 8 = 0xD ∧
          t.fld Reg.detJobCtrl 0 2 = 0 ∧ t.det.jobTurns = [] ∧ t.mem = s.mem)) ∧
    (∀ (core : BitVec 12) (cyc : Nat) (moved : Bool),
      let n := core.toNat
      let c := s.core n
      let tm := s.team s.jobTeam
      s.jobRuns = true → s.fld Reg.detJobCtrl 16 1 = 1 → tm.running = true → c.inTurn = true → s.teamOfCore n = some s.jobTeam →
      tm.rankOf n = s.fld Reg.detCapPoint 0 12 → s.det.jobTurns.head?.any (fun b => turnFld b 320 64 == s.reg Reg.detCapSerial) = true →
      c.capturePoint (s.fld Reg.detCapPoint 16 16) (s.fld Reg.detCapCyc 28 4) (s.fld Reg.detCapCyc 0 28) = some (cyc, moved) →
      c.now ≤ cyc →
      let stopped := settle n cyc (tm.cores.foldl (fun s m =>
        s.updCore m (fun c => if c.inTurn then { c with exec := .halted, wait := none } else c)) s)
      stopped.inGold (s.reg Reg.detCapAddr) (stopped.captureImage n).length = false →
      ∃ t, exec (.capture core) s = .next t ∧ t.mem = stopped.mem.write (s.reg Reg.detCapAddr) (stopped.captureImage n) ∧
        t.fld Reg.detJobStatus 0 2 = 2 ∧ t.fld Reg.detJobStatus 2 8 = 0 ∧ t.fld Reg.detJobStatus 10 1 = 1 ∧
        t.fld Reg.detJobStatus 11 1 = bit moved ∧ (t.team s.jobTeam).running = false)

/-! ## Stand-ins (R521 to R523) -/

/-- R521 to R523: a reserve core that passes its test takes its column and pauses its team; one that fails, or that another core has taken,
loses the column; a stand-in that is refilled counts, and with a team its vault, resident area and banks are filled from the image. -/
def Sys2Proof.Claims.StandIns : Prop :=
  ∀ (core : BitVec 12) (s : State),
    let n := core.toNat
    (s.cluster (clusterOf n)).cols.length = 8 →
    (n ∈ s.dlr.repairs → s.siteIdle (s.siteOf n) = true →
      (s.colState n = 8 →
        ∃ t, exec (.standIn core true) s = .next t ∧ t.colState n = n / 64 % 8 ∧ n ∈ t.dlr.standing ∧ n ∉ t.dlr.repairs ∧
          t.reg (Reg.cluRepairCnt (clusterOf n)) = s.reg (Reg.cluRepairCnt (clusterOf n)) + 1 ∧
          bitsOf (t.readReg Reg.fltStatus) 3 1 = 1 ∧ ∀ k, s.teamOfCore n = some k → t.fieldPause k = true) ∧
      (∃ t, exec (.standIn core false) s = .next t ∧ t.colState n = 0xA ∧ n ∉ t.dlr.repairs ∧ t.mem = s.mem) ∧
      (s.colState n ≠ 8 → ∀ passed, ∃ t, exec (.standIn core passed) s = .next t ∧ t.colState n = 0xA ∧ t.mem = s.mem)) ∧
    (n ∈ s.dlr.standing →
      let s1 := { s with dlr := { s.dlr with standing := s.dlr.standing.filter (fun m => m != n) } }
      (∀ srcs,
        let r := s1.readSources srcs
        let u := match s.teamOfCore n with
          | none => s1
          | some k => ((r.1.fillLoad (s.team k) n).fillResident (s.team k) n).fillBanks (s.team k) n
        (s.teamOfCore n ≠ none → r.2 = none) →
        ∃ t, exec (.standInComplete core false srcs) s = .next t ∧ n ∉ t.dlr.standing ∧ t.colState n = s.colState n ∧ t.mem = u.mem ∧
          t.reg Reg.fltStandinCnt = u.reg Reg.fltStandinCnt + 1 ∧ t.reg Reg.fltSerial = u.reg Reg.fltSerial + 1) ∧
      (∀ srcs, ∃ t, exec (.standInComplete core true srcs) s = .next t ∧ n ∉ t.dlr.standing ∧ t.colState n = 0xA ∧ t.mem = s.mem))

/-- Faults stop cores and teams; reserve cores stand in (R154, R156, R521 to R523). -/
def Obligations.CoreFaultsAndStandIns : Prop := Claims.SramErrorStopsItsCore ∧ Claims.FaultStopsTheTeam ∧ Claims.StandIns

/-! ## Host rings (R543 to R547) -/

namespace Sys2Proof.Claims

/-- The link carries an access: it is up, and IDE does not stand in the way. -/
def LinkOpen (s : State) : Prop := s.linkDown = false ∧ s.ideBlocks = false

end Sys2Proof.Claims

/-- R543, R598: a doorbell inside its range moves TAIL or HEAD, and one of REQ or CMD wakes a resting device where WAKE is enabled; one outside
its range, to a ring that does not run or of another size is rejected. -/
def Sys2Proof.Claims.Doorbells : Prop :=
  ∀ (fn : BitVec 6) (v : Word) (s : State), LinkOpen s →
    let f := fn.toNat
    let ahead := fun r => (v.toNat + 2 ^ 32 - s.reg (Reg.ringHead f r)) % 2 ^ 32
    let bell := fun (r size : Nat) => if r = ringReq then exec (.reqTail fn size v) s else exec (.cmdTail fn size v) s
    let head := fun (r size : Nat) => if r = ringTok then exec (.tokHead fn size v) s else exec (.cplHead fn size v) s
    (∀ r, r = ringReq ∨ r = ringCmd →
      (s.ringSt f r = 1 → s.ringHeld f r ≤ ahead r → ahead r ≤ s.ringSize f r →
        (s.fld Reg.pwrCfg 0 1 = 0 → bell r 4 = .next (s.setReg (Reg.ringTail f r) v.toNat)) ∧
        (s.fld Reg.pwrCfg 0 1 = 1 → s.fld Reg.pwrStatus 0 2 = 2 →
          ∃ t, bell r 4 = .next t ∧ t.reg (Reg.ringTail f r) = v.toNat ∧ t.fld Reg.pwrStatus 0 2 = 3 ∧ t.mem = s.mem)) ∧
      (s.ringSt f r = 1 → ahead r < s.ringHeld f r ∨ s.ringSize f r < ahead r → bell r 4 = .next (s.reject f .eRange 1 (4 * r) false)) ∧
      (s.ringSt f r ≠ 1 → bell r 4 = .next (s.reject f .eState 1 (4 * r) false)) ∧
      (∀ size, size ≠ 4 → bell r size = .next (s.reject f .eAlign 1 (4 * r) false))) ∧
    (∀ r, r = ringTok ∨ r = ringCpl →
      (s.ringSt f r = 1 → ahead r ≤ s.ringHeld f r → head r 4 = .next (s.setReg (Reg.ringHead f r) v.toNat)) ∧
      (s.ringSt f r = 1 → s.ringHeld f r < ahead r → head r 4 = .next (s.reject f .eRange 1 (4 * r) false)) ∧
      (s.ringSt f r ≠ 1 → head r 4 = .next (s.reject f .eState 1 (4 * r) false)))

/-- R543 to R547: enabling a ring empties it and sets it running; RESTART sets a halted one running; a descriptor read that comes back whole
advances HEAD, one that fails halts the ring with its status; a prompt goes into the token history; a deferred record is posted once its ring
is open; a vector's delay ends in a message. -/
def Sys2Proof.Claims.RingsDescriptorsRecords : Prop :=
  ∀ (fn : BitVec 6) (s : State),
    let f := fn.toNat
    (∀ (ring : BitVec 2) (v : Word), Writable s 0#6 (Reg.ringCfg f ring.toNat) → bitsOf v.toNat 7 25 = 0 → 4 ≤ bitsOf v.toNat 2 5 →
      bitsOf v.toNat 2 5 ≤ 16 → bitOf v.toNat 0 = true →
      let r := ring.toNat
      (s.fld (Reg.ringCfg f r) 0 1 = 0 →
        ∃ t, exec (.ringEnable 0#6 fn ring v) s = .next t ∧ t.ringSt f r = 1 ∧ t.reg (Reg.ringHead f r) = 0 ∧
          t.reg (Reg.ringTail f r) = 0 ∧ t.ringSize f r = 2 ^ bitsOf v.toNat 2 5 ∧ t.fld (Reg.ringCfg f r) 0 1 = 1 ∧ t.mem = s.mem) ∧
      (s.fld (Reg.ringCfg f r) 0 1 = 1 → bitsOf v.toNat 2 5 = s.fld (Reg.ringCfg f r) 2 5 → bitOf v.toNat 1 = true → s.ringSt f r = 2 →
        ∃ t, exec (.restart 0#6 fn ring v) s = .next t ∧ t.ringSt f r = 1 ∧ t.reg (Reg.ringHead f r) = s.reg (Reg.ringHead f r) ∧
          t.reg (Reg.ringTail f r) = s.reg (Reg.ringTail f r) ∧ t.mem = s.mem)) ∧
    (∀ (cmd : Bool) (d : BitVec 1024), s.fetches f (if cmd then ringCmd else ringReq) = true →
      let r := if cmd then ringCmd else ringReq
      (if cmd then f = 0 ∧ 1 ≤ bitsOf d.toNat 0 8 ∧ bitsOf d.toNat 0 8 ≤ 10 else bitsOf d.toNat 0 4 = 1 ∨ bitsOf d.toNat 0 4 = 2) →
      exec (.descriptorFetch fn cmd .ok d) s = .next (s.setReg (Reg.ringHead f r) ((s.reg (Reg.ringHead f r) + 1) % 2 ^ 32))) ∧
    (∀ (cmd : Bool) (fin : ReadEnd) (st : Status) (d : BitVec 1024), s.fetches f (if cmd then ringCmd else ringReq) = true →
      readStatus fin = some st →
      let r := if cmd then ringCmd else ringReq
      ∃ t, exec (.descriptorFetch fn cmd fin d) s = .next t ∧ t.ringSt f r = 2 ∧ t.fld (Reg.ringStat f r) 2 8 = statusCode st ∧
        t.reg (Reg.ringHead f r) = s.reg (Reg.ringHead f r) ∧ t.mem = s.mem) ∧
    (∀ cmd : Bool, s.fetches f (if cmd then ringCmd else ringReq) = true →
      let r := if cmd then ringCmd else ringReq
      ∃ t, exec (.descriptorReadTimeout fn cmd) s = .next t ∧ t.ringSt f r = 2 ∧ t.fld (Reg.ringStat f r) 2 8 = 0xF ∧
        t.reg Reg.hstCpltoCnt = s.reg Reg.hstCpltoCnt + 1 ∧ t.mem = s.mem) ∧
    (∀ (slot : BitVec 13) (tokens : List Word) (x : Slot), s.slot? slot.toNat = some x → x.st = .prefill → x.refine = false →
      x.prompted = false → s.mayRead x.fn = true →
      (tokens.length = x.promptLen → s.ringReady proofRing 64 = true → SoundGddr s →
        ∃ t, exec (.promptRead slot tokens .ok) s = .next t ∧ t.slot? slot.toNat = some { x with prompted := true } ∧
          t.reg Reg.detSerial = s.reg Reg.detSerial + 1 ∧
          (s.fld Reg.detCfg 0 1 = 0 → s.mem.wf = true → t.mem = s.mem.write (x.histAddr + 64) (tokens.flatMap (fun w => leBytes 4 w.toNat)))) ∧
      (∀ fin, readStatus fin ≠ none → exec (.promptRead slot tokens fin) s =
        .next (s.examineAfter ((s.countRead fin).endReq slot.toNat .eMedia)))) ∧
    (∀ bytes : List Byte, (s.fn f).deferred = [(ringTok, bytes)] →
      (s.ringOpen f ringTok = true →
        ∃ t, exec (.recordPost fn) s = .next t ∧ .record f ringTok bytes ∈ t.outbox ∧ (t.fn f).deferred = [] ∧
          t.reg (Reg.ringTail f ringTok) = (s.reg (Reg.ringTail f ringTok) + 1) % 2 ^ 32 ∧ t.mem = s.mem) ∧
      (s.ringOpen f ringTok = false →
        ∃ t, exec (.recordPost fn) s = .next t ∧ t.outbox = s.outbox ∧ (t.fn f).deferred = [(ringTok, bytes)] ∧ t.regs = s.regs)) ∧
    (∀ vector : BitVec 1, nth 0 (s.fn f).irq vector.toNat ≠ 0 → s.fld (Reg.fnIrq f) 8 16 ≠ 0 → (s.fn f).busMaster = true →
      s.ideBlocks = false → s.hst.perst = false →
      ∃ t, exec (.irqDelayExpiry fn vector) s = .next t ∧ nth 0 (t.fn f).irq vector.toNat = 0 ∧
        t.outbox = s.outbox ++ [.msi f vector.toNat] ∧ t.mem = s.mem ∧ t.regs = s.regs)

/-- Doorbells, rings, descriptors and records (R543 to R547). -/
def Obligations.HostRings : Prop := Claims.Doorbells ∧ Claims.RingsDescriptorsRecords

/-! ## Functions, the link, BAR accesses (R8 to R10, R535 to R542, R548, R609, R610) -/

/-- R548, R576, R609, R610: a function level reset frees a function's QUEUED requests, cancels its others, and resets its rings; the PF's also
disables the VFs and releases the host's claims; PERST# resets the whole block; its release sets the link's fields. -/
def Obligations.FunctionAndLinkResets : Prop :=
  ∀ s : State,
    (∀ fn : BitVec 6, fn ≠ 0#6 → s.linkDown = false → (s.dlr.slots.map Prod.fst).Nodup →
      ∃ t : State, exec (.vfFlr fn) s = .next (s.examineAfter t) ∧ t.fn fn.toNat = {} ∧ (∀ a, fnReset fn.toNat a = true → t.reg a = regReset a) ∧
        ∀ n x, s.slot? n = some x →
          (x.fn = fn.toNat → (x.st = .queued ∨ x.st = .ending) → t.slot? n = none) ∧
          (x.fn = fn.toNat → x.st ≠ .queued → x.st ≠ .ending → t.slot? n = some { x with cancel := true, discard := true }) ∧
          (x.fn ≠ fn.toNat → t.slot? n = some x)) ∧
    (s.linkDown = false → s.dlr.slots = [] →
      ∃ t, exec .pfFlr s = .next t ∧ t.fn 0 = {} ∧ t.hst.vfEnable = false ∧ t.hst.bar4 = 28 ∧ t.fld Reg.hstLink 11 6 = 0 ∧ t.mem = s.mem ∧
        ∀ k, k < 32 → (s.fld (Reg.shcClaim k) 0 3 = 5 → t.reg (Reg.shcClaim k) = regReset (Reg.shcClaim k)) ∧
          (s.fld (Reg.shcClaim k) 0 3 ≠ 5 → t.reg (Reg.shcClaim k) = s.reg (Reg.shcClaim k))) ∧
    (s.clk.por = false →
      ∃ t : State, exec .perst s = .next (s.examineAfter t) ∧ t.hst = { perst := true } ∧
        (∀ q ∈ t.bgq, ∀ r ∈ q.2, ∀ fn, r.owner ≠ .host fn) ∧
        ∀ a, 0x300000 ≤ a → a < 0x400000 → t.reg a = regReset a) ∧
    (∀ (rate : BitVec 3) (width : BitVec 5) (flit : Bool), s.clk.por = false → rate.toNat ≤ 5 →
      ∃ t, exec (.perstRelease rate width flit) s = .next t ∧ t.hst = { s.hst with perst := false } ∧ t.fld Reg.hstLink 0 3 = rate.toNat ∧
        t.fld Reg.hstLink 3 5 = width.toNat ∧ t.fld Reg.hstLink 8 1 = bit flit ∧ t.mem = s.mem)

/-- R541, R542: the PF's accesses through BAR4 read and write GDDR memory at HST_BAR4_BASE plus the offset, queue a vault line at its
background port, or are rejected by Table HST-3; those to GDDR wait while the device wakes (R306); a VF reads its own request slots only; a write of a VF or a poisoned one is rejected. -/
def Obligations.Bar4Accesses : Prop :=
  ∀ (off : BitVec 36) (s : State), LinkOpen s →
    let o := off.toNat
    let a := s.reg Reg.hstBar4Base + o
    let wakes := s.fld Reg.pwrStatus 0 2 = 3 ∧ inGddr a = true
    let waits := fun (t : State) (len : Nat) (data : Option (List Byte)) =>
      t = { s with hst := { s.hst with bar4Wait := s.hst.bar4Wait ++ [(a, o, len, data)] } }
    (∀ len, 0 < len → o + len ≤ 2 ^ s.hst.bar4 →
      (wakes → ∃ t, exec (.bar4Read 0#6 off len) s = .next t ∧ waits t len none) ∧
      (¬ wakes → s.tlpStatus false a len = none → inVaults a = false → inReqTable a = false → inGddr a = true → SoundGddr s →
        exec (.bar4Read 0#6 off len) s = .next (s.emit (.read 0 .ok (s.mem.read a len) false))) ∧
      (¬ wakes → s.tlpStatus false a len = none → inVaults a = true → a % 32 + len ≤ 32 →
        ∃ t, exec (.bar4Read 0#6 off len) s = .next t ∧ t.outbox = s.outbox ∧ t.mem = s.mem ∧
          look [] t.bgq (a / 2 ^ 24) = look [] s.bgq (a / 2 ^ 24) ++
            [{ line := a % 2 ^ 24 / 32, act := .read, owner := .host 0, first := a % 32, len := len, off := 0 }]) ∧
      (¬ wakes → s.tlpStatus false a len = none → inReqTable a = false → inGddr a = true → s.sectorBad a len = true →
        ∃ t, exec (.bar4Read 0#6 off len) s = .next t ∧ t.mem = s.mem ∧ ∃ bytes, .read 0 .ok bytes true ∈ t.outbox) ∧
      (∀ st, ¬ wakes → s.tlpStatus false a len = some st → exec (.bar4Read 0#6 off len) s = .next (s.rejectRead 0 st 2 o len)) ∧
      (∀ fn : BitVec 6, fn ≠ 0#6 → o + len ≤ 0x100000 →
        exec (.bar4Read fn off len) s = .next (s.emit (.read fn.toNat .ok (s.tableBytes fn.toNat o len) false)))) ∧
    (∀ data : List Byte, data ≠ [] → o + data.length ≤ 2 ^ s.hst.bar4 →
      (wakes → ∃ t, exec (.bar4Write 0#6 off data false) s = .next t ∧ waits t data.length (some data)) ∧
      (¬ wakes → s.tlpStatus true a data.length = none → inVaults a = false → SoundGddr s → s.mem.wf = true →
        ∃ t, exec (.bar4Write 0#6 off data false) s = .next t ∧ t.mem = s.mem.write a data ∧ t.regs = s.regs ∧ t.outbox = s.outbox) ∧
      (∀ st, ¬ wakes → s.tlpStatus true a data.length = some st →
        exec (.bar4Write 0#6 off data false) s = .next (s.reject 0 st 2 o false)) ∧
      exec (.bar4Write 0#6 off data true) s = .next (s.reject 0 .eMedia 2 o false) ∧
      (∀ (fn : BitVec 6) (poisoned : Bool), fn ≠ 0#6 →
        exec (.bar4Write fn off data poisoned) s = .next (s.reject fn.toNat .ePerm 2 o false)))

/-- R8 to R10, R535, R538 to R541: a 4-byte access of a 32-bit register that its chapter accepts writes or reads it, one that is not aligned,
comes poisoned, or that a check turns away is rejected; configuration requests set what they name; a failed integrity check makes a Secure
stream Insecure. -/
def Obligations.RegisterAndConfigAccesses : Prop :=
  ∀ s : State,
    (∀ (fn : BitVec 6) (off : BitVec 26) (v : Dword) (d : RegDef), LinkOpen s → off.toNat % 4 = 0 →
      findReg off.toNat regMap = some (d, off.toNat) → d.bytes = 4 →
      let o := off.toNat
      (firstCheck (s.accessChecks fn.toNat o) = none → d.writable ≠ 0 → (fn ≠ 0#6 → o ≠ Reg.fnTenant fn.toNat) →
        (ownRow o (s.reg o) v.toNat = false → Nat.land v.toNat d.reserved = 0 → firstCheck (s.regChecks o (s.reg o) v.toNat) = none →
          exec (.registerWrite fn 0#2 off 4 (.write v false)) s = .next (s.putReg d o (s.reg o) v.toNat)) ∧
        (Nat.land v.toNat d.reserved ≠ 0 → o ≠ Reg.slcCtrl →
          exec (.registerWrite fn 0#2 off 4 (.write v false)) s = .next (s.reject fn.toNat .eArg 0 o false))) ∧
      (∀ st, firstCheck (s.accessChecks fn.toNat o) = some st →
        exec (.registerWrite fn 0#2 off 4 (.write v false)) s = .next (s.reject fn.toNat st 0 o false)) ∧
      (fn = 0#6 → o < 0x2000000 → s.shadowServed o = false →
        exec (.registerWrite fn 0#2 off 4 .read) s =
          .next (s.emit (.read 0 .ok (leBytes 4 (s.readReg o - Nat.land (s.readReg o) d.wo)) false))) ∧
      (o % 8 ≠ 0 → exec (.registerWrite fn 0#2 off 8 (.write v false)) s = .next (s.reject fn.toNat .eAlign 0 o false)) ∧
      exec (.registerWrite fn 0#2 off 4 (.write v true)) s = .next (s.reject fn.toNat .eMedia 0 o false)) ∧
    (∀ fn : BitVec 6, s.linkDown = false →
      (∀ (off : BitVec 12) (w : Word), ∃ t, exec (.configRequest fn (.write off w)) s = .next t ∧
        t.configWord fn.toNat off.toNat = some w.toNat ∧ t.regs = s.regs ∧ t.mem = s.mem) ∧
      (∀ (off : BitVec 12) (w : Nat), s.configWord fn.toNat off.toNat = some w →
        exec (.configRequest fn (.read off)) s = .next (s.emit (.read fn.toNat .ok (leBytes 4 w) false))) ∧
      (∀ on : Bool, ∃ t, exec (.configRequest fn (.busMaster on)) s = .next t ∧ t.fn fn.toNat = { s.fn fn.toNat with busMaster := on } ∧
        t.regs = s.regs ∧ t.mem = s.mem)) ∧
    (s.linkDown = false →
      (∀ num : BitVec 6, ∃ t, exec (.configRequest 0#6 (.vfEnable true num)) s = .next t ∧ t.hst.vfEnable = true ∧
        t.fld Reg.hstLink 11 6 = num.toNat ∧ t.mem = s.mem) ∧
      (∀ n : BitVec 6, 28 ≤ n.toNat → n.toNat ≤ 36 →
        exec (.configRequest 0#6 (.bar4Size n)) s = .next { s with hst := { s.hst with bar4 := n.toNat } })) ∧
    exec .ideIntegrityFail s = .next (if s.fld Reg.hstLink 9 2 = 1 then s.setFld Reg.hstLink 9 2 2 else s)

/-! ## Ticks and the Uhloc chains (R24, R555 to R569, R577) -/

namespace Sys2Proof.Claims

/-- The first copy of another device's frame, on a chain whose input this device hears (R558). -/
def FirstCopy (h : FrameHdr) (s : State) : Prop := s.hears h = true ∧ s.isHome h = false ∧ s.seenFrame h = false

/-- The frame leaves again with its count, where an output is left to it (R558, R560). -/
def Forwards (h : FrameHdr) (typ payload cnt : Nat) (s t : State) : Prop :=
  ∀ p, s.outPort (bit h.chain) = some p →
    t.outbox = s.outbox ++ [.frame p typ (frameWord typ h.retry h.leadB h.och h.seq.toNat h.orig.toNat cnt payload)]

end Sys2Proof.Claims

/-- R24, R555, R574: a tick counts, and while the Umpire runs its samples are published. -/
def Sys2Proof.Claims.TicksCountAndPublish : Prop :=
  ∀ (x : TickSample) (s : State), s.clk.por = false →
    ∃ t, exec (.tick x) s = .next t ∧ t.reg Reg.glbTicks = s.reg Reg.glbTicks + 1 ∧ t.mgt.edge = 0 ∧ t.mem = s.mem ∧
      (s.fld Reg.umpStatus 0 2 = 1 → t.reg Reg.telPower = x.power.toNat ∧ t.fld Reg.telTj 0 12 = x.tj.toNat ∧
        t.fld Reg.telTj 12 12 = x.td.toNat) ∧
      (s.fld Reg.umpStatus 0 2 ≠ 1 → t.reg Reg.telPower = s.reg Reg.telPower ∧ t.reg Reg.telTj = s.reg Reg.telTj)

/-- R557 to R562, R569: the first copy of a frame of another device acts and goes on: ENUM gives a position, ROSTER fills an entry, FAULT marks
one, another device's TIME gives the next edge's number; a frame that fails its CRC is only counted. -/
def Obligations.FramesAct : Prop :=
  ∀ (h : FrameHdr) (s : State),
    (FirstCopy h s → h.cnt.toNat + 1 < 128 →
      ∃ t, exec (.enum h) s = .next t ∧ t.position = h.cnt.toNat + 1 ∧ t.mgt.placed = true ∧
        t.fld (Reg.uhlRoster (h.cnt.toNat + 1)) 13 1 = 1 ∧ t.presentAt = [h.cnt.toNat + 1] ∧ t.fld Reg.uhlStatus 14 8 = 1 ∧ t.mem = s.mem) ∧
    (FirstCopy h s → 128 ≤ h.cnt.toNat + 1 →
      ∃ t, exec (.enum h) s = .next t ∧ t.mgt.placed = false ∧ t.fld Reg.uhlStatus 24 1 = 1 ∧ t.mem = s.mem) ∧
    (FirstCopy h s → ∀ (pos : BitVec 7) (dev : BitVec 12) (valid : Bool) (serial : Dword),
      ∃ t, exec (.roster h pos dev valid serial) s = .next t ∧ t.fld (Reg.uhlRoster pos.toNat) 0 12 = dev.toNat ∧
        t.fld (Reg.uhlRoster pos.toNat) 12 1 = bit valid ∧ t.fld (Reg.uhlRoster pos.toNat) 13 1 = 1 ∧
        t.reg (Reg.uhlRosterSer pos.toNat) = serial.toNat ∧ t.fld Reg.uhlStatus 14 8 = t.presentAt.length ∧ t.mem = s.mem ∧
        Forwards h frmRoster (pos.toNat + (dev.toNat + bit valid * 2 ^ 12) * 2 ^ 8 + serial.toNat * 2 ^ 24) h.cnt.toNat s t) ∧
    (FirstCopy h s → ∀ (dev : BitVec 12) (valid : Bool) (pos : BitVec 7) (kind : BitVec 8), 1 ≤ kind.toNat → kind.toNat ≤ 4 →
      valid = false ∨ 2 < kind.toNat ∨ s.rankOfDev dev.toNat = none →
      ∃ t, exec (.fault h dev valid pos kind) s = .next t ∧ t.fld (Reg.uhlRoster pos.toNat) 14 3 = kind.toNat ∧ t.mem = s.mem ∧
        t.sliceSt = s.sliceSt) ∧
    (∀ n serial : Dword, s.hears h = true → s.acting = false → serial.toNat ≠ s.reg Reg.ngvSerial →
      ∃ t, exec (.time h n serial) s = .next t ∧ t.mgt.heard = s.ticks + 1 ∧ find? t.mgt.timeTick (bit h.chain) = some s.ticks ∧
        t.mem = s.mem ∧
        (s.seenFrame h = false → t.mgt.times = some (n.toNat, s.ticks) ∧
          (s.locked = false → s.mgt.times = some (n.toNat - 1, s.ticks - 1) → 0 < s.ticks → t.locked = true))) ∧
    (∀ n serial : Dword, s.hears h = true → s.acting = true → s.uhlRole = 2 → h.leadB = false → serial.toNat ≠ s.reg Reg.ngvSerial →
      ∃ t, exec (.time h n serial) s = .next t ∧ t.acting = false ∧ t.mem = s.mem ∧
        t.reg Reg.uhlLeadConflictCnt = s.reg Reg.uhlLeadConflictCnt + 1) ∧
    (s.chainsOn = true → exec .uhlocFrameCrcFail s = .next (s.bump Reg.uhlCrcCnt 1))

/-- R566 to R568: the lead's snapshot is sent and pends; a SNAP frame for a later time pends and is counted, one for a time past is not; when
rack time reaches the snapshot's time the shadows hold every 64-bit read-only register. -/
def Sys2Proof.Claims.Snapshots : Prop :=
  ∀ s : State,
    (∀ v : Dword, Writable s 0#6 Reg.uhlSnapT → s.acting = true → s.locked = true → (∀ f ∈ s.mgt.unacked, f.typ ≠ frmSnap) →
      (∀ u, s.mgt.snapSent = some u → u ≤ s.reg Reg.uhlRrc) → s.mgt.snap = none →
      (s.reg Reg.uhlRrc + tickCycles ≤ v.toNat →
        ∃ t, exec (.uhlSnapT 0#6 v) s = .next t ∧ t.mgt.snap = some ((s.reg Reg.uhlSnapStat + 1) % 2 ^ 32, v.toNat) ∧
          t.reg Reg.uhlSnapStat = (s.reg Reg.uhlSnapStat + 1) % 2 ^ 32 ∧ t.reg Reg.uhlSnapAck = 0 ∧ t.fld Reg.uhlStatus 25 1 = 1 ∧
          t.mem = s.mem) ∧
      (v.toNat < s.reg Reg.uhlRrc + tickCycles →
        exec (.uhlSnapT 0#6 v) s = .next (s.reject 0 .eRange 0 Reg.uhlSnapT false))) ∧
    (∀ (h : FrameHdr) (num : Word) (T : Dword), FirstCopy h s →
      (s.reg Reg.uhlRrc < T.toNat → s.mgt.snap = none →
        ∃ t, exec (.snap h num T) s = .next t ∧ t.mgt.snap = some (num.toNat, T.toNat) ∧ t.fld Reg.uhlStatus 25 1 = 1 ∧ t.mem = s.mem ∧
          Forwards h frmSnap (num.toNat + T.toNat * 2 ^ 32) (h.cnt.toNat + 1) s t) ∧
      (T.toNat ≤ s.reg Reg.uhlRrc → s.mgt.snap = none →
        ∃ t, exec (.snap h num T) s = .next t ∧ t.mgt.snap = none ∧ t.reg Reg.uhlSnapLateCnt = s.reg Reg.uhlSnapLateCnt + 1 ∧
          Forwards h frmSnap (num.toNat + T.toNat * 2 ^ 32) h.cnt.toNat s t)) ∧
    (∀ num T : Nat, s.mgt.snap = some (num, T) →
      ∃ t, exec .snapLatch s = .next t ∧ t.mgt.snap = none ∧ t.reg Reg.uhlRrc = max (s.reg Reg.uhlRrc) T ∧ t.reg Reg.telSnapSeq = num ∧
        t.reg Reg.telSnapT = T ∧ t.fld Reg.uhlStatus 25 1 = 0 ∧ t.mem = s.mem ∧
        t.shadows = (s.setReg Reg.uhlRrc (max (s.reg Reg.uhlRrc) T)).latchAll)

/-- Ticks and snapshots (R555, R566 to R568, R574). -/
def Obligations.TicksAndSnapshots : Prop := Claims.TicksCountAndPublish ∧ Claims.Snapshots

/-- R559 to R565: an unanswered frame is sent again and given up after its last resend; a lost input wraps the device and a restored one
unwraps it; a backup takes the lead; an edge sets rack time to the next count, to the count that TIME frames agreed on, or to the host's; an
edge outside the window leaves rack time. -/
def Obligations.ChainsLeadAndRackTime : Prop :=
  ∀ s : State,
    (∀ (seq : BitVec 16) (f : AckFrame), s.mgt.unacked.find? (fun f => f.seq == seq.toNat) = some f → f.sent + 1 ≤ s.ticks →
      (f.resends ≠ 0 → ∃ t, exec (.frameResendTimeout seq) s = .next t ∧
        { f with resends := f.resends - 1, sent := s.ticks } ∈ t.mgt.unacked ∧ t.regs = s.regs ∧ t.mem = s.mem) ∧
      (f.resends = 0 → ∃ t, exec (.frameResendTimeout seq) s = .next t ∧ (∀ x ∈ t.mgt.unacked, x.seq ≠ seq.toNat) ∧ t.mem = s.mem ∧
        (f.typ = frmSnap → t.fld Reg.uhlSnapAck 9 1 = 1))) ∧
    (∀ chain : Bool, s.chainsOn = true → s.inputLost (bit chain) = false →
      ∃ t, exec (.chainInputLost chain) s = .next t ∧ t.inputLost (bit chain) = true ∧ t.fld Reg.uhlStatus (3 + 2 * bit chain) 2 = 0 ∧
        t.reg Reg.uhlWrapCnt = s.reg Reg.uhlWrapCnt + 1 ∧ t.mem = s.mem) ∧
    (∀ chain : Bool, s.inputLost (bit chain) = true →
      ∃ t, exec (.chainInputRestored chain) s = .next t ∧ t.inputLost (bit chain) = false ∧
        t.fld Reg.uhlStatus (3 + 2 * bit chain) 2 = t.chainCode (bit chain) ∧ t.mem = s.mem) ∧
    (s.acting = false → s.chainsOn = true → s.uhlRole = 2 → max s.mgt.heard 1 + 8 ≤ s.ticks + 1 →
      ∃ t, exec .leadTakeover s = .next t ∧ t.acting = true ∧ t.position = 0 ∧ t.mgt.placed = true ∧ t.mem = s.mem) ∧
    (s.clk.por = false → ∀ off : Int,
      (∀ n step, s.mgt.stepTime = some (n, step) →
        ∃ t, exec (.racksyncEdge off) s = .next t ∧ t.reg Reg.uhlRrc = n * tickCycles ∧ t.mgt.stepTime = none ∧ t.mgt.edge = 1 ∧
          t.mem = s.mem) ∧
      (s.mgt.stepTime = none → ∀ n, s.mgt.rtSet = some n →
        ∃ t, exec (.racksyncEdge off) s = .next t ∧ t.reg Reg.uhlRrc = n * tickCycles ∧ t.mgt.rtSet = none) ∧
      (s.mgt.stepTime = none → s.mgt.rtSet = none → s.mgt.started = true → s.locked = false ∨ off.natAbs ≤ 2 →
        ∃ t, exec (.racksyncEdge off) s = .next t ∧ t.reg Reg.uhlRrc = s.nextEdge * tickCycles ∧ t.mgt.edge = 1 ∧
          t.fld Reg.clkStatus 9 1 = 1) ∧
      (s.mgt.stepTime = none → s.mgt.rtSet = none → s.mgt.started = true → s.locked = true → 2 < off.natAbs → s.mgt.offset ≠ off →
        ∃ t, exec (.racksyncEdge off) s = .next t ∧ t.reg Reg.uhlRrc = s.reg Reg.uhlRrc ∧ t.mgt.edge = 2 ∧ t.locked = true ∧
          t.reg Reg.uhlSyncMissCnt = s.reg Reg.uhlSyncMissCnt + 1)) ∧
    (∀ v : Dword, Writable s 0#6 Reg.uhlRtSet →
      (s.nextEdge ≤ v.toNat → s.acting = true →
        exec (.uhlRtSet 0#6 v) s = .next { s with mgt := { s.mgt with rtSet := some v.toNat } }) ∧
      (v.toNat < s.nextEdge → exec (.uhlRtSet 0#6 v) s = .next (s.reject 0 .eRange 0 Reg.uhlRtSet false)))

/-! ## Images and the Umpire (R527 to R529, R570 to R573, R581, R611) -/

namespace Sys2Proof.Claims

/-- State and status of UMP_STAGE_STATUS, and its pass. -/
def staged (s : State) : Nat × Nat × Nat := (s.fld Reg.umpStageStatus 0 2, s.fld Reg.umpStageStatus 2 8, s.fld Reg.umpStageStatus 10 2)

end Sys2Proof.Claims

/-- R571, R572: a staging command checks the image at UMP_STAGE_SRC and writes it into the slot that does not run, or reports the check that
failed; with scope RACK it goes out to the members; a member opens, collects, checks and stores what it receives; the lead ends the staging
when every member has reported success. -/
def Obligations.ImagesAreStaged : Prop :=
  ∀ s : State, s.bootStep ≠ 0xF →
    (∀ (v : Word) (ck : ImgCheck) (img : List Byte), Writable s 0#6 Reg.umpStageCmd → s.staging = false → s.stageSource = (s, img, .ok) →
      (v.toNat = imgComp img → v.toNat = 1 ∨ v.toNat = 2 →
        (s.imgStatus img ck = .ok → ∃ t, exec (.stageLocal 0#6 v ck) s = .next t ∧ staged t = (2, 0, 0) ∧
          t.image? (imgComp img) (1 - s.runSlot (imgComp img)) = some ⟨img, true⟩ ∧ t.mgt.running = s.mgt.running ∧ t.mem = s.mem) ∧
        (∀ st, st ≠ .ok → s.imgStatus img ck = st → ∃ t, exec (.stageLocal 0#6 v ck) s = .next t ∧ staged t = (2, statusCode st, 0) ∧
          t.mgt = s.mgt ∧ t.mem = s.mem)) ∧
      (v.toNat = 4 + imgComp img → imgComp img = 1 ∨ imgComp img = 2 → s.acting = true → s.imgStatus img ck = .ok →
        (s.otherPositions = [] → ∃ t, exec (.stageRack 0#6 v ck) s = .next t ∧ staged t = (2, 0, 1) ∧ t.mgt.stage = none ∧ t.mem = s.mem) ∧
        (s.otherPositions ≠ [] → ∃ t, exec (.stageRack 0#6 v ck) s = .next t ∧ staged t = (1, 0, 1) ∧
          t.mgt.stage = some { lead := true, header := img.take 24, data := [(0, img)], pass := 1 } ∧ t.mem = s.mem))) ∧
    (∀ (h : FrameHdr) (header : List Byte), FirstCopy h s → memberStage s.mgt.stage header = false →
      ∃ t, exec (.stageOpen h header) s = .next t ∧ t.mgt.stage = some { lead := false, header := header, pass := 1 } ∧
        staged t = (1, 0, 1) ∧ Forwards h frmOpen (leNat header) (h.cnt.toNat + 1) s t ∧ t.mem = s.mem) ∧
    (∀ (h : FrameHdr) (off : Word) (data : List Byte) (g : Stage), FirstCopy h s → s.mgt.stage = some g → g.lead = false →
      ∃ t, exec (.stageData h off data) s = .next t ∧ t.mgt.stage = some { g with data := put g.data off.toNat data } ∧
        Forwards h frmData (off.toNat + leNat data * 2 ^ 32) h.cnt.toNat s t ∧ t.regs = s.regs ∧ t.mem = s.mem) ∧
    (∀ (h : FrameHdr) (len : Word) (ck : ImgCheck) (g : Stage), FirstCopy h s → s.mgt.stage = some g → g.lead = false →
      (∀ img, g.image len.toNat = some img → s.imgStatus img ck = .ok →
        ∃ t, exec (.stageClose h len ck) s = .next t ∧ staged t = (2, 0, g.pass % 4) ∧
          t.image? (imgComp img) (1 - s.runSlot (imgComp img)) = some ⟨img, true⟩ ∧ t.mem = s.mem) ∧
      (g.image len.toNat = none → ∃ t, exec (.stageClose h len ck) s = .next t ∧ staged t = (2, 0xB, g.pass % 4) ∧
        t.mgt.slots = s.mgt.slots)) ∧
    (∀ (h : FrameHdr) (status pass : BitVec 8) (g : Stage), FirstCopy h s → s.mgt.stage = some g → g.lead = true → g.pass = pass.toNat →
      let rs := put g.results h.orig.toNat status.toNat
      ((∃ p ∈ s.otherPositions, listed rs p = false) →
        ∃ t, exec (.result h status pass) s = .next t ∧ t.mgt.stage = some { g with results := rs } ∧ t.regs = s.regs) ∧
      ((∀ p ∈ s.otherPositions, listed rs p = true) → (∀ r ∈ rs, r.2 = 0) →
        ∃ t, exec (.result h status pass) s = .next t ∧ t.mgt.stage = none ∧ staged t = (2, 0, g.pass % 4) ∧ t.reg Reg.umpStageFail = 0))

/-- R527 to R529, R573, R581, R611: a switch with its key falls due at the next tick, one without is rejected; an Umpire image that has not come up
within 200 ticks gives way to the one before and is marked invalid; the watchdog restarts the image, and the other slot at its second expiry; an
image that reports RUNNING runs, and the boot record names it; the host commits security versions and revokes keys that nothing uses. -/
def Obligations.UmpireAndKeys : Prop :=
  ∀ s : State,
    (∀ v : Word, Writable s 0#6 Reg.umpSwitch → bitsOf v.toNat 0 24 = 0 →
      (bitsOf v.toNat 24 8 = 0x96 → s.altValid 1 = true →
        exec (.umpSwitch 0#6 v) s = .next { s with mgt := { s.mgt with switchDue := true } }) ∧
      (bitsOf v.toNat 24 8 ≠ 0x96 → exec (.umpSwitch 0#6 v) s = .next (s.reject 0 .ePerm 0 Reg.umpSwitch false)) ∧
      (bitsOf v.toNat 24 8 = 0x96 → s.altValid 1 = false →
        exec (.umpSwitch 0#6 v) s = .next (s.reject 0 .eState 0 Reg.umpSwitch false))) ∧
    (∀ (old tick : Nat) (x : FlashSlot), s.mgt.prevSlot = some (old, tick) → s.fld Reg.umpStatus 0 2 = 2 → tick + 200 ≤ s.ticks →
      s.image? 1 (s.runSlot 1) = some x →
      ∃ t, exec .umpireSwitchTimeout s = .next t ∧ t.runSlot 1 = old ∧ t.image? 1 (s.runSlot 1) = some { x with valid := false } ∧
        t.mgt.prevSlot = none ∧ t.fld Reg.umpStatus 0 2 = 2 ∧ t.reg Reg.fltSerial = s.reg Reg.fltSerial + 1 ∧ t.mem = s.mem) ∧
    (s.fld Reg.umpStatus 0 2 = 1 →
      let again := s.mgt.lastWatchdog.any (fun t => decide (s.ticks ≤ t + 1000)) && s.altValid 1
      ∃ t, exec .umpireWatchdog s = .next t ∧ t.fld Reg.umpStatus 0 2 = 2 ∧ t.reg Reg.fltSerial = s.reg Reg.fltSerial + 1 ∧
        t.runSlot 1 = (if again then 1 - s.runSlot 1 else s.runSlot 1) ∧
        t.mgt.lastWatchdog = (if again then none else some s.ticks) ∧ t.mem = s.mem) ∧
    (s.fld Reg.umpStatus 0 2 = 2 →
      ∃ t, exec .umpireReportsRunning s = .next t ∧ t.fld Reg.umpStatus 0 2 = 1 ∧ t.mgt.prevSlot = none ∧ t.mem = s.mem ∧
        (∀ a b, s.mgt.boot = [a, b] → a.1 ≠ b.1 → t.bootRecord.2.1 = s.runSlot 1 ∧ t.bootRecord.2.2 = s.bootRecord.2.2)) ∧
    (∀ v : Word, Writable s 0#6 Reg.umpSvcOut → bitsOf v.toNat 1 31 = 0 →
      (bitOf v.toNat 0 = true → s.chainsOn = true → s.mgt.placed = true →
        ∃ t, exec (.umpSvcOut 0#6 v) s = .next t ∧ t.regs = s.regs ∧ t.mem = s.mem ∧
          t.mgt.bcasts = s.mgt.bcasts ++ [(s.idWord + s.position * 2 ^ 16 + kindOut * 2 ^ 24, s.mgt.seq, 2)]) ∧
      (bitOf v.toNat 0 = false → exec (.umpSvcOut 0#6 v) s = .next s)) ∧
    (∀ (v : Word) (img : List Byte), Writable s 0#6 Reg.secCmd → bitsOf v.toNat 4 20 = 0 → bitsOf v.toNat 24 8 = 0x3C →
      v.toNat % 4 = 1 → bitsOf v.toNat 2 2 = 1 ∨ bitsOf v.toNat 2 2 = 2 →
      let comp := bitsOf v.toNat 2 2
      (s.runningImage comp = some img →
        ∃ t, exec (.commitSvn 0#6 v) s = .next t ∧ look 0 t.mgt.otpSvn comp = max (look 0 s.mgt.otpSvn comp) (imgSvn img) ∧
          t.reg Reg.secState = t.secWord ∧ t.mgt.revoked = s.mgt.revoked ∧ t.mem = s.mem) ∧
      (s.runningImage comp = none → exec (.commitSvn 0#6 v) s = .next (s.reject 0 .eState 0 Reg.secCmd false))) ∧
    (∀ v : Word, Writable s 0#6 Reg.secCmd → bitsOf v.toNat 4 20 = 0 → bitsOf v.toNat 24 8 = 0x3C → v.toNat % 4 = 2 →
      let k := bitsOf v.toNat 2 2
      (s.keyUsed k = false → (∃ j, j < 4 ∧ j ≠ k ∧ s.mgt.revoked.contains j = false) →
        ∃ t, exec (.revoke 0#6 v) s = .next t ∧ k ∈ t.mgt.revoked ∧ (∀ j, j ≠ k → (j ∈ t.mgt.revoked ↔ j ∈ s.mgt.revoked)) ∧
          t.reg Reg.secState = t.secWord ∧ t.mem = s.mem) ∧
      (s.keyUsed k = true → exec (.revoke 0#6 v) s = .next (s.reject 0 .eState 0 Reg.secCmd false)))

/-! ## Shared resources and management protocols (R575 to R580, R599) -/

/-- R575 to R580: a free resource goes to its claimer and comes back from its owner only; a timer at zero sets its bit and, in periodic mode,
starts again; MCTP, PLDM and SPDM messages are answered. -/
def Obligations.ClaimsTimersProtocols : Prop :=
  ∀ s : State,
    (∀ (owner : BitVec 3) (res : BitVec 5) (feature : BitVec 8), (owner = 5#3 ∧ Writable s 0#6 Reg.shcCmd) ∨
        (1 ≤ owner.toNat ∧ owner.toNat ≤ 4 ∧ s.clk.por = false) → res.toNat < 0x1A →
      let r := res.toNat
      (s.ownerOf r = 0 → (r = resClkout → s.ownerOf resGpio15 = 0) → (r = resGpio15 → s.ownerOf resClkout = 0) →
        ∃ t, exec (.claim owner 0#6 res feature) s = .next t ∧ t.ownerOf r = owner.toNat ∧ t.fld (Reg.shcClaim r) 8 8 = feature.toNat ∧
          (∀ q, q ≠ r → (r = resClkout → q ≠ resGpio15) → t.reg (Reg.shcClaim q) = s.reg (Reg.shcClaim q)) ∧ t.mem = s.mem) ∧
      (s.ownerOf r ≠ 0 → ∃ t, exec (.claim owner 0#6 res feature) s = .next t ∧ t.reg (Reg.shcClaim r) = s.reg (Reg.shcClaim r)) ∧
      (s.ownerOf r = owner.toNat →
        ∃ t, exec (.releaseClaim owner 0#6 res) s = .next t ∧ t.ownerOf r = 0 ∧ t.mem = s.mem) ∧
      (s.ownerOf r ≠ owner.toNat → ∃ t, exec (.releaseClaim owner 0#6 res) s = .next t ∧
        t.reg (Reg.shcClaim r) = s.reg (Reg.shcClaim r))) ∧
    (∀ timer : BitVec 3, s.fld (Reg.shcTmrCfg timer.toNat) 0 2 = 1 → s.reg (Reg.shcTmrCnt timer.toNat) ≠ 0 →
      let t := timer.toNat
      ∃ u, exec (.timerExpiry timer) s = .next u ∧ u.fld Reg.shcTmrStatus t 1 = 1 ∧
        u.reg (Reg.shcTmrCnt t) = (if s.fld (Reg.shcTmrCfg t) 2 1 = 1 then s.reg (Reg.shcTmrPeriod t) else 0) ∧ u.mem = s.mem) ∧
    (s.clk.por = false →
      (∀ e : BitVec 8, exec (.mctpControl (some e)) s =
        .next ({ s with mgt := { s.mgt with mctpEid := e.toNat } }.emit (.mgmt 0 e.toNat))) ∧
      exec (.mctpControl none) s = .next (s.emit (.mgmt 0 s.mgt.mctpEid)) ∧
      (∀ id, exec (.pldmRequest (.sensor id)) s = .next (s.emit (.mgmt 1 (s.sensor id)))) ∧
      exec (.pldmRequest .other) s = .next (s.emit (.mgmt 1 0xE)) ∧
      (∀ id : BitVec 16, s.mgt.sessions.length < 2 → s.mgt.sessions.contains id.toNat = false →
        ∃ t, exec (.spdmMessage (.keyExchange id)) s = .next t ∧ t.mgt.sessions = s.mgt.sessions ++ [id.toNat] ∧
          t.outbox = s.outbox ++ [.mgmt 5 0] ∧ t.regs = s.regs ∧ t.mem = s.mem) ∧
      (∀ id : BitVec 16, s.mgt.sessions.contains id.toNat = true → s.hst.perst = false →
        ∃ t, exec (.spdmMessage (.ideKeyed id)) s = .next t ∧ t.fld Reg.hstLink 9 2 = 1 ∧ t.outbox = s.outbox ++ [.mgmt 5 0]) ∧
      exec (.spdmMessage .other) s = .next (s.emit (.mgmt 5 0xE)))

/-! ## Clocks and power (R555, R583 to R592, R594, R597 to R602) -/

namespace Sys2Proof.Claims

/-- The boot is past its clocks, so that a source or a PLL that comes or goes moves it no further (R612). -/
def Booted (s : State) : Prop := s.bootStep ≠ 1

end Sys2Proof.Claims

/-- R555, R583 to R592: a crystal that counts right is OK, one that fails its third try is failed; a source that stops, RACKCLK too, takes its PLLs' locks; a
PLL that locks says so; the loss of PLL0 ends service, of PLL4 the ports' line clock; a domain switches to a source that is up and restarts. -/
def Sys2Proof.Claims.ClockSourcesAndPlls : Prop :=
  ∀ s : State, Booted s →
    (∀ (xb : Bool) (count : Nat), s.clk.por = false → s.fld Reg.clkXctrl (bit xb) 1 = 1 → s.fld Reg.clkStatus (7 + bit xb) 1 = 0 →
      let nominal := if xb then 1600 else 800
      let good := 19 * nominal ≤ 20 * count ∧ 20 * count ≤ 21 * nominal
      (look 0 s.clk.tries (bit xb) < 3 → good →
        exec (.crystalStart xb count) s = .next (s.setFld Reg.clkStatus (7 + bit xb) 1 1)) ∧
      (look 0 s.clk.tries (bit xb) = 2 → ¬ good →
        ∃ t, exec (.crystalStart xb count) s = .next t ∧ t.fld Reg.clkStatus (10 + bit xb) 1 = 1 ∧
          t.fld Reg.clkStatus (7 + bit xb) 1 = 0 ∧ look 0 t.clk.tries (bit xb) = 3)) ∧
    (∀ xb : Bool, s.fld Reg.clkStatus (7 + bit xb) 1 = 1 →
      ∃ t, exec (.clockInputStop xb) s = .next t ∧ t.fld Reg.clkStatus (7 + bit xb) 1 = 0 ∧ t.fld Reg.clkStatus (10 + bit xb) 1 = 1 ∧
        t.mem = s.mem ∧
        ∀ n, n < 6 → s.fld (Reg.clkPllCfg n) 0 2 = bit xb → s.fld (Reg.clkPllCfg n) 2 1 = 1 → t.fld Reg.clkStatus n 1 = 0) ∧
    ((∀ n, n < 6 → s.fld (Reg.clkPllCfg n) 0 2 = 2 → s.fld (Reg.clkPllCfg n) 2 1 = 0) →
      exec .rackclkStop s = .next (s.setFld Reg.clkStatus 9 1 0)) ∧
    (∃ t, exec .rackclkStop s = .next t ∧ t.fld Reg.clkStatus 9 1 = 0 ∧ t.mem = s.mem ∧
      ∀ n, n < 6 → s.fld (Reg.clkPllCfg n) 0 2 = 2 → s.fld (Reg.clkPllCfg n) 2 1 = 1 → t.fld Reg.clkStatus n 1 = 0) ∧
    (∀ pll : BitVec 3, pll.toNat < 6 → s.clk.por = false →
      (s.fld Reg.clkStatus pll.toNat 1 = 0 → s.fld (Reg.clkPllCfg pll.toNat) 2 1 = 1 →
        s.refOk (s.fld (Reg.clkPllCfg pll.toNat) 0 2) = true → s.clk.pll3Lost = false →
        ∃ t, exec (.pllLock pll true []) s = .next t ∧ t.fld Reg.clkStatus pll.toNat 1 = 1 ∧ t.mem = s.mem ∧
          t.fref = (if pll.toNat = 0 then 0 else s.fref)) ∧
      (s.fld Reg.clkStatus pll.toNat 1 = 1 →
        ∃ t, exec (.lossOfLock pll) s = .next t ∧ t.fld Reg.clkStatus pll.toNat 1 = 0 ∧ t.fld Reg.clkStatus (12 + pll.toNat) 1 = 1 ∧
          t.mem = s.mem ∧ (pll.toNat < 3 → t.clk.outOfService = true) ∧ (pll.toNat = 3 → t.clk.pll3Lost = true) ∧
          (pll.toNat = 4 → ∀ p, p < 22 → s.portSt p = 2 → t.portSt p = 3))) ∧
    (s.clk.pll3Lost = true →
      ∃ t, exec .pll3RelockTimeout s = .next t ∧ t.clk.pll3Lost = false ∧ t.mem = s.mem ∧ ∀ n, n < 32 → t.regionUp n = false) ∧
    (∀ (dom : BitVec 2) (v : Word), Writable s 0#6 (Reg.clkDomSel dom.toNat) → v.toNat < 6 →
      v.toNat ≠ s.fld (Reg.clkDomSel dom.toNat) 0 3 → (dom = 0#2 → ∀ c ∈ s.clusters, c.2.dom = .off) →
      (dom = 1#2 → s.anyTeam = false) → (dom = 2#2 → s.fld Reg.gdrCfg 5 1 = 0) → listed s.clk.switching dom.toNat = false →
      (s.sourceUp dom.toNat v.toNat = true →
        ∃ t, exec (.clkDomSel 0#6 dom v) s = .next t ∧ t.fld (Reg.clkDomSel dom.toNat) 0 3 = v.toNat ∧
          t.fld Reg.clkStatus (18 + dom.toNat) 1 = 1 ∧ listed t.clk.switching dom.toNat = true ∧ t.mem = s.mem) ∧
      (s.sourceUp dom.toNat v.toNat = false →
        exec (.clkDomSel 0#6 dom v) s = .next (s.reject 0 .eState 0 (Reg.clkDomSel dom.toNat) false))) ∧
    (∀ dom : BitVec 2, listed s.clk.switching dom.toNat = true →
      ∃ t, exec (.domainRestart dom) s = .next t ∧ t.fld Reg.clkStatus (18 + dom.toNat) 1 = 0 ∧
        listed t.clk.switching dom.toNat = false ∧ t.fref = (if dom = 0#2 then 0 else s.fref) ∧ t.mem = s.mem)

/-- R583, R587, R594: the host enables crystals, configures a PLL that no running domain uses, and sets CLKOUT where it holds its claim and the
rate is in range. -/
def Sys2Proof.Claims.ClockRegisters : Prop :=
  ∀ (v : Word) (s : State),
    (Writable s 0#6 Reg.clkXctrl → bitsOf v.toNat 4 28 = 0 →
      ∃ t, exec (.clkXctrl 0#6 v) s = .next t ∧ t.fld Reg.clkXctrl 0 2 = v.toNat % 4 ∧
        (∀ x, x < 2 → bitOf v.toNat x = true → s.fld Reg.clkXctrl x 1 = 0 → look 0 t.clk.tries x = 0) ∧ t.mem = s.mem) ∧
    (∀ pll : BitVec 3, pll.toNat < 6 → Writable s 0#6 (Reg.clkPllCfg pll.toNat) → v.toNat % 4 ≠ 3 →
      (s.pllInUse pll.toNat = true → exec (.clkPllnCfg 0#6 pll v) s = .next (s.reject 0 .eBusy 0 (Reg.clkPllCfg pll.toNat) false)) ∧
      (s.pllInUse pll.toNat = false → (bitOf v.toNat 2 = true → s.refOk (v.toNat % 4) = true) → 8 ≤ bitsOf v.toNat 3 9 →
        ∃ t, exec (.clkPllnCfg 0#6 pll v) s = .next t ∧ t.reg (Reg.clkPllCfg pll.toNat) = v.toNat ∧ t.fld Reg.clkStatus pll.toNat 1 = 0 ∧
          t.mem = s.mem)) ∧
    (Writable s 0#6 Reg.clkClkout → bitsOf v.toNat 15 17 = 0 →
      (s.ownerOf resClkout = 5 → s.clkoutRate (v.toNat % 16) ≤ 200000 * (bitsOf v.toNat 4 10 + 1) → v.toNat % 16 < 14 →
        exec (.clkClkout 0#6 v) s = .next (s.setReg Reg.clkClkout v.toNat)) ∧
      (s.ownerOf resClkout ≠ 5 → exec (.clkClkout 0#6 v) s = .next (s.reject 0 .ePerm 0 Reg.clkClkout false)))

/-- Clock sources, PLLs, domains and their registers (R583 to R594). -/
def Obligations.ClocksAndPlls : Prop := Claims.ClockSourcesAndPlls ∧ Claims.ClockRegisters

/-- R597 to R599, R602: REST begins entry and stops every cluster; entry completes once all is quiet; a wake begins, and completes with the
ports in training; a sensor past its limit trips: it is recorded, the pin falls, and the device leaves service. -/
def Obligations.RestWakeTrip : Prop :=
  ∀ s : State,
    (∀ v : Word, Writable s 0#6 Reg.pwrCmd →
      (v.toNat = 1 → firstCheck s.restChecks = none →
        ∃ t, exec (.rest 0#6 v) s = .next t ∧ t.fld Reg.pwrStatus 0 2 = 1 ∧ t.mem = s.mem ∧
          ∀ c ∈ t.clusters, c.2.dom = .off ∨ c.2.stopReq = true) ∧
      (v.toNat = 1 → ∀ st, firstCheck s.restChecks = some st → exec (.rest 0#6 v) s = .next (s.reject 0 st 0 Reg.pwrCmd false)) ∧
      (v.toNat = 2 → s.fld Reg.pwrStatus 0 2 = 2 →
        ∃ t, exec (.wake 0#6 v) s = .next t ∧ t.fld Reg.pwrStatus 0 2 = 3 ∧ t.mem = s.mem) ∧
      (v.toNat = 2 → s.fld Reg.pwrStatus 0 2 = 1 →
        exec (.wake 0#6 v) s = .next { s with clk := { s.clk with wakePending := true } })) ∧
    (s.fld Reg.pwrStatus 0 2 = 1 → (∀ c ∈ s.clusters, c.2.dom = .off) → s.plt.staging = [] → s.plt.moves = [] → s.plt.writeBacks = [] →
      s.clk.wakePending = false →
      ∃ t, exec .restEntered s = .next t ∧ t.fld Reg.pwrStatus 0 2 = 2 ∧ t.fld Reg.clkStatus 0 5 = 0 ∧
        t.reg Reg.pwrRestCnt = s.reg Reg.pwrRestCnt + 1 ∧ (∀ p, p < 22 → t.portSt p = 0 ∨ t.portSt p = 4) ∧ t.mem = s.mem) ∧
    (s.wakeReady = true →
      ∃ t, exec (.wakeComplete []) s = .next t ∧ t.fld Reg.pwrStatus 0 2 = 0 ∧
        ∀ p, p < 22 → s.fld (Reg.portCtrl p) 0 1 = 1 → s.fld (Reg.portPrbs p) 0 1 = 0 → t.portSt p = 1) ∧
    (∀ (dram : Bool) (reading : BitVec 12), s.fld Reg.pwrStatus 20 1 = 0 → s.clk.aon = true →
      (if dram then 520 else 500) ≤ reading.toNat →
      ∃ t, exec (.thermalTrip dram reading) s = .next t ∧ t.fld Reg.pwrStatus 20 1 = 1 ∧ t.fld Reg.pwrTrip 0 2 = (if dram then 2 else 1) ∧
        t.fld Reg.pwrTrip 2 12 = reading.toNat ∧ .pin pinThermtrip 0 ∈ t.outbox ∧ t.clk.outOfService = true ∧ t.mem = s.mem)

/-! ## Resets, boot, JTAG (R269, R605 to R618) -/

/-- R605 to R613: POR# resets everything but fuses, OTP, boot flash and repairs, and takes the link down; its release finds the images and goes on
to the clocks, or stays in recovery where no slot holds a valid one; VDD_AON in tolerance drives CORE_VID. -/
def Sys2Proof.Claims.PowerOnReset : Prop :=
  ∀ s : State,
    (∃ t, exec .porAssert s = .next t ∧ t.clk.por = true ∧ t.linkDown = true ∧ t.mem = [] ∧ t.teams = [] ∧ t.cores = [] ∧
      t.dlr = {} ∧ t.plt = {} ∧ t.fab = {} ∧ t.mgt.slots = s.mgt.slots ∧ t.mgt.boot = s.mgt.boot ∧ t.mgt.otpSvn = s.mgt.otpSvn ∧
      t.mgt.revoked = s.mgt.revoked ∧ t.reg Reg.secState = s.secWord ∧ ∀ a, a ≠ Reg.secState → t.reg a = regReset a) ∧
    (∀ (factory : List (Nat × List Byte)) (cks : List ImgCheck) (rack : Bool), s.clk.por = true → s.bootRecord.2.1 ≤ 1 →
      s.bootStopped = false → s.fld Reg.clkStatus 10 2 = 0 → (∀ n, n < 6 → s.fld Reg.clkStatus n 1 = 0) →
      let ok := fun (k : Nat) => s.slotCheck (s.flashImage factory (2 + k)) (2 + k) (nth ⟨false, false⟩ cks k)
      let start := fun (k : Nat) =>
        ∃ t, exec (.porRelease factory cks [] rack) s = .next t ∧ t.clk.por = false ∧ t.bootStep = 1 ∧ t.fld Reg.umpBoot 4 1 = k ∧
          t.runSlot 1 = k ∧ t.fld Reg.umpStatus 0 2 = 1 ∧ t.reg Reg.umpVersion = imgVersion (s.flashImage factory (2 + k)) ∧ t.mem = s.mem
      let gov := s.bootRecord.2.1
      (ok gov = .ok → start gov) ∧ (ok gov ≠ .ok → ok (1 - gov) = .ok → start (1 - gov)) ∧
      (ok gov ≠ .ok → ok (1 - gov) ≠ .ok →
        ∃ t, exec (.porRelease factory cks [] rack) s = .next t ∧ t.bootStep = 0xF ∧ t.fld Reg.umpBoot 8 8 = statusCode (ok (1 - gov)))) ∧
    exec .vddAonInTolerance s = .next ({ s with clk := { s.clk with aon := true } }.emit (.pin pinCoreVid s.vidCode))

/-- R614 to R616: a team reset with its key stops an attempt whose check is not done and raises RST; at the end of its drain the attempt is
discarded and replayed, and every core of the team stands at its turn-start state with its turn area zero. -/
def Sys2Proof.Claims.TeamResets : Prop :=
  ∀ (team : BitVec 6) (s : State),
    let n := team.toNat
    let tm := s.team n
    (∀ v : Word, Writable s 0#6 (Reg.dlrTeamRst n) → bitsOf v.toNat 1 23 = 0 → tm.loaded = true → tm.stopped = false →
      (bitsOf v.toNat 24 8 = 0xE1 → bitOf v.toNat 0 = true → s.resetRuns n = false → s.fieldPause n = false → s.sliceSt = 0 →
        ∃ t, exec (.teamReset 0#6 team v) s = .next t ∧ t.resetRuns n = true ∧ (t.team n).resetReq = true ∧ t.mem = s.mem ∧
          (tm.running = true → tm.step ≠ 2 → ∀ m ∈ tm.cores, (s.core m).inTurn = true → (t.core m).exec = (if (s.core m).exec = .atEnd then .atEnd else .halted))) ∧
      (bitsOf v.toNat 24 8 ≠ 0xE1 → exec (.teamReset 0#6 team v) s = .next (s.reject 0 .ePerm 0 (Reg.dlrTeamRst n) false)) ∧
      (bitsOf v.toNat 24 8 = 0xE1 → s.resetRuns n = true →
        exec (.teamReset 0#6 team v) s = .next (s.reject 0 .eBusy 0 (Reg.dlrTeamRst n) false))) ∧
    (tm.resetReq = true → s.drained tm = true → tm.running = true → tm.step ≠ 2 → s.sliceSt = 0 → ReadClean n s →
      ∃ t, exec (.teamResetDrainDone team) s = .next t ∧ (t.team n).resetReq = false ∧ (t.team n).running = false ∧
        t.reg Reg.fltReplayCnt = s.reg Reg.fltReplayCnt + 1 ∧ t.reg Reg.dlrDiscardCnt = s.reg Reg.dlrDiscardCnt + 1 ∧
        ∀ m ∈ tm.cores, (t.core m).exec = .idle ∧ (t.core m).inTurn = false)

/-- POR# and its release, and the reset of a team (R605 to R616). -/
def Obligations.DeviceAndTeamResets : Prop := Claims.PowerOnReset ∧ Claims.TeamResets

/-- R576, R609, R617, R618: the TAP's instructions. -/
def Obligations.JtagInstructions : Prop :=
  ∀ s : State,
    (∃ t, exec .trst s = .next t ∧ t.clk.tap = tapIdcode ∧ t.clk.linktest = none ∧ t.mem = s.mem ∧
      ∀ k, k < 32 → t.reg (Reg.shcClaim k) = (if s.ownerOf k = 1 then regReset (Reg.shcClaim k) else s.reg (Reg.shcClaim k))) ∧
    (∀ cells : Nat,
      let drives := fun (c : Instr) (k v : Nat) =>
        exec c s = .next ({ s with clk := { s.clk with tap := k, boundary := v } }.emit (.pin pinBoundary v))
      drives (.extest cells) 0 cells ∧ drives (.extestPulse cells) 5 cells ∧ drives (.extestTrain cells) 6 cells ∧
        drives .clamp 3 s.clk.boundary) ∧
    (∀ pins cells : Nat, exec (.sample pins cells) s =
      .next ({ s with clk := { s.clk with tap := 1, boundary := cells } }.emit (.pin pinTdo pins))) ∧
    exec .idcode s = .next ({ s with clk := { s.clk with tap := 2 } }.emit (.pin pinTdo idcode)) ∧
    exec .highz s = .next ({ s with clk := { s.clk with tap := 4 } }.emit (.pin pinHighz 0)) ∧
    exec .bypass s = .next { s with clk := { s.clk with tap := 0xFF } } ∧
    (s.anyTeam = true → ∀ (w : Bool) (off : BitVec 26) (v : Dword) (col : BitVec 6) (row : BitVec 7) (pat : BitVec 4)
      (lt : Option (BitVec 2)), exec (.dbg w off v) s = exec .bypass s ∧ exec (.mbist col row pat) s = exec .bypass s ∧
        exec (.linktest lt) s = exec .bypass s) ∧
    (s.anyTeam = false →
      (∀ lt : Option (BitVec 2), exec (.linktest lt) s =
        .next { s with clk := { s.clk with tap := 0x12, linktest := lt.map BitVec.toNat } }) ∧
      (∀ (off : BitVec 26) (v : Dword) (d : RegDef), findReg off.toNat regMap = some (d, off.toNat) →
        ∃ t, exec (.dbg false off v) s = .next t ∧ t.clk.tap = 0x10 ∧ t.regs = s.regs ∧ t.mem = s.mem ∧
          ∃ x, t.outbox = s.outbox ++ [.pin pinTdo x]) ∧
      (∀ (col : BitVec 6) (row : BitVec 7) (pat : BitVec 4), row.toNat < 72 → pat.toNat < 4 →
        let site := row.toNat * 64 + col.toNat
        s.testable site = true → (s.site site).testing = none →
        ∃ t, exec (.mbist col row pat) s = .next t ∧ t.clk.tap = 0x11 ∧ (t.site site).testing = some pat.toNat ∧
          t.reg Reg.vltBistCtrl = pat.toNat))

/-! ## The state after reset -/

/-- The state after reset: no command waits, memory lists nothing and is in canonical form, POR# is low so that the link is down, no team is
loaded, every cluster is OFF, every core idle, every port in reset, the slice free; the registers hold the values that their tables give. -/
def Obligations.ResetState : Prop :=
  State.reset.pending = [] ∧ State.reset.mem.wf = true ∧ State.reset.mem = [] ∧ State.reset.linkDown = true ∧ State.reset.anyTeam = false ∧
  (∀ c, (State.reset.cluster c).dom = .off ∧ (State.reset.cluster c).team = none) ∧
  (∀ n, (State.reset.core n).exec = .idle ∧ (State.reset.core n).fault.code = 0) ∧
  (∀ a, State.reset.reg a = regReset a) ∧ (∀ p, p < 22 → State.reset.portSt p = 0) ∧ State.reset.sliceSt = 0 ∧
  State.reset.reg Reg.glbTicks = 0 ∧ State.reset.outbox = []

/-! ## Rejected accesses (R538, R540) -/

/-- R538, R539: a write of a PF register by another function is turned away with E_PERM, whatever its row, and nothing else happens: the first
rejection of the function is kept in FN_ACC_ERR, FN_ACC_CNT and HST_REJ_CNT count it. -/
def Sys2Proof.Claims.PfRegistersRefuseVfs : Prop :=
  ∀ (fn : BitVec 6) (s : State), LinkOpen s → fn ≠ 0#6 →
    let no := fun (c : Instr) (off : Nat) => exec c s = .next (s.reject fn.toNat .ePerm 0 off false)
    (∀ (v : Word) (d : Dword) (port : BitVec 5) (win : BitVec 4) (dest : BitVec 12) (pll : BitVec 3) (dom : BitVec 2) (team : BitVec 6)
      (rank : BitVec 7) (ck : ImgCheck) (res : BitVec 5) (feature : BitVec 8),
      no (.burTableSel fn v) Reg.burTableSel ∧ no (.burWinCfg fn win v) (Reg.burWinCfg win.toNat) ∧ no (.ngvId fn v) Reg.ngvId ∧
      no (.ngvDest fn dest d) (Reg.ngvDest dest.toNat) ∧ no (.portCtrl fn port v) (Reg.portCtrl port.toNat) ∧
      no (.portCred fn port v) (Reg.portCred port.toNat) ∧ no (.portPrbs fn port v) (Reg.portPrbs port.toNat) ∧
      no (.activate fn) Reg.slcCtrl ∧ no (.dissolve fn) Reg.slcCtrl ∧ no (.cut fn rank) Reg.slcCtrl ∧ no (.restore fn) Reg.slcCtrl ∧
      no (.detCfg fn v) Reg.detCfg ∧ no (.detRingTail fn d) Reg.detRingTail ∧ no (.detTlogTail fn d) Reg.detTlogTail ∧
      no (.start fn v) Reg.detJobCtrl ∧ no (.abort fn) Reg.detJobCtrl ∧ no (.uhlRtSet fn d) Reg.uhlRtSet ∧
      no (.uhlSnapT fn d) Reg.uhlSnapT ∧ no (.stageLocal fn v ck) Reg.umpStageCmd ∧ no (.stageRack fn v ck) Reg.umpStageCmd ∧
      no (.umpSwitch fn v) Reg.umpSwitch ∧ no (.umpSvcOut fn v) Reg.umpSvcOut ∧ no (.commitSvn fn v) Reg.secCmd ∧
      no (.revoke fn v) Reg.secCmd ∧ no (.claim 5#3 fn res feature) Reg.shcCmd ∧ no (.releaseClaim 5#3 fn res) Reg.shcCmd ∧
      no (.clkDomSel fn dom v) (Reg.clkDomSel dom.toNat) ∧ no (.clkXctrl fn v) Reg.clkXctrl ∧ no (.clkClkout fn v) Reg.clkClkout ∧
      no (.clkPllnCfg fn pll v) (Reg.clkPllCfg pll.toNat) ∧ no (.rest fn v) Reg.pwrCmd ∧ no (.wake fn v) Reg.pwrCmd ∧
      no (.teamReset fn team v) (Reg.dlrTeamRst team.toNat) ∧ no (.gdrRetireCmd fn v) Reg.gdrRetireCmd) ∧
    ∀ off, ∃ t, t = s.reject fn.toNat .ePerm 0 off false ∧ t.reg Reg.hstRejCnt = s.reg Reg.hstRejCnt + 1 ∧
      t.reg (Reg.fnAccCnt fn.toNat) = s.reg (Reg.fnAccCnt fn.toNat) + 1 ∧ t.fld (Reg.fnAccErr fn.toNat) 11 1 = 1 ∧
      (s.fld (Reg.fnAccErr fn.toNat) 11 1 = 0 → t.fld (Reg.fnAccErr fn.toNat) 0 8 = 8) ∧ t.mem = s.mem ∧ t.teams = s.teams ∧ t.cores = s.cores

/-- Commands and registers of the PF refuse every other function (R538 to R540). -/
def Obligations.VfsAreRefused : Prop := Claims.PfCommandsRefuseVfs ∧ Claims.PfRegistersRefuseVfs
end

