-- ==== Sys2Proof/Laws/Tables.lean ====
section
/-! SUPPORT. Laws of the sparse tables: a read after a write of one entry. -/

namespace Sys2Proof.Machine

variable {α : Type}

@[simp] theorem look_put_same (d : α) (t : List (Nat × α)) (n : Nat) (v : α) : look d (put t n v) n = v := by
  induction t with
  | nil => simp [put, look]
  | cons h t ih =>
    obtain ⟨k, w⟩ := h
    by_cases h1 : n < k
    · simp [put, h1, look]
    · by_cases h2 : n = k
      · simp [put, h2, look]
      · simp [put, h1, h2, look, Ne.symm h2, ih]

theorem look_put_other (d : α) (t : List (Nat × α)) (n m : Nat) (v : α) (h : m ≠ n) :
    look d (put t n v) m = look d t m := by
  induction t with
  | nil => simp [put, look, Ne.symm h]
  | cons x t ih =>
    obtain ⟨k, w⟩ := x
    by_cases h1 : n < k
    · simp [put, h1, look, Ne.symm h]
    · by_cases h2 : n = k
      · subst h2; simp [put, look, Ne.symm h]
      · by_cases h3 : k = m
        · subst h3; simp [put, h1, h2, look]
        · simp [put, h1, h2, look, h3, ih]

@[simp] theorem find?_put_same (t : List (Nat × α)) (n : Nat) (v : α) : find? (put t n v) n = some v := by
  induction t with
  | nil => simp [put, find?]
  | cons h t ih =>
    obtain ⟨k, w⟩ := h
    by_cases h1 : n < k
    · simp [put, h1, find?]
    · by_cases h2 : n = k
      · simp [put, h2, find?]
      · simp [put, h1, h2, find?, Ne.symm h2, ih]

theorem find?_put_other (t : List (Nat × α)) (n m : Nat) (v : α) (h : m ≠ n) : find? (put t n v) m = find? t m := by
  induction t with
  | nil => simp [put, find?, Ne.symm h]
  | cons x t ih =>
    obtain ⟨k, w⟩ := x
    by_cases h1 : n < k
    · simp [put, h1, find?, Ne.symm h]
    · by_cases h2 : n = k
      · subst h2; simp [put, find?, Ne.symm h]
      · by_cases h3 : k = m
        · subst h3; simp [put, h1, h2, find?]
        · simp [put, h1, h2, find?, h3, ih]

/-- A write over a write of one entry. -/
@[simp] theorem put_put_same (t : List (Nat × α)) (n : Nat) (v w : α) : put (put t n v) n w = put t n w := by
  induction t with
  | nil => simp [put]
  | cons h t ih =>
    obtain ⟨k, x⟩ := h
    by_cases h1 : n < k
    · simp [put, h1]
    · by_cases h2 : n = k
      · simp [put, h2]
      · simp [put, h1, h2, ih]

@[simp] theorem look_upd_same (d : α) (t : List (Nat × α)) (n : Nat) (f : α → α) : look d (upd d t n f) n = f (look d t n) := by
  simp [upd]

theorem look_upd_other (d : α) (t : List (Nat × α)) (n m : Nat) (f : α → α) (h : m ≠ n) :
    look d (upd d t n f) m = look d t m := by
  simp [upd, look_put_other d t n m _ h]

end Sys2Proof.Machine
end

