-- ==== Sys2Proof/Laws/Issue.lean ====
section
/-! SUPPORT. Laws of cores and of issue: what one instruction does when it issues, when its bundle is suppressed, and when its core is not
issuing. -/

namespace Sys2Proof.Machine

/-! ## Cores -/

@[simp] theorem core_setCore_same (s : State) (n : Nat) (c : Core) : (s.setCore n c).core n = c := by
  simp [State.setCore, State.core, State.cell]

theorem core_setCore_other (s : State) (n m : Nat) (c : Core) (h : m ≠ n) : (s.setCore n c).core m = s.core m := by
  simp [State.setCore, State.core, State.cell, look_put_other _ _ _ _ _ h]

@[simp] theorem core_updCore_same (s : State) (n : Nat) (f : Core → Core) : (s.updCore n f).core n = f (s.core n) := by
  simp [State.updCore]

theorem core_updCore_other (s : State) (n m : Nat) (f : Core → Core) (h : m ≠ n) : (s.updCore n f).core m = s.core m :=
  core_setCore_other s n m _ h

@[simp] theorem core_setCell_same (s : State) (n : Nat) (x : CoreCell) : (s.setCell n x).core n = x.cur := by
  simp [State.setCell, State.core, State.cell]

theorem core_setCell_other (s : State) (n m : Nat) (x : CoreCell) (h : m ≠ n) : (s.setCell n x).core m = s.core m := by
  simp [State.setCell, State.core, State.cell, look_put_other _ _ _ _ _ h]

/-- A write of one core over a write of the same core. -/
@[simp] theorem setCore_setCore (s : State) (n : Nat) (c d : Core) : (s.setCore n c).setCore n d = s.setCore n d := by
  simp [State.setCore, State.cell]

/-! ## Registers -/

@[simp] theorem reg_setReg_same (s : State) (a v : Nat) : (s.setReg a v).reg a = v := by
  simp [State.setReg, State.reg]

theorem reg_setReg_other (s : State) (a b v : Nat) (h : b ≠ a) : (s.setReg a v).reg b = s.reg b := by
  simp [State.setReg, State.reg, find?_put_other _ _ _ _ h]

/-! ## Issue -/

theorem firstFault_nil : firstFault [] = none := rfl

theorem firstFault_cons_false (f : CoreFault) (o : Nat) (t : List (Bool × CoreFault × Nat)) :
    firstFault ((false, f, o) :: t) = firstFault t := rfl

theorem firstFault_cons_true (f : CoreFault) (o : Nat) (t : List (Bool × CoreFault × Nat)) :
    firstFault ((true, f, o) :: t) = some (f, o) := rfl

/-- No condition holds exactly where each is false. -/
theorem firstFault_eq_none : ∀ {l : List (Bool × CoreFault × Nat)}, firstFault l = none ↔ ∀ x ∈ l, x.1 = false
  | [] => by simp [firstFault]
  | (b, f, o) :: t => by
    cases b
    · simp [firstFault, firstFault_eq_none (l := t)]
    · simp [firstFault]

/-- The first instruction of a bundle finds its core not issuing, or its bundle open already: nothing to act on (log entry 5). -/
theorem issueOp_not_issuing {i : Issue} {cls : Nat} {spec : State → Core → OpSpec} {s : State} (hf : i.first = true)
    (h : (s.core i.core.toNat).exec ≠ .issuing) : issueOp i cls spec s = s := by
  simp [issueOp, hf, h]

/-- A later instruction of a bundle that is not open, or whose slots have passed it, has nothing to act on (log entries 5, 126). -/
theorem issueOp_out_of_order {i : Issue} {cls : Nat} {spec : State → Core → OpSpec} {s : State} (hf : i.first = false)
    (h : (s.core i.core.toNat).bundleOpen = false ∨ i.slot.toNat < (s.core i.core.toNat).bundleSlot) : issueOp i cls spec s = s := by
  rcases h with h | h
  · simp [issueOp, hf, h]
  · simp [issueOp, hf, Nat.not_le.mpr h]

/-- The instruction finds its place: its bundle opens with it and issues, or is open and has not passed its slot. -/
def TakesSlot (i : Issue) (s o : State) : Prop :=
  o = (if i.first then openBundle i.core.toNat s else s) ∧
  (i.first = true → (s.core i.core.toNat).exec = .issuing ∧ (s.core i.core.toNat).bundleOpen = false ∧ (o.core i.core.toNat).exec = .issuing) ∧
  (i.first = false → (s.core i.core.toNat).bundleOpen = true ∧ (s.core i.core.toNat).bundleSlot ≤ i.slot.toNat)

theorem issueOp_takesSlot {i : Issue} {cls : Nat} {spec : State → Core → OpSpec} {s o : State} (h : TakesSlot i s o) :
    issueOp i cls spec s = issueIn i cls spec o := by
  obtain ⟨ho, h1, h2⟩ := h
  cases hf : i.first
  · obtain ⟨a, b⟩ := h2 hf
    simp [issueOp, hf, a, b, ho]
  · obtain ⟨a, b, d⟩ := h1 hf
    subst ho
    simp only [hf, if_true] at d ⊢
    simp [issueOp, hf, a, b, d]

/-- A bundle that has met no interlock meets none with an instruction that is not held. -/
theorem stallsWith_nil {c : Core} {i : Issue} {cls : Nat} {sp : OpSpec} (h1 : c.bundleStall = [])
    (hs : c.sect.loose = true → sp.stall = [] ∧ c.awaits sp.reads = []) : c.stallsWith i cls sp = [] := by
  by_cases hl : c.sect.loose = true
  · simp [Core.stallsWith, h1, hs hl]
  · simp [Core.stallsWith, h1, hl]

/-- A bundle that has met no fault meets none with an instruction in its own slot that raises none. -/
theorem faultsWith_nil {c : Core} {i : Issue} {cls : Nat} {sp : OpSpec} (h2 : c.bundleFaults = []) (h3 : i.slot.toNat = cls)
    (hf : firstFault sp.faults = none) : c.faultsWith i cls sp = [] := by
  simp [Core.faultsWith, h2, h3, hf]

/-- The fault of an instruction in its own slot, in a bundle that has met none. -/
theorem faultsWith_one {c : Core} {i : Issue} {cls : Nat} {sp : OpSpec} {x : CoreFault × Nat} (h2 : c.bundleFaults = [])
    (h3 : i.slot.toNat = cls) (hf : firstFault sp.faults = some x) : c.faultsWith i cls sp = [(i.slot.toNat, x)] := by
  simp [Core.faultsWith, h2, h3, hf, placeFault]

/-- An instruction that issues in its own slot without an interlock or a fault, in a bundle that has met none, has its effect; then the
bundle has issued or goes on. -/
theorem issueOp_issues {i : Issue} {cls : Nat} {spec : State → Core → OpSpec} {s o : State} {c : Core}
    (h : TakesSlot i s o) (hc : c = o.core i.core.toNat) (h1 : c.bundleStall = []) (h2 : c.bundleFaults = []) (h3 : i.slot.toNat = cls)
    (hs : c.sect.loose = true → (spec o c).stall = [] ∧ c.awaits (spec o c).reads = [])
    (hf : firstFault (spec o c).faults = none)
    (he : closesBundle i = true → bundleEndFaults i.core.toNat (spec o c).eff = []) :
    issueOp i cls spec s = slotEnds i (spec o c).eff := by
  subst hc
  rw [issueOp_takesSlot h]
  simp only [issueIn, stallsWith_nil h1 hs, faultsWith_nil h2 h3 hf, h3, beq_self_eq_true, List.isEmpty_nil, Bool.and_self, Bool.or_true,
    if_true]
  by_cases hcl : closesBundle i = true
  · simp [endSlot, hcl, he hcl]
  · simp [endSlot, slotEnds, hcl]

/-- An instruction whose fault conditions hold, the last of a bundle that has met nothing else, suppresses its bundle and records the first
of them (R154, R156). -/
theorem issueOp_faults {i : Issue} {cls : Nat} {spec : State → Core → OpSpec} {s o : State} {c : Core} {f : CoreFault} {x : Nat}
    (h : TakesSlot i s o) (hc : c = o.core i.core.toNat) (h1 : c.bundleStall = []) (h2 : c.bundleFaults = []) (h3 : i.slot.toNat = cls)
    (hs : c.sect.loose = true → (spec o c).stall = [] ∧ c.awaits (spec o c).reads = [])
    (hf : firstFault (spec o c).faults = some (f, x)) (hcl : closesBundle i = true)
    (he : bundleEndFaults i.core.toNat (if i.slot = 3#2 then o else (spec o c).eff) = []) :
    issueOp i cls spec s = suppress i.core.toNat [(i.slot.toNat, f, x)] o := by
  subst hc
  rw [issueOp_takesSlot h]
  simp only [issueIn, stallsWith_nil h1 hs, faultsWith_one h2 h3 hf, h3, beq_self_eq_true]
  by_cases h4 : i.slot = 3#2
  · simp only [h4, if_true] at he
    simp [endSlot, hcl, he, h4]
  · simp only [h4, if_false] at he
    simp [endSlot, hcl, he, h4]

/-- A bundle shows no fault at its end where instruction memory holds words that a command can name and issue stays in its bank. -/
theorem bundleEndFaults_setCore {s : State} {n : Nat} {c : Core} (hw : s.wordFaults n c.pc = []) (hr : c.runsOut = false) :
    bundleEndFaults n (s.setCore n c) = [] := by
  simp only [bundleEndFaults, core_setCore_same, hr]
  exact hw

/-- No span read: nothing is awaited. -/
@[simp] theorem awaits_nil (c : Core) : c.awaits [] = [] := by simp [Core.awaits]

end Sys2Proof.Machine
end

