-- ==== Sys2Proof/Laws/Memory.lean ====
section
/-! SUPPORT. Laws of the memory: every operation keeps the canonical form; a byte read after a write. -/

namespace Sys2Proof.Machine

theorem Mem.wfFrom_mono {lo hi : Nat} (h : lo ≤ hi) : ∀ {m : Mem}, Mem.wfFrom hi m = true → Mem.wfFrom lo m = true
  | [], _ => rfl
  | (a, b) :: t, hm => by
    simp only [Mem.wfFrom, Bool.and_eq_true, decide_eq_true_eq] at hm ⊢
    exact ⟨⟨by omega, hm.1.2⟩, hm.2⟩

theorem Mem.wfFrom_set (n : Nat) (x : Byte) : ∀ (m : Mem) (lo : Nat), lo ≤ n → Mem.wfFrom lo m = true →
    Mem.wfFrom lo (Mem.set m n x) = true
  | [], lo, hn, _ => by
    by_cases hx : x = Mem.unwritten <;> simp [Mem.set, hx, Mem.wfFrom, hn]
  | (a, b) :: t, lo, hn, hm => by
    simp only [Mem.wfFrom, Bool.and_eq_true, decide_eq_true_eq] at hm
    obtain ⟨⟨ha, hb⟩, ht⟩ := hm
    by_cases h1 : n < a
    · by_cases hx : x = Mem.unwritten
      · simp [Mem.set, h1, hx, Mem.wfFrom, ha, ht, hb]
      · simp [Mem.set, h1, hx, Mem.wfFrom, hn, ht, hb]
    · by_cases h2 : n = a
      · subst h2
        by_cases hx : x = Mem.unwritten
        · simpa [Mem.set, hx] using Mem.wfFrom_mono (by omega) ht
        · simp [Mem.set, hx, Mem.wfFrom, ha, ht]
      · have := Mem.wfFrom_set n x t (a + 1) (by omega) ht
        simp [Mem.set, h1, h2, Mem.wfFrom, ha, hb, this]

theorem Mem.wf_set {m : Mem} (n : Nat) (x : Byte) (h : m.wf = true) : (Mem.set m n x).wf = true :=
  Mem.wfFrom_set n x m 0 (Nat.zero_le n) h

/-- Every write of memory keeps the canonical form. -/
theorem Mem.wf_write (bs : List Byte) : ∀ {m : Mem} (n : Nat), m.wf = true → (Mem.write m n bs).wf = true := by
  induction bs with
  | nil => intro m n h; simpa [Mem.write] using h
  | cons x xs ih => intro m n h; exact ih (n + 1) (Mem.wf_set n x h)

theorem Mem.get_of_lt : ∀ {m : Mem} {lo n : Nat}, Mem.wfFrom lo m = true → n < lo → Mem.get m n = Mem.unwritten
  | [], _, _, _, _ => rfl
  | (a, b) :: t, lo, n, hm, hn => by
    simp only [Mem.wfFrom, Bool.and_eq_true, decide_eq_true_eq] at hm
    have : a ≠ n := by omega
    simp [Mem.get, this, Mem.get_of_lt hm.2 (show n < a + 1 by omega)]

theorem Mem.get_set_from (n : Nat) (x : Byte) (k : Nat) : ∀ (m : Mem) (lo : Nat), Mem.wfFrom lo m = true →
    Mem.get (Mem.set m n x) k = if k = n then x else Mem.get m k
  | [], _, _ => by
    by_cases hx : x = Mem.unwritten <;> by_cases hk : k = n <;> simp [Mem.set, hx, Mem.get, hk, eq_comm]
    omega
  | (a, b) :: t, lo, hm => by
    simp only [Mem.wfFrom, Bool.and_eq_true, decide_eq_true_eq] at hm
    obtain ⟨⟨ha, hb⟩, ht⟩ := hm
    have ih := Mem.get_set_from n x k t (a + 1) ht
    by_cases h1 : n < a
    · by_cases hx : x = Mem.unwritten
      · by_cases hk : k = n
        · subst hk
          have hak : a ≠ k := by omega
          simp [Mem.set, h1, hx, Mem.get, hak, Mem.get_of_lt ht (show k < a + 1 by omega)]
        · simp [Mem.set, h1, hx, hk]
      · by_cases hk : k = n
        · subst hk; simp [Mem.set, h1, hx, Mem.get]
        · simp [Mem.set, h1, hx, Mem.get, hk, Ne.symm hk]
    · by_cases h2 : n = a
      · subst h2
        by_cases hx : x = Mem.unwritten
        · by_cases hk : k = n
          · subst hk; simp [Mem.set, hx, Mem.get_of_lt ht (show k < k + 1 by omega)]
          · simp [Mem.set, hx, hk, Mem.get, Ne.symm hk]
        · by_cases hk : k = n
          · subst hk; simp [Mem.set, hx, Mem.get]
          · simp [Mem.set, hx, Mem.get, hk, Ne.symm hk]
      · by_cases hka : a = k
        · subst hka
          have hkn : a ≠ n := by omega
          simp [Mem.set, h1, h2, Mem.get, hkn]
        · simp [Mem.set, h1, h2, Mem.get, hka, ih]

/-- A byte after a write of one byte. -/
theorem Mem.get_set {m : Mem} (h : m.wf = true) (n k : Nat) (x : Byte) :
    Mem.get (Mem.set m n x) k = if k = n then x else Mem.get m k :=
  Mem.get_set_from n x k m 0 h

/-- A byte after a write of a run: the bytes written at their addresses, every other byte as before. -/
theorem Mem.get_write (bs : List Byte) : ∀ {m : Mem} (n k : Nat), m.wf = true →
    Mem.get (Mem.write m n bs) k = if n ≤ k ∧ k < n + bs.length then bs.getD (k - n) 0#8 else Mem.get m k := by
  induction bs with
  | nil => intro m n k _; simp [Mem.write]
  | cons x xs ih =>
    intro m n k h
    rw [Mem.write, ih (n + 1) k (Mem.wf_set n x h), Mem.get_set h]
    rcases Nat.lt_trichotomy k n with hk | hk | hk
    · have h1 : ¬(n + 1 ≤ k ∧ k < n + 1 + xs.length) := by omega
      have h2 : ¬(n ≤ k ∧ k < n + (x :: xs).length) := by omega
      rw [if_neg h1, if_neg h2, if_neg (by omega)]
    · subst hk
      simp
    · obtain ⟨d, rfl⟩ : ∃ d, k = n + 1 + d := ⟨k - n - 1, by omega⟩
      have h3 : n + 1 + d - n = d + 1 := by omega
      have h4 : n + 1 + d ≠ n := by omega
      have h5 : n ≤ n + 1 + d := by omega
      have h6 : (n + 1 + d < n + (xs.length + 1)) ↔ (d < xs.length) := by omega
      simp [h3, h4, h5, h6]

/-- `len` bytes are read. -/
@[simp] theorem Mem.length_read (m : Mem) : ∀ (n len : Nat), (Mem.read m n len).length = len
  | _, 0 => rfl
  | n, len + 1 => by simp [Mem.read, Mem.length_read m (n + 1) len]

end Sys2Proof.Machine
end

