-- ==== Sys2Proof/Laws/State.lean ====
section
/-! SUPPORT. What each update of the state does to each field: one lemma per field and update, so that no proof unfolds an update. -/

namespace Sys2Proof.Machine

/-! ## setReg changes `regs` alone -/

@[simp] theorem State.setReg_pending (s : State) (a v : Nat) : (s.setReg a v).pending = s.pending := rfl
@[simp] theorem State.setReg_mem (s : State) (a v : Nat) : (s.setReg a v).mem = s.mem := rfl
@[simp] theorem State.setReg_vpoison (s : State) (a v : Nat) : (s.setReg a v).vpoison = s.vpoison := rfl
@[simp] theorem State.setReg_verr (s : State) (a v : Nat) : (s.setReg a v).verr = s.verr := rfl
@[simp] theorem State.setReg_cores (s : State) (a v : Nat) : (s.setReg a v).cores = s.cores := rfl
@[simp] theorem State.setReg_clusters (s : State) (a v : Nat) : (s.setReg a v).clusters = s.clusters := rfl
@[simp] theorem State.setReg_teams (s : State) (a v : Nat) : (s.setReg a v).teams = s.teams := rfl
@[simp] theorem State.setReg_mesh (s : State) (a v : Nat) : (s.setReg a v).mesh = s.mesh := rfl
@[simp] theorem State.setReg_regs (s : State) (a v : Nat) : (s.setReg a v).regs = put s.regs a v := rfl
@[simp] theorem State.setReg_sites (s : State) (a v : Nat) : (s.setReg a v).sites = s.sites := rfl
@[simp] theorem State.setReg_bgq (s : State) (a v : Nat) : (s.setReg a v).bgq = s.bgq := rfl
@[simp] theorem State.setReg_bgDone (s : State) (a v : Nat) : (s.setReg a v).bgDone = s.bgDone := rfl
@[simp] theorem State.setReg_regions (s : State) (a v : Nat) : (s.setReg a v).regions = s.regions := rfl
@[simp] theorem State.setReg_gpoison (s : State) (a v : Nat) : (s.setReg a v).gpoison = s.gpoison := rfl
@[simp] theorem State.setReg_gerr (s : State) (a v : Nat) : (s.setReg a v).gerr = s.gerr := rfl
@[simp] theorem State.setReg_gword (s : State) (a v : Nat) : (s.setReg a v).gword = s.gword := rfl
@[simp] theorem State.setReg_gacc (s : State) (a v : Nat) : (s.setReg a v).gacc = s.gacc := rfl
@[simp] theorem State.setReg_fab (s : State) (a v : Nat) : (s.setReg a v).fab = s.fab := rfl
@[simp] theorem State.setReg_plt (s : State) (a v : Nat) : (s.setReg a v).plt = s.plt := rfl
@[simp] theorem State.setReg_dlr (s : State) (a v : Nat) : (s.setReg a v).dlr = s.dlr := rfl
@[simp] theorem State.setReg_hst (s : State) (a v : Nat) : (s.setReg a v).hst = s.hst := rfl
@[simp] theorem State.setReg_det (s : State) (a v : Nat) : (s.setReg a v).det = s.det := rfl
@[simp] theorem State.setReg_mgt (s : State) (a v : Nat) : (s.setReg a v).mgt = s.mgt := rfl
@[simp] theorem State.setReg_clk (s : State) (a v : Nat) : (s.setReg a v).clk = s.clk := rfl
@[simp] theorem State.setReg_shadows (s : State) (a v : Nat) : (s.setReg a v).shadows = s.shadows := rfl
@[simp] theorem State.setReg_windows (s : State) (a v : Nat) : (s.setReg a v).windows = s.windows := rfl
@[simp] theorem State.setReg_outbox (s : State) (a v : Nat) : (s.setReg a v).outbox = s.outbox := rfl
@[simp] theorem State.setReg_fref (s : State) (a v : Nat) : (s.setReg a v).fref = s.fref := rfl
@[simp] theorem State.setReg_freeCount (s : State) (a v : Nat) : (s.setReg a v).freeCount = s.freeCount := rfl

/-! ## setFld changes `regs` alone -/

@[simp] theorem State.setFld_pending (s : State) (a lo len v : Nat) : (s.setFld a lo len v).pending = s.pending := rfl
@[simp] theorem State.setFld_mem (s : State) (a lo len v : Nat) : (s.setFld a lo len v).mem = s.mem := rfl
@[simp] theorem State.setFld_vpoison (s : State) (a lo len v : Nat) : (s.setFld a lo len v).vpoison = s.vpoison := rfl
@[simp] theorem State.setFld_verr (s : State) (a lo len v : Nat) : (s.setFld a lo len v).verr = s.verr := rfl
@[simp] theorem State.setFld_cores (s : State) (a lo len v : Nat) : (s.setFld a lo len v).cores = s.cores := rfl
@[simp] theorem State.setFld_clusters (s : State) (a lo len v : Nat) : (s.setFld a lo len v).clusters = s.clusters := rfl
@[simp] theorem State.setFld_teams (s : State) (a lo len v : Nat) : (s.setFld a lo len v).teams = s.teams := rfl
@[simp] theorem State.setFld_mesh (s : State) (a lo len v : Nat) : (s.setFld a lo len v).mesh = s.mesh := rfl
@[simp] theorem State.setFld_regs (s : State) (a lo len v : Nat) : (s.setFld a lo len v).regs = put s.regs a (putBits (s.reg a) lo len v) := rfl
@[simp] theorem State.setFld_sites (s : State) (a lo len v : Nat) : (s.setFld a lo len v).sites = s.sites := rfl
@[simp] theorem State.setFld_bgq (s : State) (a lo len v : Nat) : (s.setFld a lo len v).bgq = s.bgq := rfl
@[simp] theorem State.setFld_bgDone (s : State) (a lo len v : Nat) : (s.setFld a lo len v).bgDone = s.bgDone := rfl
@[simp] theorem State.setFld_regions (s : State) (a lo len v : Nat) : (s.setFld a lo len v).regions = s.regions := rfl
@[simp] theorem State.setFld_gpoison (s : State) (a lo len v : Nat) : (s.setFld a lo len v).gpoison = s.gpoison := rfl
@[simp] theorem State.setFld_gerr (s : State) (a lo len v : Nat) : (s.setFld a lo len v).gerr = s.gerr := rfl
@[simp] theorem State.setFld_gword (s : State) (a lo len v : Nat) : (s.setFld a lo len v).gword = s.gword := rfl
@[simp] theorem State.setFld_gacc (s : State) (a lo len v : Nat) : (s.setFld a lo len v).gacc = s.gacc := rfl
@[simp] theorem State.setFld_fab (s : State) (a lo len v : Nat) : (s.setFld a lo len v).fab = s.fab := rfl
@[simp] theorem State.setFld_plt (s : State) (a lo len v : Nat) : (s.setFld a lo len v).plt = s.plt := rfl
@[simp] theorem State.setFld_dlr (s : State) (a lo len v : Nat) : (s.setFld a lo len v).dlr = s.dlr := rfl
@[simp] theorem State.setFld_hst (s : State) (a lo len v : Nat) : (s.setFld a lo len v).hst = s.hst := rfl
@[simp] theorem State.setFld_det (s : State) (a lo len v : Nat) : (s.setFld a lo len v).det = s.det := rfl
@[simp] theorem State.setFld_mgt (s : State) (a lo len v : Nat) : (s.setFld a lo len v).mgt = s.mgt := rfl
@[simp] theorem State.setFld_clk (s : State) (a lo len v : Nat) : (s.setFld a lo len v).clk = s.clk := rfl
@[simp] theorem State.setFld_shadows (s : State) (a lo len v : Nat) : (s.setFld a lo len v).shadows = s.shadows := rfl
@[simp] theorem State.setFld_windows (s : State) (a lo len v : Nat) : (s.setFld a lo len v).windows = s.windows := rfl
@[simp] theorem State.setFld_outbox (s : State) (a lo len v : Nat) : (s.setFld a lo len v).outbox = s.outbox := rfl
@[simp] theorem State.setFld_fref (s : State) (a lo len v : Nat) : (s.setFld a lo len v).fref = s.fref := rfl
@[simp] theorem State.setFld_freeCount (s : State) (a lo len v : Nat) : (s.setFld a lo len v).freeCount = s.freeCount := rfl

/-! ## bump changes `regs` alone -/

@[simp] theorem State.bump_pending (s : State) (a n : Nat) : (s.bump a n).pending = s.pending := rfl
@[simp] theorem State.bump_mem (s : State) (a n : Nat) : (s.bump a n).mem = s.mem := rfl
@[simp] theorem State.bump_vpoison (s : State) (a n : Nat) : (s.bump a n).vpoison = s.vpoison := rfl
@[simp] theorem State.bump_verr (s : State) (a n : Nat) : (s.bump a n).verr = s.verr := rfl
@[simp] theorem State.bump_cores (s : State) (a n : Nat) : (s.bump a n).cores = s.cores := rfl
@[simp] theorem State.bump_clusters (s : State) (a n : Nat) : (s.bump a n).clusters = s.clusters := rfl
@[simp] theorem State.bump_teams (s : State) (a n : Nat) : (s.bump a n).teams = s.teams := rfl
@[simp] theorem State.bump_mesh (s : State) (a n : Nat) : (s.bump a n).mesh = s.mesh := rfl
@[simp] theorem State.bump_regs (s : State) (a n : Nat) : (s.bump a n).regs = put s.regs a (s.reg a + n) := rfl
@[simp] theorem State.bump_sites (s : State) (a n : Nat) : (s.bump a n).sites = s.sites := rfl
@[simp] theorem State.bump_bgq (s : State) (a n : Nat) : (s.bump a n).bgq = s.bgq := rfl
@[simp] theorem State.bump_bgDone (s : State) (a n : Nat) : (s.bump a n).bgDone = s.bgDone := rfl
@[simp] theorem State.bump_regions (s : State) (a n : Nat) : (s.bump a n).regions = s.regions := rfl
@[simp] theorem State.bump_gpoison (s : State) (a n : Nat) : (s.bump a n).gpoison = s.gpoison := rfl
@[simp] theorem State.bump_gerr (s : State) (a n : Nat) : (s.bump a n).gerr = s.gerr := rfl
@[simp] theorem State.bump_gword (s : State) (a n : Nat) : (s.bump a n).gword = s.gword := rfl
@[simp] theorem State.bump_gacc (s : State) (a n : Nat) : (s.bump a n).gacc = s.gacc := rfl
@[simp] theorem State.bump_fab (s : State) (a n : Nat) : (s.bump a n).fab = s.fab := rfl
@[simp] theorem State.bump_plt (s : State) (a n : Nat) : (s.bump a n).plt = s.plt := rfl
@[simp] theorem State.bump_dlr (s : State) (a n : Nat) : (s.bump a n).dlr = s.dlr := rfl
@[simp] theorem State.bump_hst (s : State) (a n : Nat) : (s.bump a n).hst = s.hst := rfl
@[simp] theorem State.bump_det (s : State) (a n : Nat) : (s.bump a n).det = s.det := rfl
@[simp] theorem State.bump_mgt (s : State) (a n : Nat) : (s.bump a n).mgt = s.mgt := rfl
@[simp] theorem State.bump_clk (s : State) (a n : Nat) : (s.bump a n).clk = s.clk := rfl
@[simp] theorem State.bump_shadows (s : State) (a n : Nat) : (s.bump a n).shadows = s.shadows := rfl
@[simp] theorem State.bump_windows (s : State) (a n : Nat) : (s.bump a n).windows = s.windows := rfl
@[simp] theorem State.bump_outbox (s : State) (a n : Nat) : (s.bump a n).outbox = s.outbox := rfl
@[simp] theorem State.bump_fref (s : State) (a n : Nat) : (s.bump a n).fref = s.fref := rfl
@[simp] theorem State.bump_freeCount (s : State) (a n : Nat) : (s.bump a n).freeCount = s.freeCount := rfl

/-! ## setCore changes `cores` alone -/

@[simp] theorem State.setCore_pending (s : State) (n : Nat) (c : Core) : (s.setCore n c).pending = s.pending := rfl
@[simp] theorem State.setCore_mem (s : State) (n : Nat) (c : Core) : (s.setCore n c).mem = s.mem := rfl
@[simp] theorem State.setCore_vpoison (s : State) (n : Nat) (c : Core) : (s.setCore n c).vpoison = s.vpoison := rfl
@[simp] theorem State.setCore_verr (s : State) (n : Nat) (c : Core) : (s.setCore n c).verr = s.verr := rfl
@[simp] theorem State.setCore_cores (s : State) (n : Nat) (c : Core) : (s.setCore n c).cores = put s.cores n { s.cell n with cur := c } := rfl
@[simp] theorem State.setCore_clusters (s : State) (n : Nat) (c : Core) : (s.setCore n c).clusters = s.clusters := rfl
@[simp] theorem State.setCore_teams (s : State) (n : Nat) (c : Core) : (s.setCore n c).teams = s.teams := rfl
@[simp] theorem State.setCore_mesh (s : State) (n : Nat) (c : Core) : (s.setCore n c).mesh = s.mesh := rfl
@[simp] theorem State.setCore_regs (s : State) (n : Nat) (c : Core) : (s.setCore n c).regs = s.regs := rfl
@[simp] theorem State.setCore_sites (s : State) (n : Nat) (c : Core) : (s.setCore n c).sites = s.sites := rfl
@[simp] theorem State.setCore_bgq (s : State) (n : Nat) (c : Core) : (s.setCore n c).bgq = s.bgq := rfl
@[simp] theorem State.setCore_bgDone (s : State) (n : Nat) (c : Core) : (s.setCore n c).bgDone = s.bgDone := rfl
@[simp] theorem State.setCore_regions (s : State) (n : Nat) (c : Core) : (s.setCore n c).regions = s.regions := rfl
@[simp] theorem State.setCore_gpoison (s : State) (n : Nat) (c : Core) : (s.setCore n c).gpoison = s.gpoison := rfl
@[simp] theorem State.setCore_gerr (s : State) (n : Nat) (c : Core) : (s.setCore n c).gerr = s.gerr := rfl
@[simp] theorem State.setCore_gword (s : State) (n : Nat) (c : Core) : (s.setCore n c).gword = s.gword := rfl
@[simp] theorem State.setCore_gacc (s : State) (n : Nat) (c : Core) : (s.setCore n c).gacc = s.gacc := rfl
@[simp] theorem State.setCore_fab (s : State) (n : Nat) (c : Core) : (s.setCore n c).fab = s.fab := rfl
@[simp] theorem State.setCore_plt (s : State) (n : Nat) (c : Core) : (s.setCore n c).plt = s.plt := rfl
@[simp] theorem State.setCore_dlr (s : State) (n : Nat) (c : Core) : (s.setCore n c).dlr = s.dlr := rfl
@[simp] theorem State.setCore_hst (s : State) (n : Nat) (c : Core) : (s.setCore n c).hst = s.hst := rfl
@[simp] theorem State.setCore_det (s : State) (n : Nat) (c : Core) : (s.setCore n c).det = s.det := rfl
@[simp] theorem State.setCore_mgt (s : State) (n : Nat) (c : Core) : (s.setCore n c).mgt = s.mgt := rfl
@[simp] theorem State.setCore_clk (s : State) (n : Nat) (c : Core) : (s.setCore n c).clk = s.clk := rfl
@[simp] theorem State.setCore_shadows (s : State) (n : Nat) (c : Core) : (s.setCore n c).shadows = s.shadows := rfl
@[simp] theorem State.setCore_windows (s : State) (n : Nat) (c : Core) : (s.setCore n c).windows = s.windows := rfl
@[simp] theorem State.setCore_outbox (s : State) (n : Nat) (c : Core) : (s.setCore n c).outbox = s.outbox := rfl
@[simp] theorem State.setCore_fref (s : State) (n : Nat) (c : Core) : (s.setCore n c).fref = s.fref := rfl
@[simp] theorem State.setCore_freeCount (s : State) (n : Nat) (c : Core) : (s.setCore n c).freeCount = s.freeCount := rfl

/-! ## updCore changes `cores` alone -/

@[simp] theorem State.updCore_pending (s : State) (n : Nat) (f : Core → Core) : (s.updCore n f).pending = s.pending := rfl
@[simp] theorem State.updCore_mem (s : State) (n : Nat) (f : Core → Core) : (s.updCore n f).mem = s.mem := rfl
@[simp] theorem State.updCore_vpoison (s : State) (n : Nat) (f : Core → Core) : (s.updCore n f).vpoison = s.vpoison := rfl
@[simp] theorem State.updCore_verr (s : State) (n : Nat) (f : Core → Core) : (s.updCore n f).verr = s.verr := rfl
@[simp] theorem State.updCore_cores (s : State) (n : Nat) (f : Core → Core) : (s.updCore n f).cores = put s.cores n { s.cell n with cur := f (s.core n) } := rfl
@[simp] theorem State.updCore_clusters (s : State) (n : Nat) (f : Core → Core) : (s.updCore n f).clusters = s.clusters := rfl
@[simp] theorem State.updCore_teams (s : State) (n : Nat) (f : Core → Core) : (s.updCore n f).teams = s.teams := rfl
@[simp] theorem State.updCore_mesh (s : State) (n : Nat) (f : Core → Core) : (s.updCore n f).mesh = s.mesh := rfl
@[simp] theorem State.updCore_regs (s : State) (n : Nat) (f : Core → Core) : (s.updCore n f).regs = s.regs := rfl
@[simp] theorem State.updCore_sites (s : State) (n : Nat) (f : Core → Core) : (s.updCore n f).sites = s.sites := rfl
@[simp] theorem State.updCore_bgq (s : State) (n : Nat) (f : Core → Core) : (s.updCore n f).bgq = s.bgq := rfl
@[simp] theorem State.updCore_bgDone (s : State) (n : Nat) (f : Core → Core) : (s.updCore n f).bgDone = s.bgDone := rfl
@[simp] theorem State.updCore_regions (s : State) (n : Nat) (f : Core → Core) : (s.updCore n f).regions = s.regions := rfl
@[simp] theorem State.updCore_gpoison (s : State) (n : Nat) (f : Core → Core) : (s.updCore n f).gpoison = s.gpoison := rfl
@[simp] theorem State.updCore_gerr (s : State) (n : Nat) (f : Core → Core) : (s.updCore n f).gerr = s.gerr := rfl
@[simp] theorem State.updCore_gword (s : State) (n : Nat) (f : Core → Core) : (s.updCore n f).gword = s.gword := rfl
@[simp] theorem State.updCore_gacc (s : State) (n : Nat) (f : Core → Core) : (s.updCore n f).gacc = s.gacc := rfl
@[simp] theorem State.updCore_fab (s : State) (n : Nat) (f : Core → Core) : (s.updCore n f).fab = s.fab := rfl
@[simp] theorem State.updCore_plt (s : State) (n : Nat) (f : Core → Core) : (s.updCore n f).plt = s.plt := rfl
@[simp] theorem State.updCore_dlr (s : State) (n : Nat) (f : Core → Core) : (s.updCore n f).dlr = s.dlr := rfl
@[simp] theorem State.updCore_hst (s : State) (n : Nat) (f : Core → Core) : (s.updCore n f).hst = s.hst := rfl
@[simp] theorem State.updCore_det (s : State) (n : Nat) (f : Core → Core) : (s.updCore n f).det = s.det := rfl
@[simp] theorem State.updCore_mgt (s : State) (n : Nat) (f : Core → Core) : (s.updCore n f).mgt = s.mgt := rfl
@[simp] theorem State.updCore_clk (s : State) (n : Nat) (f : Core → Core) : (s.updCore n f).clk = s.clk := rfl
@[simp] theorem State.updCore_shadows (s : State) (n : Nat) (f : Core → Core) : (s.updCore n f).shadows = s.shadows := rfl
@[simp] theorem State.updCore_windows (s : State) (n : Nat) (f : Core → Core) : (s.updCore n f).windows = s.windows := rfl
@[simp] theorem State.updCore_outbox (s : State) (n : Nat) (f : Core → Core) : (s.updCore n f).outbox = s.outbox := rfl
@[simp] theorem State.updCore_fref (s : State) (n : Nat) (f : Core → Core) : (s.updCore n f).fref = s.fref := rfl
@[simp] theorem State.updCore_freeCount (s : State) (n : Nat) (f : Core → Core) : (s.updCore n f).freeCount = s.freeCount := rfl

/-! ## setCell changes `cores` alone -/

@[simp] theorem State.setCell_pending (s : State) (n : Nat) (x : CoreCell) : (s.setCell n x).pending = s.pending := rfl
@[simp] theorem State.setCell_mem (s : State) (n : Nat) (x : CoreCell) : (s.setCell n x).mem = s.mem := rfl
@[simp] theorem State.setCell_vpoison (s : State) (n : Nat) (x : CoreCell) : (s.setCell n x).vpoison = s.vpoison := rfl
@[simp] theorem State.setCell_verr (s : State) (n : Nat) (x : CoreCell) : (s.setCell n x).verr = s.verr := rfl
@[simp] theorem State.setCell_cores (s : State) (n : Nat) (x : CoreCell) : (s.setCell n x).cores = put s.cores n x := rfl
@[simp] theorem State.setCell_clusters (s : State) (n : Nat) (x : CoreCell) : (s.setCell n x).clusters = s.clusters := rfl
@[simp] theorem State.setCell_teams (s : State) (n : Nat) (x : CoreCell) : (s.setCell n x).teams = s.teams := rfl
@[simp] theorem State.setCell_mesh (s : State) (n : Nat) (x : CoreCell) : (s.setCell n x).mesh = s.mesh := rfl
@[simp] theorem State.setCell_regs (s : State) (n : Nat) (x : CoreCell) : (s.setCell n x).regs = s.regs := rfl
@[simp] theorem State.setCell_sites (s : State) (n : Nat) (x : CoreCell) : (s.setCell n x).sites = s.sites := rfl
@[simp] theorem State.setCell_bgq (s : State) (n : Nat) (x : CoreCell) : (s.setCell n x).bgq = s.bgq := rfl
@[simp] theorem State.setCell_bgDone (s : State) (n : Nat) (x : CoreCell) : (s.setCell n x).bgDone = s.bgDone := rfl
@[simp] theorem State.setCell_regions (s : State) (n : Nat) (x : CoreCell) : (s.setCell n x).regions = s.regions := rfl
@[simp] theorem State.setCell_gpoison (s : State) (n : Nat) (x : CoreCell) : (s.setCell n x).gpoison = s.gpoison := rfl
@[simp] theorem State.setCell_gerr (s : State) (n : Nat) (x : CoreCell) : (s.setCell n x).gerr = s.gerr := rfl
@[simp] theorem State.setCell_gword (s : State) (n : Nat) (x : CoreCell) : (s.setCell n x).gword = s.gword := rfl
@[simp] theorem State.setCell_gacc (s : State) (n : Nat) (x : CoreCell) : (s.setCell n x).gacc = s.gacc := rfl
@[simp] theorem State.setCell_fab (s : State) (n : Nat) (x : CoreCell) : (s.setCell n x).fab = s.fab := rfl
@[simp] theorem State.setCell_plt (s : State) (n : Nat) (x : CoreCell) : (s.setCell n x).plt = s.plt := rfl
@[simp] theorem State.setCell_dlr (s : State) (n : Nat) (x : CoreCell) : (s.setCell n x).dlr = s.dlr := rfl
@[simp] theorem State.setCell_hst (s : State) (n : Nat) (x : CoreCell) : (s.setCell n x).hst = s.hst := rfl
@[simp] theorem State.setCell_det (s : State) (n : Nat) (x : CoreCell) : (s.setCell n x).det = s.det := rfl
@[simp] theorem State.setCell_mgt (s : State) (n : Nat) (x : CoreCell) : (s.setCell n x).mgt = s.mgt := rfl
@[simp] theorem State.setCell_clk (s : State) (n : Nat) (x : CoreCell) : (s.setCell n x).clk = s.clk := rfl
@[simp] theorem State.setCell_shadows (s : State) (n : Nat) (x : CoreCell) : (s.setCell n x).shadows = s.shadows := rfl
@[simp] theorem State.setCell_windows (s : State) (n : Nat) (x : CoreCell) : (s.setCell n x).windows = s.windows := rfl
@[simp] theorem State.setCell_outbox (s : State) (n : Nat) (x : CoreCell) : (s.setCell n x).outbox = s.outbox := rfl
@[simp] theorem State.setCell_fref (s : State) (n : Nat) (x : CoreCell) : (s.setCell n x).fref = s.fref := rfl
@[simp] theorem State.setCell_freeCount (s : State) (n : Nat) (x : CoreCell) : (s.setCell n x).freeCount = s.freeCount := rfl

/-! ## updCluster changes `clusters` alone -/

@[simp] theorem State.updCluster_pending (s : State) (c : Nat) (f : Cluster → Cluster) : (s.updCluster c f).pending = s.pending := rfl
@[simp] theorem State.updCluster_mem (s : State) (c : Nat) (f : Cluster → Cluster) : (s.updCluster c f).mem = s.mem := rfl
@[simp] theorem State.updCluster_vpoison (s : State) (c : Nat) (f : Cluster → Cluster) : (s.updCluster c f).vpoison = s.vpoison := rfl
@[simp] theorem State.updCluster_verr (s : State) (c : Nat) (f : Cluster → Cluster) : (s.updCluster c f).verr = s.verr := rfl
@[simp] theorem State.updCluster_cores (s : State) (c : Nat) (f : Cluster → Cluster) : (s.updCluster c f).cores = s.cores := rfl
@[simp] theorem State.updCluster_clusters (s : State) (c : Nat) (f : Cluster → Cluster) : (s.updCluster c f).clusters = upd (fusedCluster c) s.clusters c f := rfl
@[simp] theorem State.updCluster_teams (s : State) (c : Nat) (f : Cluster → Cluster) : (s.updCluster c f).teams = s.teams := rfl
@[simp] theorem State.updCluster_mesh (s : State) (c : Nat) (f : Cluster → Cluster) : (s.updCluster c f).mesh = s.mesh := rfl
@[simp] theorem State.updCluster_regs (s : State) (c : Nat) (f : Cluster → Cluster) : (s.updCluster c f).regs = s.regs := rfl
@[simp] theorem State.updCluster_sites (s : State) (c : Nat) (f : Cluster → Cluster) : (s.updCluster c f).sites = s.sites := rfl
@[simp] theorem State.updCluster_bgq (s : State) (c : Nat) (f : Cluster → Cluster) : (s.updCluster c f).bgq = s.bgq := rfl
@[simp] theorem State.updCluster_bgDone (s : State) (c : Nat) (f : Cluster → Cluster) : (s.updCluster c f).bgDone = s.bgDone := rfl
@[simp] theorem State.updCluster_regions (s : State) (c : Nat) (f : Cluster → Cluster) : (s.updCluster c f).regions = s.regions := rfl
@[simp] theorem State.updCluster_gpoison (s : State) (c : Nat) (f : Cluster → Cluster) : (s.updCluster c f).gpoison = s.gpoison := rfl
@[simp] theorem State.updCluster_gerr (s : State) (c : Nat) (f : Cluster → Cluster) : (s.updCluster c f).gerr = s.gerr := rfl
@[simp] theorem State.updCluster_gword (s : State) (c : Nat) (f : Cluster → Cluster) : (s.updCluster c f).gword = s.gword := rfl
@[simp] theorem State.updCluster_gacc (s : State) (c : Nat) (f : Cluster → Cluster) : (s.updCluster c f).gacc = s.gacc := rfl
@[simp] theorem State.updCluster_fab (s : State) (c : Nat) (f : Cluster → Cluster) : (s.updCluster c f).fab = s.fab := rfl
@[simp] theorem State.updCluster_plt (s : State) (c : Nat) (f : Cluster → Cluster) : (s.updCluster c f).plt = s.plt := rfl
@[simp] theorem State.updCluster_dlr (s : State) (c : Nat) (f : Cluster → Cluster) : (s.updCluster c f).dlr = s.dlr := rfl
@[simp] theorem State.updCluster_hst (s : State) (c : Nat) (f : Cluster → Cluster) : (s.updCluster c f).hst = s.hst := rfl
@[simp] theorem State.updCluster_det (s : State) (c : Nat) (f : Cluster → Cluster) : (s.updCluster c f).det = s.det := rfl
@[simp] theorem State.updCluster_mgt (s : State) (c : Nat) (f : Cluster → Cluster) : (s.updCluster c f).mgt = s.mgt := rfl
@[simp] theorem State.updCluster_clk (s : State) (c : Nat) (f : Cluster → Cluster) : (s.updCluster c f).clk = s.clk := rfl
@[simp] theorem State.updCluster_shadows (s : State) (c : Nat) (f : Cluster → Cluster) : (s.updCluster c f).shadows = s.shadows := rfl
@[simp] theorem State.updCluster_windows (s : State) (c : Nat) (f : Cluster → Cluster) : (s.updCluster c f).windows = s.windows := rfl
@[simp] theorem State.updCluster_outbox (s : State) (c : Nat) (f : Cluster → Cluster) : (s.updCluster c f).outbox = s.outbox := rfl
@[simp] theorem State.updCluster_fref (s : State) (c : Nat) (f : Cluster → Cluster) : (s.updCluster c f).fref = s.fref := rfl
@[simp] theorem State.updCluster_freeCount (s : State) (c : Nat) (f : Cluster → Cluster) : (s.updCluster c f).freeCount = s.freeCount := rfl

/-! ## updTeam changes `teams` alone -/

@[simp] theorem State.updTeam_pending (s : State) (t : Nat) (f : Team → Team) : (s.updTeam t f).pending = s.pending := rfl
@[simp] theorem State.updTeam_mem (s : State) (t : Nat) (f : Team → Team) : (s.updTeam t f).mem = s.mem := rfl
@[simp] theorem State.updTeam_vpoison (s : State) (t : Nat) (f : Team → Team) : (s.updTeam t f).vpoison = s.vpoison := rfl
@[simp] theorem State.updTeam_verr (s : State) (t : Nat) (f : Team → Team) : (s.updTeam t f).verr = s.verr := rfl
@[simp] theorem State.updTeam_cores (s : State) (t : Nat) (f : Team → Team) : (s.updTeam t f).cores = s.cores := rfl
@[simp] theorem State.updTeam_clusters (s : State) (t : Nat) (f : Team → Team) : (s.updTeam t f).clusters = s.clusters := rfl
@[simp] theorem State.updTeam_teams (s : State) (t : Nat) (f : Team → Team) : (s.updTeam t f).teams = upd {} s.teams t f := rfl
@[simp] theorem State.updTeam_mesh (s : State) (t : Nat) (f : Team → Team) : (s.updTeam t f).mesh = s.mesh := rfl
@[simp] theorem State.updTeam_regs (s : State) (t : Nat) (f : Team → Team) : (s.updTeam t f).regs = s.regs := rfl
@[simp] theorem State.updTeam_sites (s : State) (t : Nat) (f : Team → Team) : (s.updTeam t f).sites = s.sites := rfl
@[simp] theorem State.updTeam_bgq (s : State) (t : Nat) (f : Team → Team) : (s.updTeam t f).bgq = s.bgq := rfl
@[simp] theorem State.updTeam_bgDone (s : State) (t : Nat) (f : Team → Team) : (s.updTeam t f).bgDone = s.bgDone := rfl
@[simp] theorem State.updTeam_regions (s : State) (t : Nat) (f : Team → Team) : (s.updTeam t f).regions = s.regions := rfl
@[simp] theorem State.updTeam_gpoison (s : State) (t : Nat) (f : Team → Team) : (s.updTeam t f).gpoison = s.gpoison := rfl
@[simp] theorem State.updTeam_gerr (s : State) (t : Nat) (f : Team → Team) : (s.updTeam t f).gerr = s.gerr := rfl
@[simp] theorem State.updTeam_gword (s : State) (t : Nat) (f : Team → Team) : (s.updTeam t f).gword = s.gword := rfl
@[simp] theorem State.updTeam_gacc (s : State) (t : Nat) (f : Team → Team) : (s.updTeam t f).gacc = s.gacc := rfl
@[simp] theorem State.updTeam_fab (s : State) (t : Nat) (f : Team → Team) : (s.updTeam t f).fab = s.fab := rfl
@[simp] theorem State.updTeam_plt (s : State) (t : Nat) (f : Team → Team) : (s.updTeam t f).plt = s.plt := rfl
@[simp] theorem State.updTeam_dlr (s : State) (t : Nat) (f : Team → Team) : (s.updTeam t f).dlr = s.dlr := rfl
@[simp] theorem State.updTeam_hst (s : State) (t : Nat) (f : Team → Team) : (s.updTeam t f).hst = s.hst := rfl
@[simp] theorem State.updTeam_det (s : State) (t : Nat) (f : Team → Team) : (s.updTeam t f).det = s.det := rfl
@[simp] theorem State.updTeam_mgt (s : State) (t : Nat) (f : Team → Team) : (s.updTeam t f).mgt = s.mgt := rfl
@[simp] theorem State.updTeam_clk (s : State) (t : Nat) (f : Team → Team) : (s.updTeam t f).clk = s.clk := rfl
@[simp] theorem State.updTeam_shadows (s : State) (t : Nat) (f : Team → Team) : (s.updTeam t f).shadows = s.shadows := rfl
@[simp] theorem State.updTeam_windows (s : State) (t : Nat) (f : Team → Team) : (s.updTeam t f).windows = s.windows := rfl
@[simp] theorem State.updTeam_outbox (s : State) (t : Nat) (f : Team → Team) : (s.updTeam t f).outbox = s.outbox := rfl
@[simp] theorem State.updTeam_fref (s : State) (t : Nat) (f : Team → Team) : (s.updTeam t f).fref = s.fref := rfl
@[simp] theorem State.updTeam_freeCount (s : State) (t : Nat) (f : Team → Team) : (s.updTeam t f).freeCount = s.freeCount := rfl

/-! ## updSite changes `sites` alone -/

@[simp] theorem State.updSite_pending (s : State) (n : Nat) (f : Site → Site) : (s.updSite n f).pending = s.pending := rfl
@[simp] theorem State.updSite_mem (s : State) (n : Nat) (f : Site → Site) : (s.updSite n f).mem = s.mem := rfl
@[simp] theorem State.updSite_vpoison (s : State) (n : Nat) (f : Site → Site) : (s.updSite n f).vpoison = s.vpoison := rfl
@[simp] theorem State.updSite_verr (s : State) (n : Nat) (f : Site → Site) : (s.updSite n f).verr = s.verr := rfl
@[simp] theorem State.updSite_cores (s : State) (n : Nat) (f : Site → Site) : (s.updSite n f).cores = s.cores := rfl
@[simp] theorem State.updSite_clusters (s : State) (n : Nat) (f : Site → Site) : (s.updSite n f).clusters = s.clusters := rfl
@[simp] theorem State.updSite_teams (s : State) (n : Nat) (f : Site → Site) : (s.updSite n f).teams = s.teams := rfl
@[simp] theorem State.updSite_mesh (s : State) (n : Nat) (f : Site → Site) : (s.updSite n f).mesh = s.mesh := rfl
@[simp] theorem State.updSite_regs (s : State) (n : Nat) (f : Site → Site) : (s.updSite n f).regs = s.regs := rfl
@[simp] theorem State.updSite_sites (s : State) (n : Nat) (f : Site → Site) : (s.updSite n f).sites = upd {} s.sites n f := rfl
@[simp] theorem State.updSite_bgq (s : State) (n : Nat) (f : Site → Site) : (s.updSite n f).bgq = s.bgq := rfl
@[simp] theorem State.updSite_bgDone (s : State) (n : Nat) (f : Site → Site) : (s.updSite n f).bgDone = s.bgDone := rfl
@[simp] theorem State.updSite_regions (s : State) (n : Nat) (f : Site → Site) : (s.updSite n f).regions = s.regions := rfl
@[simp] theorem State.updSite_gpoison (s : State) (n : Nat) (f : Site → Site) : (s.updSite n f).gpoison = s.gpoison := rfl
@[simp] theorem State.updSite_gerr (s : State) (n : Nat) (f : Site → Site) : (s.updSite n f).gerr = s.gerr := rfl
@[simp] theorem State.updSite_gword (s : State) (n : Nat) (f : Site → Site) : (s.updSite n f).gword = s.gword := rfl
@[simp] theorem State.updSite_gacc (s : State) (n : Nat) (f : Site → Site) : (s.updSite n f).gacc = s.gacc := rfl
@[simp] theorem State.updSite_fab (s : State) (n : Nat) (f : Site → Site) : (s.updSite n f).fab = s.fab := rfl
@[simp] theorem State.updSite_plt (s : State) (n : Nat) (f : Site → Site) : (s.updSite n f).plt = s.plt := rfl
@[simp] theorem State.updSite_dlr (s : State) (n : Nat) (f : Site → Site) : (s.updSite n f).dlr = s.dlr := rfl
@[simp] theorem State.updSite_hst (s : State) (n : Nat) (f : Site → Site) : (s.updSite n f).hst = s.hst := rfl
@[simp] theorem State.updSite_det (s : State) (n : Nat) (f : Site → Site) : (s.updSite n f).det = s.det := rfl
@[simp] theorem State.updSite_mgt (s : State) (n : Nat) (f : Site → Site) : (s.updSite n f).mgt = s.mgt := rfl
@[simp] theorem State.updSite_clk (s : State) (n : Nat) (f : Site → Site) : (s.updSite n f).clk = s.clk := rfl
@[simp] theorem State.updSite_shadows (s : State) (n : Nat) (f : Site → Site) : (s.updSite n f).shadows = s.shadows := rfl
@[simp] theorem State.updSite_windows (s : State) (n : Nat) (f : Site → Site) : (s.updSite n f).windows = s.windows := rfl
@[simp] theorem State.updSite_outbox (s : State) (n : Nat) (f : Site → Site) : (s.updSite n f).outbox = s.outbox := rfl
@[simp] theorem State.updSite_fref (s : State) (n : Nat) (f : Site → Site) : (s.updSite n f).fref = s.fref := rfl
@[simp] theorem State.updSite_freeCount (s : State) (n : Nat) (f : Site → Site) : (s.updSite n f).freeCount = s.freeCount := rfl

/-! ## updRegion changes `regions` alone -/

@[simp] theorem State.updRegion_pending (s : State) (n : Nat) (f : Region → Region) : (s.updRegion n f).pending = s.pending := rfl
@[simp] theorem State.updRegion_mem (s : State) (n : Nat) (f : Region → Region) : (s.updRegion n f).mem = s.mem := rfl
@[simp] theorem State.updRegion_vpoison (s : State) (n : Nat) (f : Region → Region) : (s.updRegion n f).vpoison = s.vpoison := rfl
@[simp] theorem State.updRegion_verr (s : State) (n : Nat) (f : Region → Region) : (s.updRegion n f).verr = s.verr := rfl
@[simp] theorem State.updRegion_cores (s : State) (n : Nat) (f : Region → Region) : (s.updRegion n f).cores = s.cores := rfl
@[simp] theorem State.updRegion_clusters (s : State) (n : Nat) (f : Region → Region) : (s.updRegion n f).clusters = s.clusters := rfl
@[simp] theorem State.updRegion_teams (s : State) (n : Nat) (f : Region → Region) : (s.updRegion n f).teams = s.teams := rfl
@[simp] theorem State.updRegion_mesh (s : State) (n : Nat) (f : Region → Region) : (s.updRegion n f).mesh = s.mesh := rfl
@[simp] theorem State.updRegion_regs (s : State) (n : Nat) (f : Region → Region) : (s.updRegion n f).regs = s.regs := rfl
@[simp] theorem State.updRegion_sites (s : State) (n : Nat) (f : Region → Region) : (s.updRegion n f).sites = s.sites := rfl
@[simp] theorem State.updRegion_bgq (s : State) (n : Nat) (f : Region → Region) : (s.updRegion n f).bgq = s.bgq := rfl
@[simp] theorem State.updRegion_bgDone (s : State) (n : Nat) (f : Region → Region) : (s.updRegion n f).bgDone = s.bgDone := rfl
@[simp] theorem State.updRegion_regions (s : State) (n : Nat) (f : Region → Region) : (s.updRegion n f).regions = upd {} s.regions n f := rfl
@[simp] theorem State.updRegion_gpoison (s : State) (n : Nat) (f : Region → Region) : (s.updRegion n f).gpoison = s.gpoison := rfl
@[simp] theorem State.updRegion_gerr (s : State) (n : Nat) (f : Region → Region) : (s.updRegion n f).gerr = s.gerr := rfl
@[simp] theorem State.updRegion_gword (s : State) (n : Nat) (f : Region → Region) : (s.updRegion n f).gword = s.gword := rfl
@[simp] theorem State.updRegion_gacc (s : State) (n : Nat) (f : Region → Region) : (s.updRegion n f).gacc = s.gacc := rfl
@[simp] theorem State.updRegion_fab (s : State) (n : Nat) (f : Region → Region) : (s.updRegion n f).fab = s.fab := rfl
@[simp] theorem State.updRegion_plt (s : State) (n : Nat) (f : Region → Region) : (s.updRegion n f).plt = s.plt := rfl
@[simp] theorem State.updRegion_dlr (s : State) (n : Nat) (f : Region → Region) : (s.updRegion n f).dlr = s.dlr := rfl
@[simp] theorem State.updRegion_hst (s : State) (n : Nat) (f : Region → Region) : (s.updRegion n f).hst = s.hst := rfl
@[simp] theorem State.updRegion_det (s : State) (n : Nat) (f : Region → Region) : (s.updRegion n f).det = s.det := rfl
@[simp] theorem State.updRegion_mgt (s : State) (n : Nat) (f : Region → Region) : (s.updRegion n f).mgt = s.mgt := rfl
@[simp] theorem State.updRegion_clk (s : State) (n : Nat) (f : Region → Region) : (s.updRegion n f).clk = s.clk := rfl
@[simp] theorem State.updRegion_shadows (s : State) (n : Nat) (f : Region → Region) : (s.updRegion n f).shadows = s.shadows := rfl
@[simp] theorem State.updRegion_windows (s : State) (n : Nat) (f : Region → Region) : (s.updRegion n f).windows = s.windows := rfl
@[simp] theorem State.updRegion_outbox (s : State) (n : Nat) (f : Region → Region) : (s.updRegion n f).outbox = s.outbox := rfl
@[simp] theorem State.updRegion_fref (s : State) (n : Nat) (f : Region → Region) : (s.updRegion n f).fref = s.fref := rfl
@[simp] theorem State.updRegion_freeCount (s : State) (n : Nat) (f : Region → Region) : (s.updRegion n f).freeCount = s.freeCount := rfl

/-! ## emit changes `outbox` alone -/

@[simp] theorem State.emit_pending (s : State) (o : Out) : (s.emit o).pending = s.pending := rfl
@[simp] theorem State.emit_mem (s : State) (o : Out) : (s.emit o).mem = s.mem := rfl
@[simp] theorem State.emit_vpoison (s : State) (o : Out) : (s.emit o).vpoison = s.vpoison := rfl
@[simp] theorem State.emit_verr (s : State) (o : Out) : (s.emit o).verr = s.verr := rfl
@[simp] theorem State.emit_cores (s : State) (o : Out) : (s.emit o).cores = s.cores := rfl
@[simp] theorem State.emit_clusters (s : State) (o : Out) : (s.emit o).clusters = s.clusters := rfl
@[simp] theorem State.emit_teams (s : State) (o : Out) : (s.emit o).teams = s.teams := rfl
@[simp] theorem State.emit_mesh (s : State) (o : Out) : (s.emit o).mesh = s.mesh := rfl
@[simp] theorem State.emit_regs (s : State) (o : Out) : (s.emit o).regs = s.regs := rfl
@[simp] theorem State.emit_sites (s : State) (o : Out) : (s.emit o).sites = s.sites := rfl
@[simp] theorem State.emit_bgq (s : State) (o : Out) : (s.emit o).bgq = s.bgq := rfl
@[simp] theorem State.emit_bgDone (s : State) (o : Out) : (s.emit o).bgDone = s.bgDone := rfl
@[simp] theorem State.emit_regions (s : State) (o : Out) : (s.emit o).regions = s.regions := rfl
@[simp] theorem State.emit_gpoison (s : State) (o : Out) : (s.emit o).gpoison = s.gpoison := rfl
@[simp] theorem State.emit_gerr (s : State) (o : Out) : (s.emit o).gerr = s.gerr := rfl
@[simp] theorem State.emit_gword (s : State) (o : Out) : (s.emit o).gword = s.gword := rfl
@[simp] theorem State.emit_gacc (s : State) (o : Out) : (s.emit o).gacc = s.gacc := rfl
@[simp] theorem State.emit_fab (s : State) (o : Out) : (s.emit o).fab = s.fab := rfl
@[simp] theorem State.emit_plt (s : State) (o : Out) : (s.emit o).plt = s.plt := rfl
@[simp] theorem State.emit_dlr (s : State) (o : Out) : (s.emit o).dlr = s.dlr := rfl
@[simp] theorem State.emit_hst (s : State) (o : Out) : (s.emit o).hst = s.hst := rfl
@[simp] theorem State.emit_det (s : State) (o : Out) : (s.emit o).det = s.det := rfl
@[simp] theorem State.emit_mgt (s : State) (o : Out) : (s.emit o).mgt = s.mgt := rfl
@[simp] theorem State.emit_clk (s : State) (o : Out) : (s.emit o).clk = s.clk := rfl
@[simp] theorem State.emit_shadows (s : State) (o : Out) : (s.emit o).shadows = s.shadows := rfl
@[simp] theorem State.emit_windows (s : State) (o : Out) : (s.emit o).windows = s.windows := rfl
@[simp] theorem State.emit_outbox (s : State) (o : Out) : (s.emit o).outbox = s.outbox ++ [o] := rfl
@[simp] theorem State.emit_fref (s : State) (o : Out) : (s.emit o).fref = s.fref := rfl
@[simp] theorem State.emit_freeCount (s : State) (o : Out) : (s.emit o).freeCount = s.freeCount := rfl

/-! ## updFn changes `hst` alone -/

@[simp] theorem State.updFn_pending (s : State) (f : Nat) (g : Fn → Fn) : (s.updFn f g).pending = s.pending := rfl
@[simp] theorem State.updFn_mem (s : State) (f : Nat) (g : Fn → Fn) : (s.updFn f g).mem = s.mem := rfl
@[simp] theorem State.updFn_vpoison (s : State) (f : Nat) (g : Fn → Fn) : (s.updFn f g).vpoison = s.vpoison := rfl
@[simp] theorem State.updFn_verr (s : State) (f : Nat) (g : Fn → Fn) : (s.updFn f g).verr = s.verr := rfl
@[simp] theorem State.updFn_cores (s : State) (f : Nat) (g : Fn → Fn) : (s.updFn f g).cores = s.cores := rfl
@[simp] theorem State.updFn_clusters (s : State) (f : Nat) (g : Fn → Fn) : (s.updFn f g).clusters = s.clusters := rfl
@[simp] theorem State.updFn_teams (s : State) (f : Nat) (g : Fn → Fn) : (s.updFn f g).teams = s.teams := rfl
@[simp] theorem State.updFn_mesh (s : State) (f : Nat) (g : Fn → Fn) : (s.updFn f g).mesh = s.mesh := rfl
@[simp] theorem State.updFn_regs (s : State) (f : Nat) (g : Fn → Fn) : (s.updFn f g).regs = s.regs := rfl
@[simp] theorem State.updFn_sites (s : State) (f : Nat) (g : Fn → Fn) : (s.updFn f g).sites = s.sites := rfl
@[simp] theorem State.updFn_bgq (s : State) (f : Nat) (g : Fn → Fn) : (s.updFn f g).bgq = s.bgq := rfl
@[simp] theorem State.updFn_bgDone (s : State) (f : Nat) (g : Fn → Fn) : (s.updFn f g).bgDone = s.bgDone := rfl
@[simp] theorem State.updFn_regions (s : State) (f : Nat) (g : Fn → Fn) : (s.updFn f g).regions = s.regions := rfl
@[simp] theorem State.updFn_gpoison (s : State) (f : Nat) (g : Fn → Fn) : (s.updFn f g).gpoison = s.gpoison := rfl
@[simp] theorem State.updFn_gerr (s : State) (f : Nat) (g : Fn → Fn) : (s.updFn f g).gerr = s.gerr := rfl
@[simp] theorem State.updFn_gword (s : State) (f : Nat) (g : Fn → Fn) : (s.updFn f g).gword = s.gword := rfl
@[simp] theorem State.updFn_gacc (s : State) (f : Nat) (g : Fn → Fn) : (s.updFn f g).gacc = s.gacc := rfl
@[simp] theorem State.updFn_fab (s : State) (f : Nat) (g : Fn → Fn) : (s.updFn f g).fab = s.fab := rfl
@[simp] theorem State.updFn_plt (s : State) (f : Nat) (g : Fn → Fn) : (s.updFn f g).plt = s.plt := rfl
@[simp] theorem State.updFn_dlr (s : State) (f : Nat) (g : Fn → Fn) : (s.updFn f g).dlr = s.dlr := rfl
@[simp] theorem State.updFn_hst (s : State) (f : Nat) (g : Fn → Fn) : (s.updFn f g).hst = { s.hst with fns := upd {} s.hst.fns f g } := rfl
@[simp] theorem State.updFn_det (s : State) (f : Nat) (g : Fn → Fn) : (s.updFn f g).det = s.det := rfl
@[simp] theorem State.updFn_mgt (s : State) (f : Nat) (g : Fn → Fn) : (s.updFn f g).mgt = s.mgt := rfl
@[simp] theorem State.updFn_clk (s : State) (f : Nat) (g : Fn → Fn) : (s.updFn f g).clk = s.clk := rfl
@[simp] theorem State.updFn_shadows (s : State) (f : Nat) (g : Fn → Fn) : (s.updFn f g).shadows = s.shadows := rfl
@[simp] theorem State.updFn_windows (s : State) (f : Nat) (g : Fn → Fn) : (s.updFn f g).windows = s.windows := rfl
@[simp] theorem State.updFn_outbox (s : State) (f : Nat) (g : Fn → Fn) : (s.updFn f g).outbox = s.outbox := rfl
@[simp] theorem State.updFn_fref (s : State) (f : Nat) (g : Fn → Fn) : (s.updFn f g).fref = s.fref := rfl
@[simp] theorem State.updFn_freeCount (s : State) (f : Nat) (g : Fn → Fn) : (s.updFn f g).freeCount = s.freeCount := rfl

/-! ## updPort changes `fab` alone -/

@[simp] theorem State.updPort_pending (s : State) (p : Nat) (f : Port → Port) : (s.updPort p f).pending = s.pending := rfl
@[simp] theorem State.updPort_mem (s : State) (p : Nat) (f : Port → Port) : (s.updPort p f).mem = s.mem := rfl
@[simp] theorem State.updPort_vpoison (s : State) (p : Nat) (f : Port → Port) : (s.updPort p f).vpoison = s.vpoison := rfl
@[simp] theorem State.updPort_verr (s : State) (p : Nat) (f : Port → Port) : (s.updPort p f).verr = s.verr := rfl
@[simp] theorem State.updPort_cores (s : State) (p : Nat) (f : Port → Port) : (s.updPort p f).cores = s.cores := rfl
@[simp] theorem State.updPort_clusters (s : State) (p : Nat) (f : Port → Port) : (s.updPort p f).clusters = s.clusters := rfl
@[simp] theorem State.updPort_teams (s : State) (p : Nat) (f : Port → Port) : (s.updPort p f).teams = s.teams := rfl
@[simp] theorem State.updPort_mesh (s : State) (p : Nat) (f : Port → Port) : (s.updPort p f).mesh = s.mesh := rfl
@[simp] theorem State.updPort_regs (s : State) (p : Nat) (f : Port → Port) : (s.updPort p f).regs = s.regs := rfl
@[simp] theorem State.updPort_sites (s : State) (p : Nat) (f : Port → Port) : (s.updPort p f).sites = s.sites := rfl
@[simp] theorem State.updPort_bgq (s : State) (p : Nat) (f : Port → Port) : (s.updPort p f).bgq = s.bgq := rfl
@[simp] theorem State.updPort_bgDone (s : State) (p : Nat) (f : Port → Port) : (s.updPort p f).bgDone = s.bgDone := rfl
@[simp] theorem State.updPort_regions (s : State) (p : Nat) (f : Port → Port) : (s.updPort p f).regions = s.regions := rfl
@[simp] theorem State.updPort_gpoison (s : State) (p : Nat) (f : Port → Port) : (s.updPort p f).gpoison = s.gpoison := rfl
@[simp] theorem State.updPort_gerr (s : State) (p : Nat) (f : Port → Port) : (s.updPort p f).gerr = s.gerr := rfl
@[simp] theorem State.updPort_gword (s : State) (p : Nat) (f : Port → Port) : (s.updPort p f).gword = s.gword := rfl
@[simp] theorem State.updPort_gacc (s : State) (p : Nat) (f : Port → Port) : (s.updPort p f).gacc = s.gacc := rfl
@[simp] theorem State.updPort_fab (s : State) (p : Nat) (f : Port → Port) : (s.updPort p f).fab = { s.fab with ports := upd {} s.fab.ports p f } := rfl
@[simp] theorem State.updPort_plt (s : State) (p : Nat) (f : Port → Port) : (s.updPort p f).plt = s.plt := rfl
@[simp] theorem State.updPort_dlr (s : State) (p : Nat) (f : Port → Port) : (s.updPort p f).dlr = s.dlr := rfl
@[simp] theorem State.updPort_hst (s : State) (p : Nat) (f : Port → Port) : (s.updPort p f).hst = s.hst := rfl
@[simp] theorem State.updPort_det (s : State) (p : Nat) (f : Port → Port) : (s.updPort p f).det = s.det := rfl
@[simp] theorem State.updPort_mgt (s : State) (p : Nat) (f : Port → Port) : (s.updPort p f).mgt = s.mgt := rfl
@[simp] theorem State.updPort_clk (s : State) (p : Nat) (f : Port → Port) : (s.updPort p f).clk = s.clk := rfl
@[simp] theorem State.updPort_shadows (s : State) (p : Nat) (f : Port → Port) : (s.updPort p f).shadows = s.shadows := rfl
@[simp] theorem State.updPort_windows (s : State) (p : Nat) (f : Port → Port) : (s.updPort p f).windows = s.windows := rfl
@[simp] theorem State.updPort_outbox (s : State) (p : Nat) (f : Port → Port) : (s.updPort p f).outbox = s.outbox := rfl
@[simp] theorem State.updPort_fref (s : State) (p : Nat) (f : Port → Port) : (s.updPort p f).fref = s.fref := rfl
@[simp] theorem State.updPort_freeCount (s : State) (p : Nat) (f : Port → Port) : (s.updPort p f).freeCount = s.freeCount := rfl

/-! ## addTx changes `fab` alone -/

@[simp] theorem State.addTx_pending (s : State) (t : FabTx) : (s.addTx t).pending = s.pending := rfl
@[simp] theorem State.addTx_mem (s : State) (t : FabTx) : (s.addTx t).mem = s.mem := rfl
@[simp] theorem State.addTx_vpoison (s : State) (t : FabTx) : (s.addTx t).vpoison = s.vpoison := rfl
@[simp] theorem State.addTx_verr (s : State) (t : FabTx) : (s.addTx t).verr = s.verr := rfl
@[simp] theorem State.addTx_cores (s : State) (t : FabTx) : (s.addTx t).cores = s.cores := rfl
@[simp] theorem State.addTx_clusters (s : State) (t : FabTx) : (s.addTx t).clusters = s.clusters := rfl
@[simp] theorem State.addTx_teams (s : State) (t : FabTx) : (s.addTx t).teams = s.teams := rfl
@[simp] theorem State.addTx_mesh (s : State) (t : FabTx) : (s.addTx t).mesh = s.mesh := rfl
@[simp] theorem State.addTx_regs (s : State) (t : FabTx) : (s.addTx t).regs = s.regs := rfl
@[simp] theorem State.addTx_sites (s : State) (t : FabTx) : (s.addTx t).sites = s.sites := rfl
@[simp] theorem State.addTx_bgq (s : State) (t : FabTx) : (s.addTx t).bgq = s.bgq := rfl
@[simp] theorem State.addTx_bgDone (s : State) (t : FabTx) : (s.addTx t).bgDone = s.bgDone := rfl
@[simp] theorem State.addTx_regions (s : State) (t : FabTx) : (s.addTx t).regions = s.regions := rfl
@[simp] theorem State.addTx_gpoison (s : State) (t : FabTx) : (s.addTx t).gpoison = s.gpoison := rfl
@[simp] theorem State.addTx_gerr (s : State) (t : FabTx) : (s.addTx t).gerr = s.gerr := rfl
@[simp] theorem State.addTx_gword (s : State) (t : FabTx) : (s.addTx t).gword = s.gword := rfl
@[simp] theorem State.addTx_gacc (s : State) (t : FabTx) : (s.addTx t).gacc = s.gacc := rfl
@[simp] theorem State.addTx_fab (s : State) (t : FabTx) : (s.addTx t).fab = { s.fab with outs := s.fab.outs ++ [t] } := rfl
@[simp] theorem State.addTx_plt (s : State) (t : FabTx) : (s.addTx t).plt = s.plt := rfl
@[simp] theorem State.addTx_dlr (s : State) (t : FabTx) : (s.addTx t).dlr = s.dlr := rfl
@[simp] theorem State.addTx_hst (s : State) (t : FabTx) : (s.addTx t).hst = s.hst := rfl
@[simp] theorem State.addTx_det (s : State) (t : FabTx) : (s.addTx t).det = s.det := rfl
@[simp] theorem State.addTx_mgt (s : State) (t : FabTx) : (s.addTx t).mgt = s.mgt := rfl
@[simp] theorem State.addTx_clk (s : State) (t : FabTx) : (s.addTx t).clk = s.clk := rfl
@[simp] theorem State.addTx_shadows (s : State) (t : FabTx) : (s.addTx t).shadows = s.shadows := rfl
@[simp] theorem State.addTx_windows (s : State) (t : FabTx) : (s.addTx t).windows = s.windows := rfl
@[simp] theorem State.addTx_outbox (s : State) (t : FabTx) : (s.addTx t).outbox = s.outbox := rfl
@[simp] theorem State.addTx_fref (s : State) (t : FabTx) : (s.addTx t).fref = s.fref := rfl
@[simp] theorem State.addTx_freeCount (s : State) (t : FabTx) : (s.addTx t).freeCount = s.freeCount := rfl

/-! ## setChain changes `plt` alone -/

@[simp] theorem State.setChain_pending (s : State) (seq : Nat) (c : Chain) : (s.setChain seq c).pending = s.pending := rfl
@[simp] theorem State.setChain_mem (s : State) (seq : Nat) (c : Chain) : (s.setChain seq c).mem = s.mem := rfl
@[simp] theorem State.setChain_vpoison (s : State) (seq : Nat) (c : Chain) : (s.setChain seq c).vpoison = s.vpoison := rfl
@[simp] theorem State.setChain_verr (s : State) (seq : Nat) (c : Chain) : (s.setChain seq c).verr = s.verr := rfl
@[simp] theorem State.setChain_cores (s : State) (seq : Nat) (c : Chain) : (s.setChain seq c).cores = s.cores := rfl
@[simp] theorem State.setChain_clusters (s : State) (seq : Nat) (c : Chain) : (s.setChain seq c).clusters = s.clusters := rfl
@[simp] theorem State.setChain_teams (s : State) (seq : Nat) (c : Chain) : (s.setChain seq c).teams = s.teams := rfl
@[simp] theorem State.setChain_mesh (s : State) (seq : Nat) (c : Chain) : (s.setChain seq c).mesh = s.mesh := rfl
@[simp] theorem State.setChain_regs (s : State) (seq : Nat) (c : Chain) : (s.setChain seq c).regs = s.regs := rfl
@[simp] theorem State.setChain_sites (s : State) (seq : Nat) (c : Chain) : (s.setChain seq c).sites = s.sites := rfl
@[simp] theorem State.setChain_bgq (s : State) (seq : Nat) (c : Chain) : (s.setChain seq c).bgq = s.bgq := rfl
@[simp] theorem State.setChain_bgDone (s : State) (seq : Nat) (c : Chain) : (s.setChain seq c).bgDone = s.bgDone := rfl
@[simp] theorem State.setChain_regions (s : State) (seq : Nat) (c : Chain) : (s.setChain seq c).regions = s.regions := rfl
@[simp] theorem State.setChain_gpoison (s : State) (seq : Nat) (c : Chain) : (s.setChain seq c).gpoison = s.gpoison := rfl
@[simp] theorem State.setChain_gerr (s : State) (seq : Nat) (c : Chain) : (s.setChain seq c).gerr = s.gerr := rfl
@[simp] theorem State.setChain_gword (s : State) (seq : Nat) (c : Chain) : (s.setChain seq c).gword = s.gword := rfl
@[simp] theorem State.setChain_gacc (s : State) (seq : Nat) (c : Chain) : (s.setChain seq c).gacc = s.gacc := rfl
@[simp] theorem State.setChain_fab (s : State) (seq : Nat) (c : Chain) : (s.setChain seq c).fab = s.fab := rfl
@[simp] theorem State.setChain_plt (s : State) (seq : Nat) (c : Chain) : (s.setChain seq c).plt = { s.plt with chains := put s.plt.chains seq c } := rfl
@[simp] theorem State.setChain_dlr (s : State) (seq : Nat) (c : Chain) : (s.setChain seq c).dlr = s.dlr := rfl
@[simp] theorem State.setChain_hst (s : State) (seq : Nat) (c : Chain) : (s.setChain seq c).hst = s.hst := rfl
@[simp] theorem State.setChain_det (s : State) (seq : Nat) (c : Chain) : (s.setChain seq c).det = s.det := rfl
@[simp] theorem State.setChain_mgt (s : State) (seq : Nat) (c : Chain) : (s.setChain seq c).mgt = s.mgt := rfl
@[simp] theorem State.setChain_clk (s : State) (seq : Nat) (c : Chain) : (s.setChain seq c).clk = s.clk := rfl
@[simp] theorem State.setChain_shadows (s : State) (seq : Nat) (c : Chain) : (s.setChain seq c).shadows = s.shadows := rfl
@[simp] theorem State.setChain_windows (s : State) (seq : Nat) (c : Chain) : (s.setChain seq c).windows = s.windows := rfl
@[simp] theorem State.setChain_outbox (s : State) (seq : Nat) (c : Chain) : (s.setChain seq c).outbox = s.outbox := rfl
@[simp] theorem State.setChain_fref (s : State) (seq : Nat) (c : Chain) : (s.setChain seq c).fref = s.fref := rfl
@[simp] theorem State.setChain_freeCount (s : State) (seq : Nat) (c : Chain) : (s.setChain seq c).freeCount = s.freeCount := rfl

/-! ## updPool changes `plt` alone -/

@[simp] theorem State.updPool_pending (s : State) (p : Nat) (f : PoolSlots → PoolSlots) : (s.updPool p f).pending = s.pending := rfl
@[simp] theorem State.updPool_mem (s : State) (p : Nat) (f : PoolSlots → PoolSlots) : (s.updPool p f).mem = s.mem := rfl
@[simp] theorem State.updPool_vpoison (s : State) (p : Nat) (f : PoolSlots → PoolSlots) : (s.updPool p f).vpoison = s.vpoison := rfl
@[simp] theorem State.updPool_verr (s : State) (p : Nat) (f : PoolSlots → PoolSlots) : (s.updPool p f).verr = s.verr := rfl
@[simp] theorem State.updPool_cores (s : State) (p : Nat) (f : PoolSlots → PoolSlots) : (s.updPool p f).cores = s.cores := rfl
@[simp] theorem State.updPool_clusters (s : State) (p : Nat) (f : PoolSlots → PoolSlots) : (s.updPool p f).clusters = s.clusters := rfl
@[simp] theorem State.updPool_teams (s : State) (p : Nat) (f : PoolSlots → PoolSlots) : (s.updPool p f).teams = s.teams := rfl
@[simp] theorem State.updPool_mesh (s : State) (p : Nat) (f : PoolSlots → PoolSlots) : (s.updPool p f).mesh = s.mesh := rfl
@[simp] theorem State.updPool_regs (s : State) (p : Nat) (f : PoolSlots → PoolSlots) : (s.updPool p f).regs = s.regs := rfl
@[simp] theorem State.updPool_sites (s : State) (p : Nat) (f : PoolSlots → PoolSlots) : (s.updPool p f).sites = s.sites := rfl
@[simp] theorem State.updPool_bgq (s : State) (p : Nat) (f : PoolSlots → PoolSlots) : (s.updPool p f).bgq = s.bgq := rfl
@[simp] theorem State.updPool_bgDone (s : State) (p : Nat) (f : PoolSlots → PoolSlots) : (s.updPool p f).bgDone = s.bgDone := rfl
@[simp] theorem State.updPool_regions (s : State) (p : Nat) (f : PoolSlots → PoolSlots) : (s.updPool p f).regions = s.regions := rfl
@[simp] theorem State.updPool_gpoison (s : State) (p : Nat) (f : PoolSlots → PoolSlots) : (s.updPool p f).gpoison = s.gpoison := rfl
@[simp] theorem State.updPool_gerr (s : State) (p : Nat) (f : PoolSlots → PoolSlots) : (s.updPool p f).gerr = s.gerr := rfl
@[simp] theorem State.updPool_gword (s : State) (p : Nat) (f : PoolSlots → PoolSlots) : (s.updPool p f).gword = s.gword := rfl
@[simp] theorem State.updPool_gacc (s : State) (p : Nat) (f : PoolSlots → PoolSlots) : (s.updPool p f).gacc = s.gacc := rfl
@[simp] theorem State.updPool_fab (s : State) (p : Nat) (f : PoolSlots → PoolSlots) : (s.updPool p f).fab = s.fab := rfl
@[simp] theorem State.updPool_plt (s : State) (p : Nat) (f : PoolSlots → PoolSlots) : (s.updPool p f).plt = { s.plt with pools := upd {} s.plt.pools p f } := rfl
@[simp] theorem State.updPool_dlr (s : State) (p : Nat) (f : PoolSlots → PoolSlots) : (s.updPool p f).dlr = s.dlr := rfl
@[simp] theorem State.updPool_hst (s : State) (p : Nat) (f : PoolSlots → PoolSlots) : (s.updPool p f).hst = s.hst := rfl
@[simp] theorem State.updPool_det (s : State) (p : Nat) (f : PoolSlots → PoolSlots) : (s.updPool p f).det = s.det := rfl
@[simp] theorem State.updPool_mgt (s : State) (p : Nat) (f : PoolSlots → PoolSlots) : (s.updPool p f).mgt = s.mgt := rfl
@[simp] theorem State.updPool_clk (s : State) (p : Nat) (f : PoolSlots → PoolSlots) : (s.updPool p f).clk = s.clk := rfl
@[simp] theorem State.updPool_shadows (s : State) (p : Nat) (f : PoolSlots → PoolSlots) : (s.updPool p f).shadows = s.shadows := rfl
@[simp] theorem State.updPool_windows (s : State) (p : Nat) (f : PoolSlots → PoolSlots) : (s.updPool p f).windows = s.windows := rfl
@[simp] theorem State.updPool_outbox (s : State) (p : Nat) (f : PoolSlots → PoolSlots) : (s.updPool p f).outbox = s.outbox := rfl
@[simp] theorem State.updPool_fref (s : State) (p : Nat) (f : PoolSlots → PoolSlots) : (s.updPool p f).fref = s.fref := rfl
@[simp] theorem State.updPool_freeCount (s : State) (p : Nat) (f : PoolSlots → PoolSlots) : (s.updPool p f).freeCount = s.freeCount := rfl

/-! ## setTap changes `clk` alone -/

@[simp] theorem State.setTap_pending (s : State) (k : Nat) : (s.setTap k).pending = s.pending := rfl
@[simp] theorem State.setTap_mem (s : State) (k : Nat) : (s.setTap k).mem = s.mem := rfl
@[simp] theorem State.setTap_vpoison (s : State) (k : Nat) : (s.setTap k).vpoison = s.vpoison := rfl
@[simp] theorem State.setTap_verr (s : State) (k : Nat) : (s.setTap k).verr = s.verr := rfl
@[simp] theorem State.setTap_cores (s : State) (k : Nat) : (s.setTap k).cores = s.cores := rfl
@[simp] theorem State.setTap_clusters (s : State) (k : Nat) : (s.setTap k).clusters = s.clusters := rfl
@[simp] theorem State.setTap_teams (s : State) (k : Nat) : (s.setTap k).teams = s.teams := rfl
@[simp] theorem State.setTap_mesh (s : State) (k : Nat) : (s.setTap k).mesh = s.mesh := rfl
@[simp] theorem State.setTap_regs (s : State) (k : Nat) : (s.setTap k).regs = s.regs := rfl
@[simp] theorem State.setTap_sites (s : State) (k : Nat) : (s.setTap k).sites = s.sites := rfl
@[simp] theorem State.setTap_bgq (s : State) (k : Nat) : (s.setTap k).bgq = s.bgq := rfl
@[simp] theorem State.setTap_bgDone (s : State) (k : Nat) : (s.setTap k).bgDone = s.bgDone := rfl
@[simp] theorem State.setTap_regions (s : State) (k : Nat) : (s.setTap k).regions = s.regions := rfl
@[simp] theorem State.setTap_gpoison (s : State) (k : Nat) : (s.setTap k).gpoison = s.gpoison := rfl
@[simp] theorem State.setTap_gerr (s : State) (k : Nat) : (s.setTap k).gerr = s.gerr := rfl
@[simp] theorem State.setTap_gword (s : State) (k : Nat) : (s.setTap k).gword = s.gword := rfl
@[simp] theorem State.setTap_gacc (s : State) (k : Nat) : (s.setTap k).gacc = s.gacc := rfl
@[simp] theorem State.setTap_fab (s : State) (k : Nat) : (s.setTap k).fab = s.fab := rfl
@[simp] theorem State.setTap_plt (s : State) (k : Nat) : (s.setTap k).plt = s.plt := rfl
@[simp] theorem State.setTap_dlr (s : State) (k : Nat) : (s.setTap k).dlr = s.dlr := rfl
@[simp] theorem State.setTap_hst (s : State) (k : Nat) : (s.setTap k).hst = s.hst := rfl
@[simp] theorem State.setTap_det (s : State) (k : Nat) : (s.setTap k).det = s.det := rfl
@[simp] theorem State.setTap_mgt (s : State) (k : Nat) : (s.setTap k).mgt = s.mgt := rfl
@[simp] theorem State.setTap_clk (s : State) (k : Nat) : (s.setTap k).clk = { s.clk with tap := k } := rfl
@[simp] theorem State.setTap_shadows (s : State) (k : Nat) : (s.setTap k).shadows = s.shadows := rfl
@[simp] theorem State.setTap_windows (s : State) (k : Nat) : (s.setTap k).windows = s.windows := rfl
@[simp] theorem State.setTap_outbox (s : State) (k : Nat) : (s.setTap k).outbox = s.outbox := rfl
@[simp] theorem State.setTap_fref (s : State) (k : Nat) : (s.setTap k).fref = s.fref := rfl
@[simp] theorem State.setTap_freeCount (s : State) (k : Nat) : (s.setTap k).freeCount = s.freeCount := rfl

/-! ## Reset -/

@[simp] theorem State.reset_pending : State.reset.pending = [] := rfl
@[simp] theorem State.reset_mem : State.reset.mem = [] := rfl
@[simp] theorem State.reset_vpoison : State.reset.vpoison = [] := rfl
@[simp] theorem State.reset_verr : State.reset.verr = [] := rfl
@[simp] theorem State.reset_cores : State.reset.cores = [] := rfl
@[simp] theorem State.reset_clusters : State.reset.clusters = [] := rfl
@[simp] theorem State.reset_teams : State.reset.teams = [] := rfl
@[simp] theorem State.reset_mesh : State.reset.mesh = {} := rfl
@[simp] theorem State.reset_regs : State.reset.regs = [] := rfl
@[simp] theorem State.reset_sites : State.reset.sites = [] := rfl
@[simp] theorem State.reset_bgq : State.reset.bgq = [] := rfl
@[simp] theorem State.reset_bgDone : State.reset.bgDone = [] := rfl
@[simp] theorem State.reset_regions : State.reset.regions = [] := rfl
@[simp] theorem State.reset_gpoison : State.reset.gpoison = [] := rfl
@[simp] theorem State.reset_gerr : State.reset.gerr = [] := rfl
@[simp] theorem State.reset_gword : State.reset.gword = [] := rfl
@[simp] theorem State.reset_gacc : State.reset.gacc = [] := rfl
@[simp] theorem State.reset_fab : State.reset.fab = {} := rfl
@[simp] theorem State.reset_plt : State.reset.plt = {} := rfl
@[simp] theorem State.reset_dlr : State.reset.dlr = {} := rfl
@[simp] theorem State.reset_hst : State.reset.hst = {} := rfl
@[simp] theorem State.reset_det : State.reset.det = {} := rfl
@[simp] theorem State.reset_mgt : State.reset.mgt = {} := rfl
@[simp] theorem State.reset_clk : State.reset.clk = {} := rfl
@[simp] theorem State.reset_shadows : State.reset.shadows = [] := rfl
@[simp] theorem State.reset_windows : State.reset.windows = [] := rfl
@[simp] theorem State.reset_outbox : State.reset.outbox = [] := rfl
@[simp] theorem State.reset_fref : State.reset.fref = 0 := rfl
@[simp] theorem State.reset_freeCount : State.reset.freeCount = 0 := rfl

end Sys2Proof.Machine
end

