-- ==== Sys2Proof/Laws/Vector.lean ====
section
/-! SUPPORT. Laws of the vector unit: what a lane operation does when it issues, lane by lane. -/

namespace Sys2Proof.Machine

theorem nth_eq_getElem {α : Type} (d : α) : ∀ (xs : List α) (k : Nat) (h : k < xs.length), nth d xs k = xs[k]
  | [], k, h => by simp at h
  | x :: xs, 0, _ => rfl
  | x :: xs, k + 1, h => nth_eq_getElem d xs k (by simpa using h)

theorem nth_map_range {α : Type} (d : α) (f : Nat → α) (n k : Nat) (h : k < n) : nth d ((List.range n).map f) k = f k := by
  rw [nth_eq_getElem d _ k (by simpa using h)]
  simp

/-- A lane of a vector register, read from its list of lanes. -/
theorem nth_laneList (v : Vector Word 32) (k : Fin 32) : nth 0#32 (laneList v) k.val = v.get k := by
  rw [nth_eq_getElem _ _ _ (by simp [laneList])]
  simp [laneList, Vector.get]

/-- The lanes of a list built lane by lane. -/
theorem lanesOf_map_range (f : Nat → Word) : lanesOf ((List.range 32).map f) = Vector.ofFn (fun k => f k.val) := by
  unfold lanesOf
  congr 1
  funext k
  exact nth_map_range _ f 32 k.val k.isLt

theorem map_range_finRange {α : Type} (f : Nat → α) (n : Nat) : (List.range n).map f = (List.finRange n).map (fun k => f k.val) := by
  apply List.ext_getElem <;> simp

/-- The core after a lane operation: lane `k` becomes `g` of the operands' lanes, and POISON events are counted (R191, R64). -/
def Core.laneResult (c : Core) (r : RForm) (lat : Nat) (g : Word → Word → Word → Word × Nat) : Core :=
  let at_ := fun (k : Fin 32) => g ((c.rv r.va).get k) ((c.rv r.vb).get k) ((c.rv r.vc).get k)
  { c.retV r.vd (Vector.ofFn (fun k => (at_ k).1)) lat with
    vecFree := c.now + 1
    fmtPend := { c.fmtPend with poison := c.fmtPend.poison + ((List.finRange 32).map (fun k => (at_ k).2)).sum } }

/-- A lane operation that raises no fault has its lane result; then its bundle has issued or goes on. -/
theorem laneOp_issues {i : Issue} {r : RForm} {unused ok : Bool} {lat : Nat} {g : Word → Word → Word → Word × Nat} {s o : State} {c : Core}
    (h : TakesSlot i s o) (hc : c = o.core i.core.toNat) (h1 : c.bundleStall = []) (h2 : c.bundleFaults = []) (h3 : i.slot.toNat = 1)
    (hu : unused = false) (hk : ok = true) (hv : c.vecFree ≤ c.now) (hw : c.clashV r.vd (c.now + lat) = false)
    (he : closesBundle i = true → bundleEndFaults i.core.toNat (o.setCore i.core.toNat (c.laneResult r lat g)) = []) :
    laneOp i r unused ok lat g s = slotEnds i (o.setCore i.core.toNat (c.laneResult r lat g)) := by
  subst hc
  have hr : ∀ (q : State) (d : Core), (laneSpec i r unused ok lat g q d).eff = q.setCore i.core.toNat (d.laneResult r lat g) := by
    intro q d
    simp only [laneSpec, List.map_map]
    rw [lanesOf_map_range, map_range_finRange]
    simp only [Function.comp_def, nth_laneList]
    simp [Core.laneResult, Core.fmtEvent, Core.useVec, Core.retV, Core.sched, Core.schedAs, FmtEvents.add]
  unfold laneOp
  rw [issueOp_issues h rfl h1 h2 h3, hr]
  · intro _
    exact ⟨rfl, awaits_nil _⟩
  · simp [laneSpec, firstFault_eq_none, unusedField, vecBusy, clashVFault, hu, hk, hv, hw]
  · intro hcl
    rw [hr]
    exact he hcl

end Sys2Proof.Machine
end

