-- ==== Sys2Proof/Safety.lean ====
section
/-! DEFINITION. What counts as a safe run of the block: it never stops, and every state keeps the memory's canonical form. -/

namespace Sys2Proof.Safety

open Sys2Proof.Machine

/-- A sound state: memory lists addresses strictly rising, and no byte that equals the unwritten one. -/
def Sound (s : State) : Prop := s.mem.wf = true

/-- The state after `n` steps; none where a step stops with a fault or a refusal. -/
def runFor : Nat → State → Option State
  | 0, s => some s
  | n + 1, s =>
    match step s with
    | .next t => runFor n t
    | _ => none

/-- Every command that waits is well formed. -/
def WellFed (s : State) : Prop := ∀ c ∈ s.pending, c.wf = true

/-- A run from `s` is safe: after any number of steps the block has not stopped, and its state is sound. -/
def Safe (s : State) : Prop := ∀ n, ∃ t, runFor n s = some t ∧ Sound t

end Sys2Proof.Safety
end

