-- ==== Sys2Proof/Tests/Slice0.lean ====
section
/-! SUPPORT. Small tests of one step each, and the witnesses: for each statement with hypotheses, a concrete state and operands that meet
them, with what the spec says comes out there. -/

/-- Registers set on a state. -/
def Sys2Proof.Machine.State.withRegs (s : Sys2Proof.Machine.State) (l : List (Nat × Nat)) : Sys2Proof.Machine.State :=
  l.foldl (fun s p => s.setReg p.1 p.2) s

namespace Sys2Proof.Tests

set_option Elab.async false

open Sys2Proof Sys2Proof.Machine Sys2Proof.Claims

/-- The state that a command answers; the empty state where it stops. -/
def after (o : Host.Outcome State Fault Refusal) : State :=
  match o with
  | .next t => t
  | _ => {}

/-- A state in which core 0 opens its next bundle at bundle 0. -/
def issuing (c : Core) (mem : Mem := []) : State :=
  { mem := mem, cores := [(0, { cur := { c with exec := .issuing, jumped := true } })] }

/-- A core with scalar registers set. -/
def withRegs (l : List (BitVec 5 × Word)) : Core := l.foldl (fun c p => c.writeS p.1 p.2) {}

/-- The first instruction of a bundle of core 0, in the slot of a class. -/
def at0 : Issue := ⟨0, 0, true, true⟩
def at1 : Issue := ⟨0, 1, true, true⟩
def at2 : Issue := ⟨0, 2, true, true⟩
def at3 : Issue := ⟨0, 3, true, true⟩

/-- Core 0 in cycle `k` after a command, its writes of that cycle made. -/
def core0 (k : Nat) (o : Host.Outcome State Fault Refusal) : Core := (settle 0 k (after o)).core 0

/-- Core 0 after a command. -/
def coreOf (o : Host.Outcome State Fault Refusal) (n : Nat := 0) : Core := (after o).core n

/-- Queue 1 holds one descriptor. -/
def queue1 (d : DmaDesc) : Vector DmaQueue 8 := (Vector.replicate 8 ({} : DmaQueue)).set 1 { posted := 1, descs := [d] }

/-- A state in which core `n` of team 0, eight by eight cores, opens a bundle. -/
def onTeam (n : Nat) (c : Core) : State :=
  { cores := [(n, { cur := { c with exec := .issuing, jumped := true } })], clusters := [(0, { dom := .run, team := some 0 })]
    teams := [(0, { loaded := true, running := true })] }

/-- Every cluster, those listed as they are listed. -/
def board (l : List (Nat × Cluster)) : List (Nat × Cluster) := (List.range 64).map (fun c => (c, look {} l c))

/-- The device between POR# and its links: registers whose reset a fuse gives are set. -/
def up : State :=
  { clk := { por := false }
    regs := [(Reg.gdrCfg, 0), (Reg.uhlStatus, 0), (Reg.ngvSerial, 7), (Reg.clkXctrl, 3), (Reg.clkXstart, 0), (Reg.pwrVid, 0)] }

/-- Team 0 with its 64 cores in a state, and its record. -/
def turning (c : Core) (tm : Team) : State :=
  { up with clusters := [(0, { dom := .run, team := some 0 })], teams := [(0, { tm with loaded := true })]
            cores := (List.range 8).flatMap (fun y => (List.range 8).map (fun x => (y * 64 + x, { cur := c }))) }

/-- A descriptor with fields set: (bit, value). -/
def desc (l : List (Nat × Nat)) : BitVec 512 := BitVec.ofNat 512 (l.map (fun p => p.2 * 2 ^ p.1)).sum

/-- A device with its regions in service and a golden-copy area of 1 MiB at offset 0. -/
def withGold : State := up.withRegs ((List.range 32).map (fun n => (Reg.gdrRgnState n, 2)) ++ [(Reg.gdrGold, 0x10000), (Reg.glbDetClass, 9)])

/-- A running request. -/
def request : Slot :=
  { st := .queued, cls := 0, waitf := false, refine := false, dpol := 0, d := 0, tenant := 0, fn := 0, tag := 9, model := 7, delta := 0, seed := 0
    temp := 0, topK := 0, topP := 1, deadline := 1, maxTokens := 1, promptLen := 2, promptAddr := 0, arrival := 0, descIdx := 3 }

/-! ## Well-formed commands (each check refuses a term) -/

def hdr0 : Hdr := ⟨1, false, 0, 0, 0, 0, 0, 0, 0, 0, 0, 15, []⟩

/-- The ranges of a transaction's header (Table NGV-5). -/
theorem test_wf_header :
    hdr0.wf = true ∧ ({ hdr0 with cls := 4 } : Hdr).wf = false ∧ ({ hdr0 with tag := 4096 } : Hdr).wf = false ∧
    ({ hdr0 with src := 4096 } : Hdr).wf = false ∧ ({ hdr0 with dst := 4096 } : Hdr).wf = false ∧
    ({ hdr0 with lines := 256 } : Hdr).wf = false ∧ ({ hdr0 with att := 4 } : Hdr).wf = false ∧
    ({ hdr0 with asub := 4 } : Hdr).wf = false ∧ ({ hdr0 with status := 256 } : Hdr).wf = false ∧
    ({ hdr0 with addr := 2 ^ 48 } : Hdr).wf = false ∧ ({ hdr0 with turn := 4096 } : Hdr).wf = false ∧
    ({ hdr0 with hops := 16 } : Hdr).wf = false := by decide +kernel

/-- Ports are 0 to 21: the rows that name one. -/
theorem test_wf_ports :
    portWf 21 = true ∧ portWf 22 = false ∧ (Instr.codewordReceive 22 ⟨0, 0, .clean, []⟩).wf = false ∧
    (Instr.codewordReceive 21 ⟨0, 0, .clean, [0]⟩).wf = false ∧ (Instr.flitReceive 22 0 1 0 0).wf = false ∧ (Instr.retry 22 0).wf = false ∧ (Instr.replayTimeout 22).wf = false ∧
    (Instr.retryRepeat 22).wf = false ∧ (Instr.echo 22 0 none).wf = false ∧ (Instr.portDownRetry 22).wf = false ∧
    (Instr.portCtrl 0 22 0).wf = false ∧ (Instr.portCred 0 22 0).wf = false ∧ (Instr.portPrbs 0 22 0).wf = false ∧
    (Instr.lanes 22 0).wf = false ∧ (Instr.portRetrain 22 none).wf = false ∧ (Instr.credit 22 0 0 0 0).wf = false ∧
    (Instr.ident 22 0 0 true 0).wf = false ∧ (Instr.portTraining 22 true 0).wf = false := by decide +kernel

/-- The transactions check their port and their header. -/
theorem test_wf_transactions :
    (Instr.read 21 hdr0).wf = true ∧ (Instr.read 22 hdr0).wf = false ∧ (Instr.write 0 { hdr0 with lines := 256 }).wf = false ∧
    (Instr.atomicAdd 22 hdr0).wf = false ∧ (Instr.copy 22 hdr0).wf = false ∧ (Instr.reduce 22 hdr0).wf = false ∧
    (Instr.signal 22 hdr0).wf = false ∧ (Instr.rdrsp 22 hdr0).wf = false ∧ (Instr.ack 22 hdr0).wf = false ∧
    (Instr.transitForward 0 1 { hdr0 with hops := 16 }).wf = false := by decide +kernel

/-- Rows of sites are 0 to 71, host accesses 1 to 4,096 bytes, PLLs 0 to 5, regions 0 to 31. -/
theorem test_wf_ranges :
    (Instr.vaultScrub 0 72 ⟨0, {}⟩).wf = false ∧ (Instr.vaultRowRepair 0 71).wf = true ∧ (Instr.vaultRowRepair 0 72).wf = false ∧
    (Instr.vaultSelfRefresh 0 72).wf = false ∧ accessWf 0 = false ∧ accessWf 4096 = true ∧ accessWf 4097 = false ∧
    (Instr.lossOfLock 5).wf = true ∧ (Instr.lossOfLock 6).wf = false ∧ (Instr.clkPllnCfg 0 6 0).wf = false ∧
    (Instr.pllLock 0 true [(32, false)]).wf = false ∧ (Instr.wakeComplete [(31, true)]).wf = true ∧ (Instr.wakeComplete [(32, true)]).wf = false ∧
    (Instr.sramEccError 0 (.fetch 1024)).wf = false ∧ (Instr.sramEccError 0 (.instr 1024 0)).wf = false ∧
    (Instr.sramEccError 0 .outside).wf = true ∧ (Instr.turnStart 0 ⟨[(4096, 0, [])], none, []⟩).wf = false ∧ (Instr.mbist 0 72 0).wf = false ∧
    (Instr.bistDone 0 72 0 []).wf = false ∧ (Instr.pllLock 6 true []).wf = false := by decide +kernel

/-- Sizes of host accesses, BARs of registers, and the lists that training, the scrubber and boot report. -/
theorem test_wf_sizes :
    (Instr.reqTail 0 0 0).wf = false ∧ (Instr.cmdTail 0 4097 0).wf = false ∧ (Instr.tokHead 0 0 0).wf = false ∧
    (Instr.cplHead 0 0 0).wf = false ∧ (Instr.bar4Read 0 0 0).wf = false ∧ (Instr.bar4Write 0 0 [] false).wf = false ∧
    (Instr.registerWrite 0 2 0 4 (.write 0 false)).wf = false ∧ (Instr.registerWrite 0 0 0 0 (.write 0 false)).wf = false ∧
    (Instr.gddrTraining (List.replicate 31 (some 0, true))).wf = false ∧
    (Instr.gddrTraining (List.replicate 32 (some 3, true))).wf = false ∧
    (Instr.gddrTraining (List.replicate 32 (some 2, true))).wf = true ∧
    (Instr.gddrScrub 0 (List.replicate 14 {})).wf = false ∧ (Instr.porRelease [] [] [] false).wf = false := by decide +kernel

/-! ## Queue and memory -/

/-- StepRunsFrontCommand, EmptyQueueIdles: a command at the front runs and leaves the queue; an empty queue idles. -/
theorem test_queue :
    let s : State := { pending := [.frameBoundary, .trst] }
    s.pending = .frameBoundary :: [.trst] ∧ (after (step s)).pending = [.trst] ∧ State.reset.pending = [] ∧
    after (step State.reset) = State.reset := by decide +kernel

/-- MemoryCanonicalKept: a state with memory in canonical form whose step stores a byte and one whose step removes an entry. -/
theorem test_memory_kept :
    let c := (withRegs [(1, 0x80), (2, 0)]).store 0 0x80 [7#8]
    let s : State := { issuing c with pending := [.nop ⟨0, 2, true, true⟩], mem := [(dmAddr 0 0x80, 5#8)] }
    s.mem.wf = true ∧ (after (step s)).mem.wf = true := by decide +kernel

/-- No row of the table has bits: no word spells a command, and the state stays. -/
theorem test_table_word : decodeTableWord 32 0 = none ∧ State.reset.withFetchWord 32 0 = State.reset := by decide +kernel

/-! ## Instruction words -/

/-- Words that chapters 07 and 08 write out beside those of ExampleWords. -/
theorem test_words :
    decodeP at0 0x18000009 = .instr (.xld at0 9) ∧ decodeP at0 0x1C00000A = .instr (.cld at0 10) ∧ decodeP at0 0x24000008 = .instr (.gspl at0 0 true) ∧
    decodeP at0 0x28000008 = .instr (.gresReload at0 0) ∧ decodeP at0 0x2C000002 = .instr (.gcls at0 2) ∧
    decodeP at0 0x3568D860 = .instr (.draw at0 3 true true 6 20 5) ∧ decodeS at2 0x54300000 = .instr (.aset at2 1 16) ∧
    decodeS at2 0x6510A0A2 = .instr (.bc at2 2 4 5 0xA2) ∧ decodeM at3 0 0x20000016 = .instr (.ovld at3 22) ∧
    decodeM at3 0 0x24000200 = .instr (.ovb at3 512) ∧ decodeM at3 0 0x0C000092 = .instr (.get at3 2 18) ∧
    decodeM at3 0 0x18000010 = .instr (.mbc at3 16 false) := by decide

/-- Words of no instruction: an opcode that no table lists, a reserved bit, a SECT of FORM 3. -/
theorem test_illegal_words :
    decodeP at0 0x38000000 = .illegal ∧ decodeP at0 0x10000001 = .illegal ∧ decodeS at2 0x70000003 = .badForm ∧ decodeSlot at1 0 0 = .instr (.nop at1) ∧
    decodeV at1 0x84000000 = .illegal ∧ decodeM at3 0 0x2C000000 = .illegal := by decide

/-- SlotWords: the second slot of bundle 0 holds a word of an opcode that Table ISA-19 leaves out. -/
theorem test_bundle_words :
    let s := issuing {} (Mem.write [] (imAddr 0 0 + 4) [0, 0, 0, 0x84])
    ((s.core 0).bundleOpen = false ∧ (issuer at3 s).exec = .issuing ∧ (issuer at3 s).bundleStall = [] ∧ (issuer at3 s).bundleFaults = [] ∧
      closesBundle at3 = true ∧ (issuer at3 s).runsOut = false ∧ (opened at3 s).wordFaults 0 0 = [(1, .illegalOp, 0)] ∧
      ((opened at3 s).cell 0).before.fault.code = 0) ∧
    ((after (exec (.nop at3) s)).core 0).fault.slot = 1 ∧ ((after (exec (.nop at3) s)).core 0).fault.code = 1 := by decide +kernel

/-! ## The scalar unit -/

def regsA : Core := withRegs [(1, 0xFFFFFFFF), (2, 33), (3, 0x80000000), (31, 5)]

/-- ScalarResults: hypotheses at registers 0 and 31, and R205's results: wrap, shift by 33 mod 32, signs, MUL's low word. -/
theorem test_scalar_results :
    let s := issuing regsA
    let c := issuer at2 s
    (Issues at2 2 s ∧ c.clashS 31 (c.now + 1) = false ∧ c.clashS 31 (c.now + 3) = false) ∧
    (core0 1 (exec (.add at2 4 1 31) s)).rs 4 = 4 ∧ (core0 1 (exec (.sub at2 4 0 1) s)).rs 4 = 1 ∧
    (core0 1 (exec (.shl at2 4 1 2) s)).rs 4 = 0xFFFFFFFE ∧ (core0 1 (exec (.shr at2 4 3 2) s)).rs 4 = 0x40000000 ∧
    (core0 1 (exec (.sra at2 4 3 2) s)).rs 4 = 0xC0000000 ∧ (core0 1 (exec (.slt at2 4 1 31) s)).rs 4 = 1 ∧
    (core0 1 (exec (.sltu at2 4 1 31) s)).rs 4 = 0 ∧ (core0 3 (exec (.mul at2 4 1 1) s)).rs 4 = 1 ∧
    (core0 2 (exec (.mul at2 4 1 1) s)).rs 4 = 0 := by
  unfold Issues Sits Opens; decide +kernel

/-- R206 with its example: LUI of 0x7100 gives 0x7100_0000; ADDI extends the sign, ORI does not; s0 stays zero. -/
theorem test_scalar_immediates :
    let s := issuing regsA
    (core0 1 (exec (.lui at2 20 0x7100) s)).rs 20 = 0x71000000 ∧ (core0 1 (exec (.addi at2 4 31 0xFFFF) s)).rs 4 = 4 ∧
    (core0 1 (exec (.ori at2 4 0 0x8000) s)).rs 4 = 0x8000 ∧ (core0 1 (exec (.addi at2 0 31 1) s)).rs 0 = 0 ∧
    (core0 1 (exec (.and at2 4 1 31) s)).rs 4 = 5 ∧ (core0 1 (exec (.or at2 4 3 31) s)).rs 4 = 0x80000005 ∧
    (core0 1 (exec (.xor at2 4 1 31) s)).rs 4 = 0xFFFFFFFA := by decide +kernel

/-- ScalarMemoryAndMoves: operands at the edges of data memory, and what LDW, STW, ASET and RDS then do. -/
theorem test_scalar_memory :
    let s := issuing (withRegs [(1, 65532), (2, 0x11223344), (4, 0x100), (5, 0x00020003)]) [(dmAddr 0 65532, 0x44), (dmAddr 0 65535, 0x11)]
    let c := issuer at2 s
    ((s.core 0).exec = .issuing ∧ c.exec = .issuing ∧ Span 65532 4 4 ∧ Free c [(65532, 4)] ∧ c.clashS 3 (c.now + 3) = false ∧
      StoreSpan c 65532 4 4 ∧ c.bundleAddr.contains 7 = false ∧ bitsOf (c.rs1 4 1).toNat 16 16 < bitsOf (c.rs1 4 1).toNat 0 16) ∧
    (core0 3 (exec (.ldw at2 3 1 0) s)).rs 3 = 0x11000044 ∧
    (settle 0 2 (after (exec (.stw at2 2 1 0) s))).dm 0 65532 4 = [0x44, 0x33, 0x22, 0x11] ∧
    ((after (exec (.aset at2 7 4) s)).core 0).a.get 7 = 0x0002000300000100 ∧
    after (exec (.nop at2) s) = slotEnds at2 (opened at2 s) := by
  unfold Span Free StoreSpan Span; decide +kernel

/-- RDS: a code that Table ISA-24 names is readable. -/
theorem test_rds :
    let s := issuing { regsA with turn := 7 }
    let c := issuer at2 s
    (rdsValue (opened at2 s) 0 c 0 = some 0 ∧ c.clashS 3 (c.now + 1) = false) ∧
    (core0 1 (exec (.rds at2 3 0) s)).rs 3 = 0 := by decide +kernel

/-- ScalarResultReadableAtLatency, StoreReadableAfterItsWrite: a core with nothing on its way. -/
theorem test_results_land :
    let s : State := { cores := [(0, { cur := regsA })] }
    ((s.core 0).timeline = [] ∧ s.mem.wf = true) ∧ ((settle 0 1 (s.setCore 0 ((s.core 0).retS 5 9 1))).core 0).rs 5 = 9 ∧
    (settle 0 2 (s.setCore 0 ((s.core 0).store 2 64 [1, 2]))).mem = [(dmAddr 0 64, 1), (dmAddr 0 65, 2)] := by decide +kernel

/-! ## Branches, loops, sections, waits -/

def atPc (n : Nat) (c : Core) : Core := { c with nextPc := n }

/-- BranchesAndLoops: targets at the ends of a bank, a LOOP of count 2 and of count 0, and OVB into the other bank. -/
theorem test_branches :
    let s := issuing (atPc 510 { withRegs [(1, 511), (2, 2)] with nextIssue := 9 })
    let c := issuer at2 s
    (Issues at2 2 s ∧ Issues at3 3 s ∧ (∀ l ∈ c.loops, l.lend ≠ c.pc) ∧ c.bundleMov = false ∧ c.bundleCtl = false ∧
      511 / 512 = c.pc / 512 ∧ (c.rs 1).toNat % 1024 / 512 = c.pc / 512 ∧ branchCond 0 (c.rs 1) (c.rs 2) = some false ∧
      branchCond 1 (c.rs 1) (c.rs 2) = some true ∧ c.pc ≠ 511 ∧ c.pc < 511 ∧ c.loops.length < 3 ∧ 512 / 512 ≠ c.pc / 512 ∧
      (issuer at3 s).ovldInto 1 = false) ∧
    ((after (exec (.b at2 511) s)).core 0).nextPc = 511 ∧ ((after (exec (.b at2 0) s)).core 0).nextIssue = 12 ∧
    ((after (exec (.br at2 1) s)).core 0).nextPc = 511 ∧ ((after (exec (.bc at2 1 1 2 0) s)).core 0).nextPc = 0 ∧
    ((after (exec (.bc at2 0 1 2 0) s)).core 0).nextPc = 511 ∧
    ((after (exec (.loop at2 2 511) s)).core 0).loops = [⟨511, 511⟩] ∧
    ((after (exec (.ovb at3 512) s)).core 0).nextIssue = 49 := by
  unfold Issues Sits Opens; decide +kernel

/-- BranchesAndLoops, LOOP of count 0: the body is passed over, and LEND may not end a bank. -/
theorem test_loop_zero :
    let s := issuing (atPc 10 {})
    let c := issuer at2 s
    (Issues at2 2 s ∧ (c.rs 0).toNat % 65536 = 0 ∧ (20 : Nat) ≠ 511 ∧ (20 : Nat) ≠ 1023) ∧
    ((after (exec (.loop at2 0 20) s)).core 0).nextPc = 21 ∧ ((after (exec (.loop at2 0 20) s)).core 0).loops = [] := by
  unfold Issues Sits Opens; decide +kernel

/-- BundleEndDecidesNext: the last bundle of a level that goes round, of one that closes, and of a bank. -/
theorem test_bundle_end :
    let at_ := fun (n : Nat) (k : BitVec 16) => issuing (atPc n { loops := [⟨3, 9⟩], lc := (Vector.replicate 3 0#16).set 0 k })
    let go := at_ 9 2
    let out := at_ 9 1
    let bank := at_ 511 0
    let c := issuer at2 go
    (Sits at2 2 go ∧ Sits at2 2 out ∧ Sits at2 2 bank ∧ closesBundle at2 = true ∧ c.exec = .issuing ∧ c.jumped = false ∧ c.runsOut = false ∧
      c.loops = [⟨3, 9⟩] ∧ c.lc[0]? = some 2 ∧ (issuer at2 out).lc[0]? = some 1 ∧ (issuer at2 bank).pc = 511 ∧
      (∀ l ∈ (issuer at2 bank).loops, l.lend ≠ 511) ∧ ((opened at2 bank).cell 0).before.fault.code = 0) ∧
    ((after (exec (.nop at2) go)).core 0).nextPc = 3 ∧ ((after (exec (.nop at2) go)).core 0).lc.toList.head? = some 1 ∧
    ((after (exec (.nop at2) out)).core 0).nextPc = 10 ∧ ((after (exec (.nop at2) out)).core 0).loops = [] ∧
    ((after (exec (.nop at2) bank)).core 0).fault.code = 0x10 := by
  unfold Sits Opens; decide +kernel

/-- SectionsAndEnd: a SECT in cycle 2047 starts in frame 1; SECT.AT of a frame passed is LATE; END ends the core's part. -/
theorem test_sections :
    let s := issuing (atPc 510 { withRegs [(1, 3)] with nextIssue := 2047 })
    let c := issuer at2 s
    (Issues at2 2 s ∧ (∀ l ∈ c.loops, l.lend ≠ c.pc) ∧ c.bundleMov = false ∧ c.pc ≠ 511 ∧ c.pc ≠ 1023) ∧
    ((after (exec (.sectNext at2 0 5) s)).core 0).sectNext = some ⟨5, some 2048, false, false, 2047⟩ ∧
    ((after (exec (.sectAt at2 1 5) s)).core 0).sectNext = some ⟨5, some 6144, false, false, 2047⟩ ∧
    ((after (exec (.sectAt at2 0 5) s)).core 0).sectNext = some ⟨5, some 2048, true, false, 2047⟩ ∧
    ((after (exec (.sectBar at2 0 5) s)).core 0).sectNext = some ⟨5, none, false, true, 2047⟩ ∧
    ((after (exec (.endTurn at2) s)).core 0).exec = .atEnd := by
  unfold Issues Sits Opens; decide +kernel

def waitingAt (x : SectNext) : Core := { exec := .atSect, sectNext := some x }

/-- SectionsStart: a section with a known start. -/
theorem test_section_start :
    let x : SectNext := ⟨5, some 4096, true, false, 2047⟩
    let s : State := { cores := [(0, { cur := waitingAt x })] }
    ((s.core 0).exec = .atSect ∧ (s.core 0).sectNext = some x ∧ x.barrier = false ∧ x.start = some 4096) ∧
    ((after (exec (.sectionStart 0) s)).core 0).exec = .issuing ∧ ((after (exec (.sectionStart 0) s)).core 0).sect.startFrame = 2 := by
  decide +kernel

/-- SectionsStart, barrier: the team of one cluster (64 cores), all of them at a SECT.BAR of id 5. -/
theorem test_barrier :
    let x : SectNext := ⟨5, none, false, true, 1600⟩
    let t : Team := { loaded := true }
    let s : State := { cores := t.cores.map (fun n => (n, { cur := waitingAt x })), teams := [(0, t)], clusters := [(0, { team := some 0 })] }
    (x.barrier = true ∧ (s.teamCores 0).Nodup ∧ 0 ∈ s.teamCores 0 ∧ (s.core 0).exec = .atSect ∧ (s.core 0).sectNext = some x) ∧
    (∀ m ∈ s.teamCores 0, (s.core m).exec = .atSect ∧ (s.core m).sectNext = some x) ∧
    ((after (exec (.sectionStart 0) s)).core 0).sect.startFrame = 2 := by decide +kernel

/-- WaitsStopIssue: a queue with nothing posted and a limit of 1. -/
theorem test_wait :
    let s := issuing (withRegs [(3, 1)])
    let c := issuer at3 s
    (Issues at3 3 s ∧ (∀ l ∈ c.loops, l.lend ≠ c.pc) ∧ c.bundleCtl = false ∧ c.pc ≠ 511 ∧ c.pc ≠ 1023 ∧ (2 : Nat) % 2 = 0 ∧
      (c.rs1 2 1).toNat ≠ 0 ∧ (c.rs 2).toNat ≤ (c.dq.get 7).posted) ∧
    ((after (exec (.waitAlign at3 7 2 9) s)).core 0).wait = some ⟨7, 0, 1, true, 9, 0⟩ ∧
    ((after (exec (.waitLoose at3 7 2 0) s)).core 0).sect.loose = true := by
  unfold Issues Sits Opens; decide +kernel

/-- WaitsEnd: a WAIT whose count is reached resumes; one that is not ends in WAIT_TIMEOUT; an interlock lets go. -/
theorem test_wait_ends :
    let c : Core := { exec := .atWait, wait := some ⟨0, 0, 3000, true, 9, 50⟩ }
    let late : Core := { exec := .atWait, wait := some ⟨0, 1, 100, false, 0, 50⟩ }
    let s : State := { cores := [(0, { cur := c }), (1, { cur := late }), (2, { cur := { exec := .interlock, stalledOn := [.tile], backReady := true, backAt := 7 } })] }
    (((c.dq[0]?).getD ({} : DmaQueue)).done ≥ 0 ∧ ((late.dq[0]?).getD ({} : DmaQueue)).done < 1 ∧ (s.core 2).exec = .interlock) ∧
    ((after (exec (.waitResume 0 2048) s)).core 0).sect.startFrame = 2 ∧
    ((after (exec (.waitTimeout 1) s)).core 1).fault.code = 0x15 ∧
    ((after (exec (.looseInterlockRelease 2 7) s)).core 2).stall = 7 := by decide +kernel

/-- InterlockHoldsBundle: a LDW of bytes that a VLD in the vault port's queue will write, in a loose section; a WAIT whose count came too
late. -/
theorem test_interlock :
    let s := issuing { withRegs [(1, 64)] with sect := { loose := true }, vq := [⟨.load false, [⟨3, [(0, 64, 32)]⟩], 0, 3⟩] }
    let late : State := { cores := [(0, { cur := { exec := .atWait, wait := some ⟨0, 0, 100, false, 0, 50⟩ } })] }
    let c := issuer at2 s
    (Sits at2 2 s ∧ closesBundle at2 = true ∧ c.sect.loose = true ∧ c.awaits [((c.rs 1 + (0#16).signExtend 32).toNat, 4)] ≠ [] ∧
      (late.core 0).exec = .atWait) ∧
    ((after (exec (.ldw at2 3 1 0) s)).core 0).exec = .interlock ∧ ((after (exec (.ldw at2 3 1 0) s)).core 0).timeline = [] ∧
    ((after (exec (.waitResume 0 101) late)).core 0).fault.code = 0x15 ∧ ((after (exec (.waitResume 0 100) late)).core 0).exec = .issuing := by
  unfold Sits Opens; decide +kernel

/-! ## The bundle -/

/-- WrongSlotSuppressesBundle: an ADD in slot 0. -/
theorem test_wrong_slot :
    let s := issuing regsA
    (slotOf (.add at0 4 1 1) = some (at0, 2) ∧ at0.slot.toNat ≠ 2 ∧ (s.core 0).exec = .issuing ∧ (issuer at0 s).exec = .issuing) ∧
    ((after (exec (.add at0 4 1 1) s)).core 0).fault.code = 1 ∧ ((after (exec (.add at0 4 1 1) s)).core 0).exec = .halted ∧
    ((after (exec (.add ⟨0, 0, true, false⟩ 4 1 1) s)).core 0).bundleFaults = [(0, .illegalOp, 0)] := by decide +kernel

/-- SlotInstructionFrame: a STW answers a next state, and it is no GET, PUT or BDEC. -/
theorem test_frame :
    let s := issuing regsA
    slotOf (.stw at2 2 0 0) = some (at2, 2) ∧ exec (.stw at2 2 0 0) s = .next (after (exec (.stw at2 2 0 0) s)) ∧
    (after (exec (.stw ⟨0, 2, false, true⟩ 2 0 0) { s with cores := [(0, { cur := { regsA with exec := .issuing, bundleOpen := true } })] })).mem = [] :=
  ⟨rfl, rfl, by decide⟩

/-! ## The vector unit -/

/-- A core with vector registers set. -/
def withVecs (l : List (BitVec 4 × (Fin 32 → Word))) : Core := l.foldl (fun c p => c.writeV p.1 (Vector.ofFn p.2)) {}

/-- Lane `k` of a vector register in cycle `cyc` after a command. -/
def lane (cyc : Nat) (v : BitVec 4) (k : Fin 32) (o : Host.Outcome State Fault Refusal) : Word := ((core0 cyc o).rv v).get k

/-- 1.0 in lane 0, 2.0 in lane 1, poison in lane 2, 3.0 elsewhere; 2.0 everywhere. -/
def vecsFp : Core := withVecs [(1, fun k => if k = 0 then 0x3F800000 else if k = 1 then 0x40000000 else if k = 2 then 0x7FC10000 else 0x40400000),
  (2, fun _ => 0x40000000)]

/-- 0x7FFFFFFF in lane 0, -1 in lane 1, 5 elsewhere; the lane's number. -/
def vecsInt : Core := withVecs [(1, fun k => if k = 0 then 0x7FFFFFFF else if k = 1 then 0xFFFFFFFF else 5), (2, fun k => BitVec.ofNat 32 (k.val + 31))]

/-- VectorArithmetic in FP32 and BF16: 1 + 2, 1 × 2, 1 × 2 + 3, poison stays poison. -/
theorem test_vector_fp :
    let s := issuing vecsFp
    let c := issuer at1 s
    (Issues at1 1 s ∧ c.vecFree ≤ c.now ∧ c.clashV 15 (c.now + 4) = false) ∧
    lane 4 15 0 (exec (.vadd at1 ⟨15, 1, 2, 0, 0, 0⟩) s) = 0x40400000 ∧ lane 4 15 2 (exec (.vadd at1 ⟨15, 1, 2, 0, 0, 0⟩) s) = 0x7FC10000 ∧
    lane 4 15 0 (exec (.vsub at1 ⟨15, 1, 2, 0, 0, 0⟩) s) = 0xBF800000 ∧ lane 4 15 0 (exec (.vmul at1 ⟨15, 1, 2, 0, 1, 0⟩) s) = 0x40000000 ∧
    lane 4 15 1 (exec (.vmax at1 ⟨15, 1, 2, 0, 0, 0⟩) s) = 0x40000000 ∧ lane 4 15 0 (exec (.vmin at1 ⟨15, 1, 2, 0, 0, 0⟩) s) = 0x3F800000 ∧
    lane 4 15 3 (exec (.vfma at1 ⟨15, 1, 2, 1, 0, 0⟩) s) = 0x41100000 ∧ lane 3 15 0 (exec (.vadd at1 ⟨15, 1, 2, 0, 0, 0⟩) s) = 0 := by
  unfold Issues Sits Opens; decide +kernel

/-- VectorArithmetic and VectorIntegers in INT32: wrapping, saturating, and shifts by 31 and by 32 mod 32. -/
theorem test_vector_int :
    let s := issuing vecsInt
    let c := issuer at1 s
    (Issues at1 1 s ∧ c.vecFree ≤ c.now ∧ c.clashV 15 (c.now + 2) = false) ∧
    lane 2 15 0 (exec (.vadd at1 ⟨15, 1, 1, 0, 2, 0⟩) s) = 0xFFFFFFFE ∧ lane 2 15 0 (exec (.vadds at1 ⟨15, 1, 1, 0, 2, 0⟩) s) = 0x7FFFFFFF ∧
    lane 2 15 1 (exec (.vsubs at1 ⟨15, 1, 2, 0, 2, 0⟩) s) = 0xFFFFFFDF ∧ lane 2 15 1 (exec (.vand at1 ⟨15, 1, 2, 0, 2, 0⟩) s) = 32 ∧
    lane 2 15 2 (exec (.vor at1 ⟨15, 1, 2, 0, 2, 0⟩) s) = 37 ∧ lane 2 15 2 (exec (.vxor at1 ⟨15, 1, 2, 0, 2, 0⟩) s) = 36 ∧
    lane 2 15 0 (exec (.vshl at1 ⟨15, 1, 2, 0, 2, 0⟩) s) = 0x80000000 ∧ lane 2 15 1 (exec (.vshr at1 ⟨15, 1, 2, 0, 2, 0⟩) s) = 0xFFFFFFFF := by
  unfold Issues Sits Opens; decide +kernel

/-- VectorCompareSelectConvert: equal, signed less than, a poison lane, select, conversions, EXP of 0 and RELU of a negative number. -/
theorem test_vector_compare :
    let s := issuing vecsInt
    let f := issuing vecsFp
    let c := issuer at1 s
    (Issues at1 1 s ∧ Issues at1 1 f ∧ c.vecFree ≤ c.now ∧ c.clashV 15 (c.now + 2) = false ∧ c.clashV 15 (c.now + 4) = false ∧
      c.clashV 15 (c.now + 8) = false ∧ tableFnOf 5 = some .exp ∧ tableFnOf 10 = some .rsqrt ∧ tableSpecial .exp 0x42B17217 = some 0x7F800000) ∧
    lane 2 15 1 (exec (.vcmp at1 ⟨15, 1, 2, 0, 2, 1⟩) s) = 0xFFFFFFFF ∧ lane 2 15 0 (exec (.vcmp at1 ⟨15, 1, 1, 0, 2, 3⟩) s) = 0 ∧
    lane 4 15 2 (exec (.vcmp at1 ⟨15, 1, 2, 0, 0, 0⟩) f) = 0x80000000 ∧ (core0 4 (exec (.vcmp at1 ⟨15, 1, 2, 0, 0, 0⟩) f)).fmtPend.poison = 1 ∧
    lane 4 15 1 (exec (.vcmp at1 ⟨15, 1, 2, 0, 0, 2⟩) f) = 0xFFFFFFFF ∧ lane 2 15 0 (exec (.vsel at1 ⟨15, 1, 2, 3, 2, 0⟩) s) = 31 ∧
    lane 4 15 3 (exec (.vcvt at1 ⟨15, 1, 0, 0, 0, 2⟩) f) = 3 ∧ lane 4 15 2 (exec (.vcvt at1 ⟨15, 1, 0, 0, 0, 2⟩) f) = 0x80000000 ∧
    lane 4 15 1 (exec (.vcvt at1 ⟨15, 1, 0, 0, 0, 3⟩) s) = 0xBF800000 ∧ lane 4 15 2 (exec (.vcvt at1 ⟨15, 1, 0, 0, 0, 0⟩) s) = 0 ∧
    lane 8 15 0 (exec (.vfn at1 ⟨15, 3, 0, 0, 0, 5⟩) s) = 0x3F800000 ∧ lane 8 15 1 (exec (.vfn at1 ⟨15, 1, 0, 0, 0, 1⟩) f) = 0x40000000 := by
  unfold Issues Sits Opens; decide +kernel

/-- VectorMoves: an LDV and an STV at the last 128 and 64 bytes of data memory; VBCS and VEXT. -/
theorem test_vector_moves :
    let c0 := { vecsInt with a := (vecsInt.a.set 0 0x00040000FF80).set 1 0x00020000FFC0 }
    let s := issuing (c0.writeS 9 0x1234) [(dmAddr 0 0xFF80, 7), (dmAddr 0 0xFFC0, 9)]
    let c := issuer at1 s
    (Issues at1 1 s ∧ c.vecFree ≤ c.now ∧ c.bundleAddr.contains 0 = false ∧ c.clashV 15 (c.now + 3) = false ∧ c.clashV 15 (c.now + 2) = false ∧
      c.clashS 31 (c.now + 2) = false ∧ Span (addrOf (c.ra 0)) 128 4 ∧ Free c [(addrOf (c.ra 0), 128)] ∧ Span (addrOf (c.ra 1)) 64 2 ∧
      Free c [(addrOf (c.ra 1), 64)] ∧ StoreSpan c (addrOf (c.ra 0)) 128 4 ∧ StoreSpan c (addrOf (c.ra 1)) 64 2) ∧
    lane 3 15 0 (exec (.ldv at1 15 0 false) s) = 7 ∧ lane 3 15 0 (exec (.ldv at1 15 1 true) s) = 0x90000 ∧
    (settle 0 2 (after (exec (.stv at1 1 0 false) s))).dm 0 0xFF80 5 = [0xFF, 0xFF, 0xFF, 0x7F, 0xFF] ∧
    (settle 0 2 (after (exec (.stv at1 1 1 true) s))).dm 0 0xFFC0 4 = [0xFF, 0x7F, 0xFF, 0xFF] ∧
    lane 2 15 31 (exec (.vbcs at1 15 9) s) = 0x1234 ∧ (core0 2 (exec (.vext at1 31 2 31) s)).rs 31 = 62 := by
  unfold Issues Sits Opens StoreSpan Span Free; decide +kernel

/-- VectorReductions: SUM, MAX, MIN and ARGMAX of integers, SUM of FP32 lanes. -/
theorem test_vector_reductions :
    let s := issuing vecsInt
    let f := issuing (withVecs [(1, fun _ => 0x3F800000)])
    let c := issuer at1 s
    (Issues at1 1 s ∧ Issues at1 1 f ∧ c.vecFree ≤ c.now ∧ c.clashV 15 (c.now + 6) = false ∧ c.clashV 15 (c.now + 12) = false ∧
      ((issuer at1 f).rv 1).toList.any isPoison = false) ∧
    lane 6 15 0 (exec (.vred at1 ⟨15, 1, 0, 0, 2, 0⟩) s) = 0x80000094 ∧ lane 6 15 0 (exec (.vred at1 ⟨15, 1, 0, 0, 2, 1⟩) s) = 0x7FFFFFFF ∧
    lane 6 15 0 (exec (.vred at1 ⟨15, 1, 0, 0, 2, 2⟩) s) = 0xFFFFFFFF ∧ lane 6 15 1 (exec (.vred at1 ⟨15, 2, 0, 0, 2, 3⟩) s) = 31 ∧
    lane 12 15 0 (exec (.vred at1 ⟨15, 1, 0, 0, 0, 0⟩) f) = 0x42000000 ∧ lane 12 15 0 (exec (.vred at1 ⟨15, 1, 0, 0, 0, 1⟩) f) = 0x3F800000 ∧
    lane 12 15 0 (exec (.vred at1 ⟨15, 1, 0, 0, 0, 2⟩) f) = 0x3F800000 := by
  unfold Issues Sits Opens; decide +kernel

/-- VectorTrits: quint 242 is five trits of +1; codes 00, 01 and 11; VPKT of -1, 0 and 1. -/
theorem test_vector_trits :
    let s := issuing (withVecs [(1, fun k => if k = 0 then 0xF2F2F2F2 else if k = 1 then 0xF2F2F2F2 else 0),
      (2, fun k => if k = 0 then 13 else 0), (3, fun k => if k = 0 then 0xFFFFFFFF else if k = 17 then 1 else 0)])
    let c := issuer at1 s
    (Issues at1 1 s ∧ c.vecFree ≤ c.now ∧ c.clashV 15 (c.now + 2) = false ∧
      (∀ k < 7, ((laneBytes (c.rv 1)).getD (7 * 0 + k) 0#8).toNat < 243) ∧
      (∀ k < 7, ((laneBytes (c.rv 1)).getD (7 * 17 + k) 0#8).toNat < 243) ∧
      (∀ k : Fin 32, bitsOf (leNat ((laneBytes (c.rv 2)).take 8)) (2 * k.val) 2 ≠ 2)) ∧
    lane 2 15 4 (exec (.vunq at1 ⟨15, 1, 0, 0, 0, 0⟩) s) = 1 ∧ lane 2 15 31 (exec (.vunq at1 ⟨15, 1, 0, 0, 0, 17⟩) s) = 0xFFFFFFFF ∧
    lane 2 15 0 (exec (.vutp at1 ⟨15, 2, 0, 0, 0, 0⟩) s) = 1 ∧ lane 2 15 1 (exec (.vutp at1 ⟨15, 2, 0, 0, 0, 0⟩) s) = 0xFFFFFFFF ∧
    lane 2 15 2 (exec (.vutp at1 ⟨15, 2, 0, 0, 0, 0⟩) s) = 0 ∧ lane 2 15 0 (exec (.vpkt at1 ⟨15, 3, 0, 0, 0, 0⟩) s) = 3 ∧
    lane 2 15 1 (exec (.vpkt at1 ⟨15, 3, 0, 0, 0, 0⟩) s) = 4 := by
  unfold Issues Sits Opens; decide +kernel

/-- EncodedBlockIsWritten: a compact block of 32 lanes of 1.0 at w = 4 is written with its exponent; a block of NaN is poison. -/
theorem test_venc_write :
    let j : VencJob := ⟨List.replicate 32 0x3F800000, 0, 64, 4, 0, false, true, 0, 0, 0, 0, 15⟩
    let s : State := { cores := [(0, { cur := { vencs := [j] } })] }
    (s.core 0).vencs = [j] ∧ ((after (exec (.vencWrite 0) s)).core 0).vencs = [] ∧
    ((settle 0 16 (after (exec (.vencWrite 0) s))).dm 0 64 17).head? = some 0x7D ∧
    ((settle 0 16 (after (exec (.vencWrite 0)
      { cores := [(0, { cur := { vencs := [{ j with xs := List.replicate 32 0x7FC10000 }] } })] }))).dm 0 64 1) = [0xFF] := by
  decide +kernel

/-- EtchEncodeAndDecode: a VENC of a compact block and a VDEC of a full block of zero. -/
theorem test_venc_vdec :
    let s := issuing (withRegs [(4, 0x00830040), (6, 65516)])
    let c := issuer at1 s
    (Issues at1 1 s ∧ c.vecFree ≤ c.now ∧ bitOf (c.rs 4).toNat 23 = true ∧ StoreSpan c (bitsOf (c.rs 4).toNat 0 16) 17 1 ∧
      Span (bitsOf (c.rs 6).toNat 0 16) 20 4 ∧ Free c [(65516, 20)] ∧ c.clashV 15 (c.now + 8) = false) ∧
    ((after (exec (.venc at1 ⟨0, 1, 0, 0, 0, 4⟩) s)).core 0).vencs.map VencJob.writeEnd = [15] ∧
    ((after (exec (.venc at1 ⟨0, 1, 0, 0, 0, 4⟩) s)).core 0).vecFree = 4 ∧ lane 8 15 0 (exec (.vdec at1 15 6 3 false false) s) = 0 := by
  unfold Issues Sits Opens StoreSpan Span Free; decide +kernel

/-! ## The plane engine and the dice bank -/

/-- TileLoadsAndSwap: MODE at w = 8 and k = 5, a TLD of the last plain tile of a vault, a TLDM of the last 512 bytes, a TSW. -/
theorem test_tiles :
    let s := issuing { withRegs [(1, 16776806), (2, 65024)] with back := some Tile.zero, backReady := true }
    let c := issuer at0 s
    (Issues at0 0 s ∧ c.engFree ≤ c.now ∧ (∀ g : Fin 8, (c.groups.get g).st ≠ .opened) ∧ (c.rs 1).toNat % 16777216 + 410 ≤ 16777216 ∧
      c.vq.length < 8 ∧ c.outstandingAt c.now < 2 ∧ c.vq = [] ∧ Span 65024 512 16 ∧ Free c [(65024, 512)] ∧ c.backReady = true ∧
      c.presenting ≤ c.now) ∧
    ((after (exec (.mode at0 7 5 2) s)).core 0).mode = ⟨8, 5, 2⟩ ∧ ((after (exec (.mode at0 0 1 0) s)).core 0).nextIssue = 6 ∧
    ((after (exec (.tld at0 1 0 0) s)).core 0).vq.map (fun r => r.lines.length) = [13] ∧
    ((after (exec (.tld at0 0 1 4) s)).core 0).vq.map (fun r => r.lines.length) = [64] ∧
    ((after (exec (.tldm at0 2 false) s)).core 0).tiles.map TileLoad.readyAt = [20] ∧
    ((after (exec (.tsw at0) s)).core 0).front = some Tile.zero := by
  unfold Issues Sits Opens Span Free; decide +kernel

def readyTile (bytes : List Byte) : TileLoad := ⟨0, .quint 0, 0, bytes, [], false, true, 9, none, none, 0, 0, false, false, false⟩

/-- ReadyTileGoesToBackBuffer: into the empty buffer; a full one raises TILE_ORDER, but waits where a bundle of the ready cycle may still
swap and in a loose section; a pair code 0b10 raises FMT_CODE. -/
theorem test_tile_ready :
    let ld := readyTile (List.replicate 410 0x79)
    let c : Core := { exec := .issuing, tiles := [ld], nextIssue := 20 }
    let pairs : TileLoad := { ld with kind := .pairs false }
    let s : State := { cores := [(0, { cur := c }), (1, { cur := { c with backReady := true } }),
      (2, { cur := { c with tiles := [pairs], caps := [(0, List.replicate 512 2)] } }),
      (3, { cur := { c with backReady := true, nextIssue := 9 } }), (4, { cur := { c with backReady := true, sect := { loose := true } } })] }
    ((s.core 0).nextReady = some ld ∧ (s.core 0).bundleOpen = false ∧ (s.core 0).nextCycle = some 20 ∧ finishTile c ld = some (Tile.zero, false) ∧
      finishTile (s.core 2) pairs = none ∧ (s.core 1).backReady = true ∧ (s.core 1).sect.startFrame * 2048 ≤ ld.readyAt) ∧
    ((after (exec (.tileReady 0) s)).core 0).back = some Tile.zero ∧ ((after (exec (.tileReady 1) s)).core 1).fault.code = 4 ∧
    ((after (exec (.tileReady 2) s)).core 2).fault.code = 3 ∧ ((after (exec (.tileReady 3) s)).core 3).tiles.map TileLoad.due = [true] ∧
    ((after (exec (.tileReady 4) s)).core 4).tiles.map TileLoad.due = [true] := by decide +kernel

/-- Lists of one entry at the end of data memory, and one out of order. -/
def goodOvf : List Byte := [1] ++ List.replicate 7 0 ++ [0x80, 0x3F, 2] ++ List.replicate 509 0
def badOvf : List Byte := [2] ++ List.replicate 519 0

def listState : State :=
  { cores := [(0, { cur := { xld := some ⟨0, 0, 16, 5⟩, caps := [(0, goodOvf)] } }),
      (1, { cur := { exec := .issuing, xld := some ⟨0, 0, 16, 5⟩, caps := [(0, badOvf)] } }),
      (2, { cur := { cld := some ⟨0, 4, 4, 5⟩, caps := [(0, [1, 0, 3, 0])] } }),
      (3, { cur := { exec := .issuing, cld := some ⟨0, 3, 4, 5⟩, caps := [(0, [1, 0, 3, 0])] } })] }

/-- ListLoads: an XLD and a CLD that read the last bytes of data memory. -/
theorem test_lists :
    let s := issuing (withRegs [(1, 65016), (2, 65406)])
    let c := issuer at0 s
    (Issues at0 0 s ∧ c.engFree ≤ c.now ∧ Span 65016 520 8 ∧ Free c [(65016, 520)] ∧ Span 65406 130 2 ∧ Free c [(65406, 130)]) ∧
    ((after (exec (.xld at0 1) s)).core 0).engFree = 17 ∧ ((after (exec (.cld at0 2) s)).core 0).engFree = 5 := by
  unfold Issues Sits Opens Span Free; decide +kernel

/-- ListFormats, and the lists that complete. -/
theorem test_list_formats :
    readOvfList goodOvf = some [⟨0x3F80, 2, 0⟩] ∧ readOvfList badOvf = none ∧ readChanList [1, 0, 3, 0] 4 = some [3] ∧
    readChanList [1, 0, 3, 0] 3 = none ∧
    ((after (exec (.xldComplete 0) listState)).core 0).xtab.length = 1 ∧ ((after (exec (.xldComplete 1) listState)).core 1).fault.code = 3 ∧
    ((after (exec (.cldComplete 2) listState)).core 2).ctab = [3] ∧ ((after (exec (.cldComplete 3) listState)).core 3).exec = .halted := by
  decide +kernel

/-- A tile whose input 0 has weight +1 for output 0, and an open group of one row. -/
def plnCore : Core :=
  { front := some ⟨1, 0, false⟩
    groups := (Vector.replicate 8 ({} : Group)).set 3 { st := .opened, rowBase := 5, rowCount := 1, mask := 2 ^ 64 - 1, n := 1, w := 4, k := 1 } }

/-- PlnPresents: one vector in the last row of its group, with the last descriptor of its budget. -/
theorem test_pln :
    let s := issuing plnCore
    let c := issuer at0 s
    let gr := c.groups.get 3
    (Issues at0 0 s ∧ c.engFree ≤ c.now ∧ (∀ a ∈ (takeAddrs 1 (c.ra 0)).1, Span a 20 4) ∧
      Free c ((takeAddrs 1 (c.ra 0)).1.map (fun a => (a, 20))) ∧ gr.st = .opened ∧ 0 + 1 ≤ gr.rowCount ∧ gr.nb < gr.n ∧
      gr.busyUntil ≤ c.now ∧ c.front = some ⟨1, 0, false⟩ ∧ c.bundleAddr.contains 0 = false) ∧
    ((after (exec (.pln at0 3 0 0 0 0 false false false) s)).core 0).plns.flatMap (fun j => j.vecs.map (fun v => (v.row, v.writeEnd))) = [(5, 5)] ∧
    (((after (exec (.pln at0 3 0 0 0 0 false false false) s)).core 0).groups.get 3).nb = 1 := by
  unfold Issues Sits Opens Span Free; decide +kernel

/-- PlnRowIsWritten: a poison block marks its row; a zero block does not. -/
theorem test_pln_row :
    let job := fun (tag : Nat) => (⟨3, ⟨1, 0, false⟩, 4, 1, false, false, 0, [], [], [⟨5, 0, tag, 5⟩]⟩ : PlnJob)
    let c := { plnCore with caps := [(0, zeroBytes 20), (1, 0xFF#8 :: zeroBytes 19)] }
    let s : State := { cores := [(0, { cur := { c with plns := [job 0] } }), (1, { cur := { c with plns := [job 1] } })] }
    (popVec (s.core 0).plns = some (job 0, ⟨5, 0, 0, 5⟩, []) ∧ popVec (s.core 1).plns = some (job 1, ⟨5, 0, 1, 5⟩, [])) ∧
    (((after (exec (.plnRowWrite 0) s)).core 0).accRow 5).poison = false ∧
    (((after (exec (.plnRowWrite 1) s)).core 1).accRow 5).poison = true ∧ ((after (exec (.plnRowWrite 0) s)).core 0).plns = [] := by
  decide +kernel

/-- DiceBank: an SLD of the last 16 bytes of data memory into entry 63, a DRAW with the team seed and one with that entry. -/
theorem test_dice :
    let s := issuing { withRegs [(1, 65520)] with seeds := [(63, 5)] } [(dmAddr 0 65520, 9)]
    let c := issuer at0 s
    (Issues at0 0 s ∧ c.diceFree ≤ c.now ∧ Span 65520 16 16 ∧ Free c [(65520, 16)] ∧ c.clashV 15 (c.now + 12) = false ∧
      find? c.seeds 63 = some 5) ∧
    ((after (exec (.sld at0 63 1) s)).core 0).seeds = [(63, 9)] ∧
    ((after (exec (.draw at0 0 false false 0 2 15) s)).core 0).drawCnt = 32 ∧
    lane 12 15 1 (exec (.draw at0 63 true false 0 2 15) s) = BitVec.ofNat 32 (rollValue 5 0 0 0 1) := by
  unfold Issues Sits Opens Span Free; decide +kernel


/-! ## Groups, the epilogue -/

/-- GroupOpens: a group of one row, the last, whose record ends at the top of data memory, with the largest spill interval. -/
theorem test_gopn :
    let s := issuing (withRegs [(4, 63 + 64 + 0x1FE0000), (5, 65520 * 65536 + 7), (6, 0), (7, 0)])
    let s1 := issuing (withRegs [(4, 63 + 64 + 0x1FE0000), (5, 65504 * 65536 + 7), (6, 5), (7, 0)])
    let c := issuer at0 s1
    (Issues at0 0 s1 ∧ c.grpFree ≤ c.now ∧ (4 : BitVec 5).toNat % 4 = 0 ∧ 65504 + 28 ≤ 65536 ∧ c.resTop ≤ 65504 ∧
      256 ≤ nMax c.mode.w c.mode.k 0 ∧ (c.groups.get 3).st = .closed ∧ c.rowsTaken 3 63 1 = false) ∧
    (coreOf (exec (.gopn at0 3 4) s1)).groups.get 3 = { st := .opened, rowBase := 63, rowCount := 1, mask := 5, n := 256, roll := 7, recAddr := 65504
                                                        w := 4, k := 1, openAt := 2 } ∧
    (coreOf (exec (.gopn at0 3 4) s1)).grpFree = 2 ∧ (coreOf (exec (.gopn at0 3 4) s)).fault.code = 2 := by
  unfold Issues Sits Opens; decide +kernel

/-- A core with group 3 in a state. -/
def grpCore (st : GroupSt) : Core :=
  { groups := (Vector.replicate 8 ({} : Group)).set 3 { st := st, rowBase := 5, rowCount := 2, mask := 2, n := 1, w := 4, k := 1, empty := false
                                                        recAddr := 64 }
    acc := [(5, { cols := [0, 9] ++ List.replicate 62 0 })] }

/-- GroupsSpillReloadClose: spill with FREE and without, reset, reload, close. -/
theorem test_groups :
    let s := issuing (grpCore .opened)
    let z := issuing (grpCore .suspended)
    let c := issuer at0 s
    let x := issuer at0 z
    (Issues at0 0 s ∧ Issues at0 0 z ∧ c.grpFree ≤ c.now ∧ c.plnPending 3 = false ∧ x.rowsTaken 3 5 2 = false ∧
      (x.groups.get 3).w = x.mode.w ∧ (x.groups.get 3).k = x.mode.k) ∧
    ((coreOf (exec (.gspl at0 3 true) s)).groups.get 3).st = .suspended ∧ ((coreOf (exec (.gspl at0 3 false) s)).groups.get 3).st = .opened ∧
    ((coreOf (exec (.gspl at0 3 false) s)).groups.get 3).recHeld = true ∧ (coreOf (exec (.gspl at0 3 true) s)).grpFree = 10 ∧
    (settle 0 10 (after (exec (.gspl at0 3 true) s))).dm 0 80 6 = [9, 0, 0, 0, 0, 0] ∧
    ((coreOf (exec (.gresReset at0 3) z)).groups.get 3).st = .opened ∧ ((coreOf (exec (.gresReset at0 3) z)).groups.get 3).empty = true ∧
    ((coreOf (exec (.gresReload at0 3) z)).groups.get 3).st = .opened ∧ (coreOf (exec (.gresReload at0 3) z)).grpFree = 10 ∧
    ((coreOf (exec (.gcls at0 3) s)).groups.get 3).st = .closed ∧ (coreOf (exec (.gcls at0 3) s)).acc.length = 1 := by
  unfold Issues Sits Opens; decide +kernel

/-- EpilogueRuns: an EPI of a group of two rows, then its row writes; the last one closes the group. -/
theorem test_epi :
    let w : EpiWord := ⟨3, 8, true, false, 0, 0, 0, false, false, 0, false, 0⟩
    let desc := leBytes 64 (1024 + 256 * 65536 + 65280 * 4294967296)
    let s : State := issuing { grpCore .opened with s := (withRegs [(8, 512)]).s } [(dmAddr 0 513, 4), (dmAddr 0 515, 1), (dmAddr 0 517, 255)]
    let c := issuer at1 s
    let d := epiDescOf desc
    let t := after (exec (.epi at1 w) s)
    let t1 := after (exec (.epiRowWrite 0) t)
    let t2 := after (exec (.epiRowWrite 0) t1)
    (Issues at1 1 s ∧ (opened at1 s).dm 0 512 64 = desc ∧ c.vecFree ≤ c.now ∧ c.grpFree ≤ c.now ∧ Span 512 64 16 ∧ d.reservedZero = true ∧
      d.outAddr = 1024 ∧ d.outStride = 256 ∧ d.scaleAddr = 65280 ∧ StoreSpan c 1280 256 4 ∧ Span 65280 256 4 ∧ Free c [(512, 64), (65280, 256)] ∧
      c.plnPending 3 = false ∧ (t.core 0).epi.map EpiJob.nextRow = some 0 ∧ (t1.core 0).epi.map EpiJob.nextRow = some 1) ∧
    (t.core 0).vecFree = 18 ∧ ((t.core 0).groups.get 3).busyUntil = 18 ∧ ((t1.core 0).groups.get 3).st = .opened ∧
    ((t1.core 0).groups.get 3).rseq = 1 ∧ (t2.core 0).epi = none ∧ ((t2.core 0).groups.get 3).st = .closed := by
  unfold Issues Sits Opens Free StoreSpan Span; decide +kernel

/-! ## The vault port and the walker -/

/-- A core with transfers of the vault's last line and an overlay load of two bundles in its registers; one with a plate walk. -/
def vaultUser : State := issuing (withRegs [(4, 16777184), (5, 65504), (6, 0x20000000), (7, 2)])
def plateUser : State := issuing (withRegs [(4, 64 + 1024 * 65536), (5, 4096)]) [(dmAddr 0 67, 5), (dmAddr 0 68, 1)]

/-- VaultRequestsQueue: transfers of the vault's last line, an overlay load of two bundles. -/
theorem test_vault_requests :
    let c := issuer at3 vaultUser
    (Issues at3 3 vaultUser ∧ c.vq.length < 8 ∧ 16777184 % 32 = 0 ∧ 16777184 + 32 ≤ 16777216 ∧ StoreSpan c 65504 32 32 ∧
      Span 65504 32 32 ∧ Free c [(65504, 32)] ∧ ((opened at3 vaultUser).teamRec 0).loadArea = [] ∧ c.pc < 1024 ∧ c.ovldInto 1 = false) ∧
    (coreOf (exec (.vld at3 4) vaultUser)).vq = [⟨.load false, [⟨524287, [(0, 65504, 32)]⟩], 0, 3⟩] ∧
    (coreOf (exec (.vst at3 4) vaultUser)).vq = [⟨.store, [⟨524287, [(0, 65504, 32)]⟩], 0, 3⟩] ∧
    (coreOf (exec (.ovld at3 6) vaultUser)).vq = [⟨.overlay, [⟨0, [(0, 8192, 32)]⟩], 0, 3⟩] := by
  unfold Issues Sits Opens Free StoreSpan Span; decide +kernel

/-- VaultRequestsQueue: a plate walk of one token. -/
theorem test_plate_walk :
    let x := issuer at3 plateUser
    let e := mapEntryOf ((opened at3 plateUser).dm 0 64 16)
    (Issues at3 3 plateUser ∧ x.walkFree ≤ x.now ∧ (pwkArgs x 4).ntok = 1 ∧ (pwkArgs x 4).t0 = 0 ∧ (pwkArgs x 4).map = 64 ∧ Span 64 16 16 ∧
      Free x [(64, 16)] ∧ e.wher = 1 ∧ e.resvd = false ∧ e.log2n = 5 ∧ (pwkArgs x 4).part ≤ fmtParts x.pwkFmt.toNat ∧ e.voff % 32 = 0 ∧
      StoreSpan x 1024 (runBytes x.pwkFmt.toNat e.kvw 0 1) 4) ∧
    (coreOf (exec (.pwk at3 0 false 4) plateUser)).vq.length = 1 ∧ (coreOf (exec (.pwk at3 0 false 4) plateUser)).walkStatus = 1 ∧
    (coreOf (exec (.pwk at3 0 false 4) plateUser)).pwkTokCnt = 1 := by
  unfold Issues Sits Opens Free StoreSpan Span; decide +kernel

/-- VaultLineIsServed: a load outside the refresh window, a poisoned line, a store. -/
theorem test_vault_served :
    let s : State := { cores := [(0, { cur := { vq := [⟨.load false, [⟨3, [(0, 64, 32)]⟩], 0, 3⟩] } }),
      (1, { cur := { vq := [⟨.store, [⟨3, [(0, 64, 32)]⟩], 0, 3⟩] } })], vpoison := [poisonKey 0 3], mem := [(96, 8), (dmAddr 1 64, 9)] }
    let u : State := { s with vpoison := [] }
    (portCycle 0 = 64 ∧ portCycle 2047 = 2047 ∧ s.poisoned 0 3 = true ∧ u.poisoned 0 3 = false ∧ s.mem.wf = true) ∧
    (coreOf (exec (.vaultLineServed 0 {}) u)).portNext = 65 ∧ (coreOf (exec (.vaultLineServed 0 {}) u)).vq = [] ∧
    (settle 0 67 (after (exec (.vaultLineServed 0 {}) u))).dm 0 64 1 = [8] ∧
    (coreOf (exec (.vaultLineServed 0 {}) s)).vltUe = 1 ∧ (coreOf (exec (.vaultLineServed 0 ⟨[(0, 1), (1, 1)], 0⟩) u)).ueLines = [3] ∧
    (after (exec (.vaultLineServed 1 {}) s)).mem.read (vaultBase 1 + 96) 1 = [9] := by decide +kernel

/-! ## The static mesh -/

/-- MeshSend, MeshBroadcast and MeshReduce from corner cores of a team. -/
theorem test_mesh_sends :
    let s := onTeam 0 (withRegs [(4, 65504 * 65536 + 65504), (5, 0x00000707), (6, 65504 * 65536 + 65504), (7, 0x00000700)])
    let z := onTeam 449 (withRegs [(6, 65504 * 65536 + 65504), (7, 0x00000100)])
    let j : Issue := ⟨449, 3, true, true⟩
    let c := issuer at3 s
    let beats := fun (o : Host.Outcome State Fault Refusal) => (after o).mesh.beats.map (fun b => (b.dst, b.arrive))
    (Issues at3 3 s ∧ Issues j 3 z ∧ c.meshFree ≤ c.now ∧ (meshArgs c 4).beats = 1 ∧ Span 65504 32 32 ∧ StoreSpan c 65504 32 32 ∧
      c.sect.loose = false ∧ ((opened at3 s).teamRec 0).width = 8 ∧ teamX ((opened j z).teamRec 449) 449 = 1) ∧
    beats (exec (.msnd at3 4) s) = [(455, 30)] ∧ (beats (exec (.mbc at3 6 false) s)).length = 7 ∧
    (7, 16) ∈ beats (exec (.mbc at3 6 false) s) ∧ (448, 16) ∈ beats (exec (.mbc at3 6 true) s) ∧
    beats (exec (.mred at3 6 true false) s) = [(64, 5)] ∧ (after (exec (.mred j 6 false true) z)).mesh.reds.map RedJob.hi = [1] ∧
    beats (exec (.mbc j 6 false) z) = [(448, 4)] := by
  unfold Issues Sits Opens StoreSpan Span; decide +kernel

/-- MeshBeatArrives: a beat of the same section, one of another section, and one that reaches a stopped core. -/
theorem test_mesh_arrives :
    let b : Beat := ⟨0, 1, 0, 1, 0, .write 64, 0, 0, some [7], 4, 0⟩
    let st := fun (c : Core) => ({ cores := [(1, { cur := c })], mesh := { beats := [b] } } : State)
    let s := st { exec := .issuing }
    let x := st { exec := .issuing, sect := { startFrame := 1 } }
    let h := st { exec := .halted }
    ((nextBeat s.mesh.beats.length 1 s).2 = some b ∧ (nextBeat x.mesh.beats.length 1 x).2 = some b ∧
      (nextBeat h.mesh.beats.length 1 h).2 = some b ∧ (x.core 1).fault.code = 0) ∧
    (settle 1 5 (after (exec (.meshBeatArrival 1) s))).dm 1 64 1 = [7] ∧ (coreOf (exec (.meshBeatArrival 1) x) 1).fault.code = 0x14 ∧
    (coreOf (exec (.meshBeatArrival 1) h) 1).timeline = [] ∧ (after (exec (.meshBeatArrival 1) s)).mesh.beats = [] := by decide +kernel

/-! ## DMA queues and coded tensors -/

/-- A core with a descriptor of kind `k` of one line of its own vault at the end of data memory. -/
def dqpUser (k : Nat) : State :=
  issuing (withRegs [(4, 65504)]) (Mem.write [] (dmAddr 0 65504) (leBytes 32 (k + 1024 * 65536 + 4096 * 2 ^ 64)))

/-- DescriptorsPost: the descriptors raise none of their fault conditions. -/
theorem test_good_descriptors : GoodDescriptor at3 7 4 (dqpUser 0) ∧ GoodDescriptor at3 7 4 (dqpUser 1) ∧ GoodDescriptor at3 7 4 (dqpUser 2) := by
  unfold GoodDescriptor Free StoreSpan Span; decide +kernel

/-- DescriptorsPost: a GET, a PUT and a BDEC descriptor of this device's memory. -/
theorem test_descriptors :
    let posts := fun (o : Host.Outcome State Fault Refusal) => (((coreOf o).dq.get 7).posted, ((coreOf o).dq.get 7).descs.map DmaDesc.bytes)
    (∀ k < 3, Issues at3 3 (dqpUser k) ∧ (descWord ((opened at3 (dqpUser k)).dm 0 65504 32)).kind = k) ∧
    posts (exec (.get at3 7 4) (dqpUser 0)) = (1, [32]) ∧ posts (exec (.put at3 7 4) (dqpUser 1)) = (1, [32]) ∧
    posts (exec (.bdec at3 7 4) (dqpUser 2)) = (1, [32]) := by
  unfold Issues Sits Opens; decide +kernel

/-- StreamedWalkPosts: one token, read and written. -/
theorem test_walk_streams :
    let s := issuing (withRegs [(4, 64 + 1024 * 65536), (5, 4096)]) [(dmAddr 0 67, 5), (dmAddr 0 68, 1)]
    let c := issuer at3 s
    let e := mapEntryOf ((opened at3 s).dm 0 64 16)
    let len := runBytes c.pwkFmt.toNat e.kvw 0 1
    (Issues at3 3 s ∧ c.walkFree ≤ c.now ∧ (pwkArgs c 4).ntok = 1 ∧ Free c [(64, 16)] ∧ e.wher = 1 ∧ e.resvd = false ∧
      (pwkArgs c 4).part ≤ fmtParts c.pwkFmt.toNat ∧ Span 1024 len 4 ∧ StoreSpan c 1024 len 4) ∧
    ((coreOf (exec (.pwkS at3 2 false 4) s)).dq.get 2).descs.map (fun d => (d.kind, d.bytes)) = [(0, len)] ∧
    ((coreOf (exec (.pwkS at3 2 true 4) s)).dq.get 2).descs.map (fun d => (d.kind, d.dmAddr)) = [(1, 1024)] ∧
    (coreOf (exec (.pwkS at3 2 true 4) s)).walkStatus = 13 ∧ (coreOf (exec (.pwkS at3 2 true 4) s)).pwkStrCnt = 1 := by
  unfold Issues Sits Opens Free StoreSpan Span; decide +kernel

/-- LocalGetCompletes: a GET of a vault line of this device, and one of an address that no check allows. -/
theorem test_get_completes :
    let d : DmaDesc := { idx := 0, kind := 0, cls := 0, dmAddr := 64, bytes := 32, gaddr := 96, first := 0, blocks := 0, plate := none, done := false }
    let st := fun (d : DmaDesc) => ({ (onTeam 0 {}) with mem := [(96, 8)], regs := [(Reg.gdrCfg, 0)], cores := [(0, { cur := { dq := queue1 d } })] } : State)
    let s := st d
    let x := st { d with gaddr := 0x002FFFFFFFE0 }
    (d.done = false ∧ bitsOf d.gaddr 52 12 = s.devId ∧ s.localCheck (.core 0) false 96 32 = none ∧
      x.localCheck (.core 0) false 0x002FFFFFFFE0 32 ≠ none) ∧
    (after (exec (.dmaDescriptorComplete 0 1 0 0 []) s)).dm 0 64 2 = [8, 0] ∧
    ((coreOf (exec (.dmaDescriptorComplete 0 1 0 0 []) s)).dq.get 1).done = 1 ∧
    ((coreOf (exec (.dmaDescriptorComplete 0 1 0 0 []) x)).dq.get 1).err.isSome = true := by decide +kernel

/-- LocalGetCompletes: from GDDR, from a region that is not available, from an aperture of this device before and after its READ's response, and
with the bytes that the background ports of the vaults brought. -/
theorem test_get_sources :
    let d : DmaDesc := { idx := 0, kind := 0, cls := 0, dmAddr := 64, bytes := 32, gaddr := gddrBase 0 + 64, first := 0, blocks := 0, plate := none, done := false }
    let x := fun (st : Option Status) => (⟨1, hdr0, .dma 0 1 0, 0, true, st, []⟩ : FabTx)
    let st := fun (d : DmaDesc) (rs : List FabTx) (bg : List BgResult) => ({ (onTeam 0 {}) with
      mem := [(gddrBase 0 + 64, 8)], regs := [(Reg.gdrCfg, 0), (Reg.gdrRgnState 0, 2)], cores := [(0, { cur := { dq := queue1 d } })]
      fab := { outs := rs }, bgDone := bg } : State)
    let a := { d with issued := true, gaddr := apertureBase 255 }
    let v := { d with issued := true, gaddr := 96 }
    let far := { d with gaddr := gddrBase 1 }
    let run := fun (s : State) => exec (.dmaDescriptorComplete 0 1 0 0 []) s
    let err := fun (s : State) => ((coreOf (run s)).dq.get 1).err
    (inGddr (bitsOf d.gaddr 0 48) = true ∧ spansAt (gddrBase 0 + 64) 32 = [(0, gddrBase 0 + 64, 32)] ∧ (st d [] []).localCheck (.core 0) false (gddrBase 0 + 64) 32 = none ∧
      inGddr (bitsOf far.gaddr 0 48) = true ∧ spansAt (gddrBase 1) 32 = [(0, gddrBase 1, 32)] ∧ (st far [] []).localCheck (.core 0) false (gddrBase 1) 32 ≠ none ∧
      (let s := st d [] []; s.gpoison = [] ∧ s.gerr = [] ∧ s.gword = [] ∧ s.gacc = []) ∧ inApertures (bitsOf a.gaddr 0 48) = true ∧ inApertures (bitsOf v.gaddr 0 48) = false ∧ (st a [] []).devId = 0 ∧
      (st a [x none] []).txOf (.dma 0 1 0) = [x none] ∧ (st v [] [⟨.dma 0 1 0, 0, .ok, [5]⟩]).bgOf (.dma 0 1 0) = [⟨.dma 0 1 0, 0, .ok, [5]⟩]) ∧
    (after (run (st d [] []))).dm 0 64 1 = [8] ∧ (err (st far [] [])).isSome = true ∧
    ((coreOf (run (st a [x none] []))).dq.get 1).done = 0 ∧ ((coreOf (run (st a [x (some .ok)] []))).dq.get 1).done = 1 ∧
    err (st a [x (some .eTimeout)] []) = some (15, 0) ∧ (after (run (st v [] [⟨.dma 0 1 0, 0, .ok, [5]⟩]))).dm 0 64 1 = [5] ∧
    err (st v [] [⟨.dma 0 1 0, 0, .eMedia, []⟩]) = some (11, 0) := by decide +kernel

/-- EncoderCodesBlocks: the second block of a PUT into a window of two slots. -/
theorem test_encoder_block :
    let e : EncJob := { win := 0, started := true, fmt := 1, base := 0x001000000000, slots := 2, first := 0, coded := 1 }
    let d : DmaDesc := { idx := 0, kind := 1, cls := 0, dmAddr := 0, bytes := 2 * rawBytes 1, gaddr := 0x001000000000, first := 0, blocks := 2
                         plate := none, enc := some e, done := false }
    let s : State := { (onTeam 0 {}) with regs := [(Reg.gdrRgnState 0, 2), (Reg.gdrCfg, 0)], cores := [(0, { cur := { dq := queue1 d } })] }
    (e.coded * rawBytes e.fmt < d.bytes ∧ bitsOf d.gaddr 52 12 = s.devId ∧
      s.localCheck (.core 0) true (bitsOf d.gaddr 0 48) (ceilDiv d.bytes (rawBytes e.fmt) * slotBytes e.fmt) = none ∧
      gDev (winData e.base e.slots + (e.first + e.coded) * slotBytes e.fmt) = s.devId ∧ gDev (e.base + 32 + 8 * (e.first + e.coded)) = s.devId) ∧
    ((coreOf (exec (.encoderBlock 0 1 0) s)).dq.get 1).descs.map (fun d => d.enc.map EncJob.coded) = [some 2] ∧
    (after (exec (.encoderBlock 0 1 0) s)).reg Reg.burEncCnt = 1 := by decide +kernel

/-! ## Faults, clusters, the frame -/

/-- SramErrorStopsItsCore: the first fault of a turn, a later one, and each place an error is found in. -/
theorem test_sram_error :
    let s := { onTeam 0 { inTurn := true, pc := 9, turnCyc := 5 } with regs := [] }
    let x := { onTeam 0 { inTurn := true, fault := { code := 1 } } with regs := [] }
    ((s.core 0).inTurn = true ∧ (s.core 0).fault.code = 0 ∧ (x.core 0).fault.code ≠ 0 ∧
      (s.eccWindow (s.siteOf 0)).length + 1 < s.fld Reg.fltPolicy 8 4) ∧
    (coreOf (exec (.sramEccError 0 (.instr 7 3)) s)).fault.slot = 3 ∧ (coreOf (exec (.sramEccError 0 (.instr 7 3)) s)).fault.bundle = 7 ∧
    (coreOf (exec (.sramEccError 0 (.fetch 8)) s)).fault.bundle = 8 ∧ (coreOf (exec (.sramEccError 0 .outside) s)).fault.bundle = 9 ∧
    (coreOf (exec (.sramEccError 0 .outside) s)).fault.code = 0x16 ∧ (coreOf (exec (.sramEccError 0 .outside) s)).exec = .halted ∧
    (coreOf (exec (.sramEccError 0 .outside) x)).fault.code = 1 ∧ (coreOf (exec (.sramEccError 0 .outside) x)).faultCnt = 1 := by decide +kernel

/-- SramErrorStopsItsCore: after the check an error belongs to the next attempt, which it faults from the start (R510). -/
theorem test_sram_error_after_check :
    let s := ({ onTeam 0 { inTurn := true, pc := 9 } with regs := [] }).updTeam 0 (fun t => { t with running := true, step := 1 })
    let t := after (exec (.sramEccError 0 (.fetch 8)) s)
    (s.teamOfCore 0 = some 0 ∧ (s.team 0).step = 1 ∧ (s.core 0).eccNext = none ∧ (s.eccWindow (s.siteOf 0)).length + 1 < s.fld Reg.fltPolicy 8 4) ∧
    (t.core 0).eccNext = some (0, 8) ∧ (t.core 0).fault.code = 0 ∧ (t.core 0).exec = .issuing ∧
    (((t.core 0).startTurn false 3 0 0 0).raiseEcc).fault.code = 0x16 ∧ (((t.core 0).startTurn false 3 0 0 0).raiseEcc).exec = .halted := by
  decide +kernel

/-- FaultStopsTheTeam: core 0 faulted; core 1 issues and stops, core 2 is at its END, core 8 is no core of the team. -/
theorem test_team_stop :
    let s := { onTeam 0 { inTurn := true, fault := { code := 1 } } with
      cores := [(0, { cur := { exec := .halted, inTurn := true, fault := { code := 1 } } }), (1, { cur := { exec := .issuing, inTurn := true } }),
        (2, { cur := { exec := .atEnd, inTurn := true } }), (8, { cur := { exec := .issuing, inTurn := true } })] }
    let t := exec (.teamFaultStop 0) s
    ((s.team 0).running = true ∧ 0 ∈ (s.team 0).cores ∧ 1 ∈ (s.team 0).cores ∧ 2 ∈ (s.team 0).cores ∧ 8 ∉ (s.team 0).cores ∧
      (s.core 0).fault.code ≠ 0) ∧
    (coreOf t 1).exec = .halted ∧ (coreOf t 2).exec = .atEnd ∧ (coreOf t 8).exec = .issuing ∧ (coreOf t 0).fault.code = 1 := by decide +kernel

/-- FramesAndClusterDomains: a wake, a stop, a cluster that wakes; the last row of self-refresh. -/
theorem test_frames :
    let s := { up.withRegs [(Reg.clkStatus, 1), (Reg.clkDomSel 0, 1)] with
      clusters := [(0, { dom := .off, wakeReq := true }), (1, { dom := .run, stopReq := true, refreshRow := 32960 }), (2, { dom := .waking }),
        (3, { dom := .run, refreshRow := 32960 }), (4, { dom := .off, stopReq := true })], fref := 5, clk := { por := false, coreOn := true }, sites := [(0, { refresh := 33023 })] }
    let x := { up with clusters := [(2, { dom := .waking }), (3, { dom := .waking, stopReq := true })], fref := 1 }
    let t := after (exec .frameBoundary s)
    (s.frefRuns = true ∧ (x.cluster 2).dom = .waking ∧ (x.cluster 2).since < x.fref ∧ (s.cluster 0).dom = .off ∧ x.mem.wf = true ∧
      clusterCores 10 = ((List.range 4096).filter (fun n => clusterOf n == 10)) ∧ clusterOf 4095 = 63 ∧ 19 < coreWindow 0) ∧
    t.fref = 6 ∧ (t.cluster 0).dom = .waking ∧ (t.cluster 0).refreshRow = 64 ∧ (t.cluster 1).dom = .off ∧ (t.cluster 1).refreshRow = 32960 ∧
    (t.cluster 2).dom = .waking ∧ (t.cluster 3).refreshRow = 0 ∧ (t.cluster 4).dom = .off ∧
    ((after (exec (.clusterEnterRun 2) x)).cluster 2).dom = .run ∧ ((after (exec (.clusterEnterRun 3) x)).cluster 3).dom = .off ∧
    ((after (exec (.vaultSelfRefresh 0 0) s)).site 0).refresh = 0 := by decide +kernel

/-- PacketErrors: with a descriptor and without one. -/
theorem test_packets :
    let d : DmaDesc := { idx := 0, kind := 0, cls := 0, dmAddr := 64, bytes := 32, gaddr := 96, first := 0, blocks := 0, plate := none, done := false }
    let s : State := { onTeam 0 {} with regs := [(Reg.gdrCfg, 0)], cores := [(0, { cur := { dq := queue1 d } })] }
    ((s.cluster 0).team = some 0 ∧ (s.team 0).running = true ∧ (s.team 0).dynFault = none ∧
      s.localCheck (.core 0) false (bitsOf d.gaddr 0 48) d.bytes = none) ∧
    after (exec (.packetCrcFail 0 false .control) s) = s ∧ ((after (exec (.packetCrcFail 0 true .control) s)).team 0).dynFault = some 0 ∧
    ((coreOf (exec (.packetCrcFail 0 true (.desc 0 1 0)) s)).dq.get 1).err = some (0xB, 0) ∧
    ((after (exec (.packetCrcFail 0 true .control) (s.updTeam 0 (fun t => { t with step := 1 })))).team 0).dynNext = some 0 := by decide +kernel

/-! ## Vaults between turns -/

/-- Factory repairs leave 16 spare rows and 2 spare columns of a bank free (R275). -/
theorem factory_rows_below (site bank : Nat) : ∀ x ∈ sparesIn bank (factoryRows site), x < 48 := by
  simp only [sparesIn, factoryRows, List.mem_map, List.mem_filter]
  rintro x ⟨e, ⟨⟨-, h⟩, -⟩, rfl⟩
  simp at h; exact h.2

theorem factory_cols_below (site bank : Nat) : ∀ x ∈ sparesIn bank (factoryCols site), x < 6 := by
  simp only [sparesIn, factoryCols, List.mem_map, List.mem_filter]
  rintro x ⟨e, ⟨⟨-, h⟩, -⟩, rfl⟩
  simp at h; exact h.2

/-- R275: every bank of a site without repairs of its own has a spare row and a spare column. -/
theorem test_spares (s : State) (h : s.sites = []) (site bank i : Nat) (col : Bool) :
    s.freeRows site bank ≠ [] ∧ s.freeCols site bank ≠ [] ∧ s.canSoft site bank i col = true := by
  have hs : s.site site = {} := by simp [State.site, look, h]
  have hr : 48 ∈ s.freeRows site bank := by
    simp only [State.freeRows, State.rowsTaken, hs, List.mem_filter, List.mem_range]
    have := factory_rows_below site bank 48
    simp_all
  have hc : 6 ∈ s.freeCols site bank := by
    simp only [State.freeCols, State.colsTaken, hs, List.mem_filter, List.mem_range]
    have := factory_cols_below site bank 6
    simp_all
  refine ⟨List.ne_nil_of_mem hr, List.ne_nil_of_mem hc, ?_⟩
  cases col
  · cases hf : s.freeRows site bank <;> simp_all [State.canSoft, State.freeSpares]
  · cases hf : s.freeCols site bank <;> simp_all [State.canSoft, State.freeSpares]

/-- VaultRepairEvents: a spare whose entry was programmed before, and two that were not. -/
theorem test_spent :
    let s : State := { sites := [(0, { hardRows := [(3, 8191, 2)] })] }
    s.spentSpare 0 3 2 false = true ∧ s.spentSpare 0 3 50 false = false ∧ s.spentSpare 0 3 7 true = false := by
  have a := factory_rows_below 0 3 50
  have b := factory_cols_below 0 3 7
  simp_all [State.spentSpare, State.site, look, sparesIn]
/-- VaultRepairCommands: the host may write, the selected site stands idle; a busy site, a wrong key, a self-test. -/
theorem test_repair_commands :
    let s : State := { up with clusters := [(0, { dom := .run })] }
    let b : State := { up with clusters := [(0, { dom := .run, team := some 0 })], teams := [(0, { loaded := true })] }
    (Writable s 0#6 Reg.vltRepairCmd ∧ s.siteBusy s.selSite = false ∧ s.fld Reg.vltStatus 0 2 = 0 ∧ s.sites = [] ∧
      Writable b 0#6 Reg.vltRepairCmd ∧ b.siteBusy b.selSite = true ∧ Writable s 0#6 Reg.vltBistCtrl ∧ s.testable s.selSite = true) ∧
    (after (exec (.softRow 0 3 8191) b)).fld Reg.vltStatus 4 4 = 4 ∧ ((after (exec (.bistStart 0 3) s)).site 0).testing = some 3 := by
  unfold Writable; decide +kernel

/-- VaultRepairEvents: a row of an idle site that is weak; a copy with no line left; programming starts and ends; a self-test ends. -/
theorem test_repair_events :
    let s : State := { up.withRegs [(Reg.vltCtrl, 0x1000)] with
      clusters := [(0, {}), (56, {})], mgt := { hardQueue := [(0, 7, 559, 1), (0, 3, 8191, 2)] }, sites := [(0, { weak := [5] })] }
    let p := s.withRegs [(Reg.vltStatus, 2)]
    let c : State := { s with sites := [(0, { copying := some 5, testing := some 1 })] }
    (s.fld Reg.vltCtrl 12 1 = 1 ∧ s.siteIdle 0 = true ∧ (s.site 0).weak = [5] ∧ (s.site 0).copying = none ∧ s.vaultAt 0 = some 0 ∧
      s.vaultAt (71 * 64) ≠ none ∧ s.siteIdle (71 * 64) = true ∧ s.fld Reg.vltStatus 1 1 = 0 ∧ p.fld Reg.vltStatus 1 1 = 1 ∧
      (c.site (c.siteOf 0)).copying = some 5 ∧ (look [] c.bgq 0).any (fun r => r.act == .copy) = false ∧ (c.site 0).testing ≠ none) ∧
    (after (exec .hardRepairProgram s)).fld Reg.vltStatus 1 1 = 1 ∧
    ((after (exec (.bistDone 0 0 3 []) c)).site 0).testFailed = true ∧ (after (exec (.bistDone 0 0 0 []) c)).reg Reg.vltBistFailCnt = 0 := by
  decide +kernel

/-- BackgroundPortAndScrubber: writes that land and are lost, reads of the line before and after, a scrub of the last line; the refresh
window and an odd cycle have no slot. -/
theorem test_background :
    let w : BgReq := ⟨524287, .write ([1, 2] ++ List.replicate 30 0) 1, .dma 0 1 0, 0, 32, 0⟩
    let r : BgReq := ⟨3, .read, .host 0, 31, 1, 0⟩
    let cw : CoreWrite := ⟨3, 64, ⟨List.replicate 32 7, false, ([], 0#3)⟩⟩
    let s : State := { up.withRegs [(Reg.vltCtrl, 1)] with
      clusters := [(0, { dom := .run })], bgq := [(0, [w]), (1, [r]), (2, [{ w with line := 3 }]), (3, [r])]
      cores := [(2, { cur := { coreWrite := some cw } }), (3, { cur := { coreWrite := some cw } })], sites := [(0, { scrubPtr := 524287 })] }
    (look [] s.bgq 0 = [w] ∧ s.resting = false ∧ s.bgSlot 0 64 = 64 ∧ s.bgSlot 0 63 = 64 ∧ s.bgSlot 0 65 = 66 ∧ s.bgSlot 0 2047 = 2112 ∧
      s.storedErr 0 524287 = ([], 0#3) ∧ s.poisoned 0 524287 = false ∧ s.poisoned 3 3 = false ∧ (s.core 0).coreWrite = none ∧
      (s.core 2).coreWrite = some cw ∧ s.fld Reg.vltCtrl 0 1 = 1 ∧ s.scrubDue 0 64 = true ∧ s.lidOf 0 = some 0) ∧
    (after (exec (.backgroundLineServe 0 64 {}) s)).mem.read (vaultBase 0 + 32 * 524287) 2 = [1, 0] ∧
    (after (exec (.backgroundLineServe 2 64 {}) s)).reg Reg.vltBgLostCnt = 1 ∧
    (after (exec (.backgroundLineServe 2 64 {}) s)).bgDone = [⟨.dma 0 1 0, 0, .eMedia, []⟩] ∧
    (after (exec (.backgroundLineServe 1 64 {}) s)).outbox = [.read 0 .ok [0] false] ∧
    (after (exec (.backgroundLineServe 3 64 {}) s)).outbox = [.read 0 .ok [7] false] ∧
    ((after (exec (.vaultScrub 0 0 ⟨64, {}⟩) s)).site 0).scrubPtr = 0 ∧
    (after (exec (.vaultScrub 0 0 ⟨64, ⟨[(0, 1), (34, 1)], 0⟩⟩) s)).poisoned 0 524287 = true := by
  decide +kernel

/-! ## GDDR regions -/

/-- TrainingPutsRegionsInService, RegionAccesses, RegionRetireCommand: region 31, its last sector, densest devices. -/
theorem test_gddr :
    let t := after (exec (.gddrTraining (List.replicate 32 (some 2, true))) up)
    let s := t.withRegs [(Reg.glbTicks, 100000)]
    let k := gddrBase 31 / 64 + 62914559
    let r := after (exec (.gddrShortRetrain 31 60 true false) s)
    (s.regionUp 31 = true ∧ 64 * 62914559 + 64 ≤ s.usable ∧ (s.gpoison = [] ∧ s.gerr = [] ∧ s.gword = [] ∧ s.gacc = []) ∧
      (s.region 31).ueTicks = [] ∧ 1 < s.fld Reg.gdrPolicy 0 8 ∧ 1 < s.fld Reg.gdrPolicy 8 8 ∧ (s.region 31).noResp < 15 ∧ s.groupRetrains 31 = false ∧
      (s.region 31).lastTick + 16 * s.fld Reg.gdrPolicy 16 8 ≤ s.reg Reg.glbTicks ∧ Writable s 0#6 Reg.gdrRetireCmd ∧ s.groupLost 3 = 0 ∧
      wordOk 3 = false ∧ wordOk 1 = true) ∧
    t.regionSt 31 = 2 ∧ t.usable = 3840 * 1048576 ∧ (after (exec (.gddrAccess 31 62914559 ⟨[], 3⟩ 0) s)).sectorFails k = true ∧
    (after (exec (.gddrAccess 31 62914559 ⟨[(0, 1)], 0⟩ 0) s)).reg Reg.gdrCeCnt = 1 ∧
    (after (exec (.gddrAccess 31 62914559 {} 4) s)).reg Reg.gdrUeCnt = 1 ∧ (after (exec (.gddrAccessTimeout ⟨31, 62914559⟩) s)).reg Reg.gdrUeCnt = 1 ∧
    ((after (exec (.gddrScrub 31 (List.replicate 15 {})) s)).region 31).scrubGroup = 1 ∧ r.regionSt 31 = 3 ∧
    ((after (exec (.gddrShortRetrain 31 60 true false) r)).region 31).lastTick = 100000 ∧
    (after (exec (.gdrRetireCmd 0 0x5A00001F) s)).regionSt 31 = 4 ∧ (after (exec (.gdrRetireCmd 0 0x0000001F) s)).reg Reg.hstRejCnt = 1 := by
  unfold Writable; decide +kernel

/-! ## Turns -/

/-- TurnStarts: a lead's batch of one idle entry. -/
theorem test_turn_start :
    let s := turning {} { role := 1, image := { entryDecode := 511 }, batch := [⟨8192, 0, 0, [], 0⟩], turn := 4 }
    let t := after (exec (.turnStart 0 ⟨[], none, []⟩) s)
    ((s.isLead || (s.jobRuns && s.jobTeam == 0)) = true ∧ (s.team 0).running = false ∧ s.mayStart 0 = true ∧ (s.team 0).batch ≠ [] ∧
      (∀ e ∈ (s.team 0).batch, s.entryHeld (s.team 0) e = true) ∧ s.seqsZeroing ((s.team 0).batch.map Entry.slot) = false ∧ s.sites = [] ∧
      s.badLoadLines (s.team 0) = [] ∧ (s.team 0).unloading = none ∧ (s.team 0).marked = false) ∧
    (t.team 0).running = true ∧ (t.core 455).exec = .issuing ∧ (t.core 455).nextPc = 511 ∧ (t.core 455).rank = 63 ∧ (t.core 455).turn = 4 ∧
    (t.core 8).exec = .idle := by decide +kernel

/-- TurnStarts: a member of a slice runs its lead's turn, and none that the lead has not sent. -/
theorem test_member_turn :
    let s := (turning {} { image := { entryRefine := 511 }, turn := 4 }).withRegs [(Reg.slcStatus, 1), (Reg.slcCfg, 0x1020000)]
    let l : LeadTurn := ⟨4095, 2, 7, [⟨5, 3, 0, [(9, none)], 6⟩], [⟨5, true, 0, 0, 0, 0, 0, 0, 0, 0, 0, 6, 0, 0, []⟩]⟩
    let t := after (exec (.turnStart 0 ⟨[], some l, []⟩) s)
    ((s.isLead || (s.jobRuns && s.jobTeam == 0)) = false ∧ (s.team 0).running = false ∧ s.mayStart 0 = true ∧ s.sites = [] ∧
      (s.takeLead 0 l).map (fun u => ((u.team 0).batch, u.seqsZeroing ((u.team 0).batch.map Entry.slot))) = some ([⟨0, 3, 0, [(9, none)], 6⟩], false) ∧
      s.badLoadLines (s.team 0) = [] ∧ (s.team 0).unloading = none ∧ (s.team 0).marked = false) ∧
    (t.core 455).turn = 4095 ∧ (t.core 455).teamSeed = 7 ∧ (t.core 455).nextPc = 511 ∧
    ((after (exec (.turnStart 0 ⟨[], none, []⟩) s)).team 0).running = false := by decide +kernel

/-- The batch of a REFINE team holds its one request, which has no plates to prepare (R399, R401). -/
theorem test_refine_batch :
    let s : State := { turning {} { role := 2, prepRole := 2, model := 7 } with
      dlr := { slots := [(2, { request with st := .decode, team := some 0 }), (3, { request with st := .refine, refine := true, team := some 0 })] } }
    ((s.formTurn 0).team 0).prepared.map (fun e => (e.slot, e.ekind)) = [(3, 3)] := by decide +kernel

/-- TurnCommits and FailedTurnIsReplayed: a turn whose cores have ended, with and without a fault; one that found no ring room resumes. -/
theorem test_turn_ends :
    let s := turning { exec := .atEnd, inTurn := true } { running := true, turn := 4 }
    let f := s.updCore 455 (fun c => { c with exec := .halted, fault := { code := 1 } })
    let h : State := { (turning {} { running := true, step := 2, turn := 4 }) with det := { holding := [0] } }
    let t := after (exec (.turnEnd 0 0 [] [] []) s)
    let r := after (exec (.turnEnd 0 0 [] [] []) f)
    (MayEnd 0 s ∧ s.sliceSt = 0 ∧ (inCheck 0 0 [] s).turnFaults 0 = [] ∧ (inCheck 0 0 [] s).turnRoom 0 ((inCheck 0 0 [] s).team 0) = true ∧ s.det.holding = [] ∧
      (inCheck 0 0 [] s).badLoadLines ((inCheck 0 0 [] s).team 0) = [] ∧ ReadClean 0 h ∧ MayEnd 0 f ∧ (inCheck 0 0 [] f).turnFaults 0 ≠ [] ∧ ReadClean 0 (inCheck 0 0 [] f) ∧ (f.team 0).attempt < 2 ∧ (f.team 0).stopped = false ∧
      0 ∈ h.det.holding ∧ h.turnRoom 0 (h.team 0) = true ∧ (h.team 0).savedTurn = none ∧ h.jobRuns = false) ∧
    (t.team 0).turn = 5 ∧ (t.team 0).running = false ∧ t.reg Reg.dlrCommitCnt = 1 ∧ (t.core 455).exec = .idle ∧
    (r.team 0).turn = 4 ∧ (r.team 0).attempt = 1 ∧ r.reg Reg.fltReplayCnt = 1 ∧ r.reg Reg.dlrDiscardCnt = 1 ∧
    ((after (exec (.turnBoundaryResume 0 0) h)).team 0).turn = 5 ∧
    ((after (exec (.turnBoundaryResume 0 0) (h.updTeam 0 (fun t => { t with cut := true })))).team 0).turn = 4 := by unfold MayEnd ReadClean; decide +kernel

/-- TurnCommits: recording is on and the proof ring is full. -/
theorem test_turn_holds :
    let s := (turning { exec := .atEnd, inTurn := true } { running := true, turn := 4 }).withRegs [(Reg.detCfg, 3)]
    let t := after (exec (.turnEnd 0 0 [] [] []) s)
    (MayEnd 0 s ∧ s.sliceSt = 0 ∧ (inCheck 0 0 [] s).turnFaults 0 = [] ∧ (inCheck 0 0 [] s).turnRoom 0 ((inCheck 0 0 [] s).team 0) = false ∧
      (inCheck 0 0 [] s).badLoadLines ((inCheck 0 0 [] s).team 0) = []) ∧
    t.det.holding = [0] ∧ (t.team 0).step = 2 ∧ (t.team 0).turn = 4 := by unfold MayEnd; decide +kernel

/-- TurnCommits: there is room, but another boundary waits already. -/
theorem test_turn_waits_its_turn :
    let s := { turning { exec := .atEnd, inTurn := true } { running := true, turn := 4 } with det := { holding := [1] } }
    let t := after (exec (.turnEnd 0 0 [] [] []) s)
    (MayEnd 0 s ∧ s.sliceSt = 0 ∧ (inCheck 0 0 [] s).turnFaults 0 = [] ∧ s.det.holding ≠ []) ∧
    t.det.holding = [1, 0] ∧ (t.team 0).step = 2 ∧ (t.team 0).turn = 4 := by unfold MayEnd; decide +kernel

/-- SliceVotes: a lead with rank 1, and rank 1 as a member. -/
theorem test_slice_votes :
    let lead := fun (tm : Team) => { up.withRegs [(Reg.slcStatus, 1), (Reg.slcCfg, 0x20000), (Reg.slcRank 0, 0x1000), (Reg.slcRank 1, 0x3001)] with teams := [(0, tm)] }
    let s := lead { running := true }
    let c := lead { running := true, step := 1 }
    let m := { up.withRegs [(Reg.slcStatus, 1), (Reg.slcCfg, 0x1020000)] with teams := [(0, { running := true })] }
    let y := lead { readyWait := [(1, 0)] }
    let late := y.withRegs [(Reg.glbTicks, 20)]
    (s.isLead = true ∧ 1 ∈ s.votingRanks ∧ 1 ∈ c.votingRanks ∧ ReadClean 0 c ∧ m.isLead = false ∧ y.isLead = true) ∧
    ((after (exec (.sliceResult 0 1 true ⟨false, [], []⟩) s)).team 0).results = [(1, true, ⟨false, [], []⟩)] ∧
    find? ((after (exec (.sliceResult 0 1 false ⟨true, [], []⟩) s)).team 0).readyWait 1 = some 0 ∧
    ((after (exec (.sliceVoteTimeout 0) c)).team 0).missing = [1] ∧ ((after (exec (.sliceVoteTimeout 0) c)).team 0).attempt = 1 ∧
    ((after (exec (.sliceDecision 0 .commit) m)).team 0).decision = some .commit ∧ ((after (exec (.sliceReady 0 1) s)).team 0).ready = [1] ∧
    ((after (exec (.sliceReadyTimeout 0 1) y)).team 0).missing = [] ∧ ((after (exec (.sliceReadyTimeout 0 1) late)).team 0).missing = [1] := by unfold ReadClean; decide +kernel

/-- ContextsAndWatchdog. -/
theorem test_contexts_watchdog :
    let s := { turning { exec := .issuing, inTurn := true } { running := true, resetWait := true } with fref := 100000 }
    let t := after (exec (.turnWatchdog 0) s)
    ((s.team 0).resetWait = true ∧ (s.team 0).watchdog = none ∧ s.workDone (s.team 0) = false ∧
      (s.team 0).startFrame + (s.team 0).image.framesMax + 16 * s.fld Reg.fltPolicy 0 8 < s.fref) ∧
    ((after (exec (.contextResetWait 0) s)).team 0).resetWait = false ∧ (t.team 0).watchdog = some 0 ∧ (t.core 455).exec = .halted := by
  decide +kernel

/-! ## Stand-ins -/

/-- StandIns: a reserve passes, fails, and is taken by another core; a stand-in that is refilled and one that fails. -/
theorem test_stand_in :
    let s : State := { up with clusters := board [(0, { dom := .run, team := some 0 })], teams := [(0, { loaded := true })], dlr := { repairs := [449] } }
    let x : State := { s with clusters := board [(0, { cols := [8, 3, 8, 8, 8, 8, 8, 8] })] }
    let z : State := { up with clusters := board [(0, { cols := [8, 7, 8, 8, 8, 8, 8, 8] })], dlr := { standing := [449] } }
    ((s.cluster (clusterOf 449)).cols.length = 8 ∧ s.siteIdle (s.siteOf 449) = true ∧ s.colState 449 = 8 ∧ x.colState 449 = 3 ∧
      x.siteIdle (x.siteOf 449) = true ∧ z.colState 449 = 7) ∧
    (after (exec (.standIn 449 true) s)).colState 449 = 7 ∧ (after (exec (.standIn 449 true) s)).dlr.standing = [449] ∧
    (after (exec (.standIn 449 true) s)).fieldPause 0 = true ∧ bitsOf ((after (exec (.standIn 449 true) s)).readReg Reg.fltStatus) 3 1 = 1 ∧ (after (exec (.standIn 449 false) s)).colState 449 = 0xA ∧
    (after (exec (.standIn 449 true) x)).colState 449 = 0xA ∧ (after (exec (.standInComplete 449 false []) z)).reg Reg.fltStandinCnt = 1 ∧
    (after (exec (.standInComplete 449 true []) z)).colState 449 = 0xA := by decide +kernel

/-! ## The Dealer -/

/-- ClusterCommands: wake and stop of the last cluster, OFF and in RUN; a stop of a team's cluster. -/
theorem test_cluster_commands :
    let d := desc [(64, 63)]
    let s : State := { up with clusters := [(63, {})] }
    let r : State := { up with clusters := [(63, { dom := .run })] }
    let m : State := { up with clusters := [(63, { team := some 0 })] }
    (cmdBad d [(64, 6)] = false ∧ bitsOf d.toNat 64 6 = 63 ∧ (s.cluster 63).team = none ∧ (r.cluster 63).team = none ∧ (m.cluster 63).team ≠ none) ∧
    ((after (exec (.clusterWake 0 5 d) s)).cluster 63).wakeReq = true ∧ ((after (exec (.clusterWake 0 5 d) r)).cluster 63).wakeReq = false ∧
    ((after (exec (.clusterStop 0 5 d) r)).cluster 63).stopReq = true ∧ ((after (exec (.clusterStop 0 5 d) s)).cluster 63).stopReq = false ∧
    after (exec (.clusterStop 0 5 d) m) = completed 0 5 d .eState 0 m ∧ after (exec (.clusterWake 1 5 d) s) = completed 1 5 d .ePerm 0 s := by
  decide +kernel

/-- ModelsAndDeltas: one byte of source at the last byte of a region. -/
theorem test_models :
    let src := gddrBase 31 + 1920 * 1048576 - 1
    let dm := desc [(64, 7), (128, src), (192, 1), (448, 1)]
    let dd := desc [(64, 7), (80, 5), (128, src), (192, 1)]
    let md : Model := { off := 0, len := 1, ends := [], tenants := 1, ready := true }
    let s := withGold
    let l : State := { s with dlr := { models := [(7, md)] } }
    let g := fun (delta : Option (Nat × Nat)) => ({ s with
      dlr := { models := [(7, md)], golden := [⟨0, 0, 0, 7, delta, 0x001000100000, 28 * 4096, 0, false⟩] } } : State)
    let b := fun (delta : Option (Nat × Nat)) => ({ s with
      dlr := { models := [(7, md)], golden := [⟨0, 0, 0, 7, delta, 0x001000100000, 28 * 4096, 64, false⟩] }, gpoison := [0x001000100000 / 64] } : State)
    (cmdBad dm [(64, 16), (128, 64), (192, 64), (256, 128), (384, 2), (448, 64)] = false ∧ s.gddrOk src 1 = true ∧ s.inGold src 1 = false ∧
      s.model? 7 = none ∧ s.goldFind 1 = some 0 ∧ cmdBad dd [(64, 16), (80, 16), (96, 6), (128, 64), (192, 64)] = false ∧ l.model? 7 = some md ∧
      l.goldFind 1 = some 1 ∧ cmdBad (desc [(64, 7)]) [(64, 16)] = false ∧ (g none).gddrOk 0x001000100000 0 = true ∧
      (g none).sectorBad 0x001000100000 0 = false ∧ (b none).sectorBad 0x001000100000 64 = true) ∧
    ((after (exec (.modelLoad 0 0 dm) s)).model? 7).map Model.ready = some false ∧ (after (exec (.modelLoad 0 0 dm) s)).dlr.golden.length = 1 ∧
    (after (exec (.modelUnload 0 0 (desc [(64, 7)])) l)).model? 7 = none ∧ (after (exec (.deltaLoad 0 0 dd) l)).dlr.golden.length = 1 ∧
    ((after (exec .modelLoadComplete (g none))).model? 7).map Model.ready = some true ∧
    ((after (exec .modelLoadComplete (g (some (5, 0))))).model? 7).map (fun m => m.deltas.length) = some 1 ∧
    (after (exec .modelLoadComplete (b none))).model? 7 = none := by decide +kernel

/-- TeamsLoadAndUnload: a load of cluster 63, one with no place, its end, unloads and a role command. -/
theorem test_teams :
    let ia := 0x001000100000
    let img := leBytes 64 (0x41445831 + 9 * 2 ^ 96 + 1 * 2 ^ 160)
    let d := desc [(64, 7), (80, 1), (88, 63), (128, ia), (192, ia), (288, 1), (320, 1), (336, 1)]
    let s : State := { withGold with mem := Mem.write [] ia img
                                     dlr := { models := [(7, { off := 0, len := 1, ends := [], tenants := 1, ready := true })] }, clusters := [(63, {})] }
    let x : State := { s with clusters := [(63, { team := some 3 })] }
    let y : State := { s with gacc := [(ia / 64, true)] }
    let h := imageHeader ia (s.mem.read ia 64)
    (cmdBad d [(64, 32), (128, 64), (192, 64), (256, 14), (288, 64)] = false ∧ (s.model? 7).any (fun m => m.ready) = true ∧
      teamShape (bitsOf d.toNat 80 7) = some (1, 1) ∧ bitsOf d.toNat 94 2 = 0 ∧ originOk (1, 1) (bitsOf d.toNat 88 6) = true ∧
      (y.readGddr ia 64).2.1 = .eMedia ∧ y.stagedAt ia 64 = true ∧ s.stagedAt ia 64 = true ∧ s.gddrOk ia 1 = true ∧ h.2.1 = 0x41445831 ∧ h.2.2.1 = 9 ∧ s.freeTeam = some 0 ∧
      s.loadPlace (1, 1) (bitOf d.toNat 87) 63 = some (7, 7) ∧ x.loadPlace (1, 1) (bitOf d.toNat 87) 63 = none) ∧
    ((after (exec (.teamLoad 0 0 d) s)).team 0).oy = 7 ∧ ((after (exec (.teamLoad 0 0 d) s)).cluster 63).wakeReq = true ∧
    after (exec (.teamLoad 0 0 d) x) = completed 0 0 d .eNoroom 0 (x.readGddr ia 64).1 ∧
    after (exec (.teamLoad 0 0 d) y) = completed 0 0 d .eMedia 0 (y.readGddr ia 64).1 := by decide +kernel

/-- TeamsLoadAndUnload: the end of a load, an unload while a turn runs and between turns, a role command. -/
theorem test_teams_end :
    let b : LoadBytes := { resident := [], bankA := [], weights := [], plateFmt := 5, mapBase := 0, u := 0, ranges := 1, holders := []
                           log2n := 4, kvw := 1, lhs := 1, contexts := [] }
    let l : State := { up with clusters := [(0, { dom := .run, team := some 0 })], teams := [(0, { loading := some (0, 0, 0), cw := 1, ch := 1, model := 7 })] }
    let s := (turning {} {}).withRegs [(Reg.dlrRoleCfg, 0x40140)]
    let r := turning {} { running := true }
    let d := desc []
    let x : State := { l with teams := [(0, { l.team 0 with loadBad := true })] }
    let y : State := { l with clusters := [(0, { dom := .run, team := some 0, cols := [0xA] })] }
    ((l.team 0).clusters = [0] ∧ (l.cluster 0).dom = .run ∧ (l.cluster 0).stopReq = false ∧ (l.cluster 0).lost = false ∧ (l.team 0).loadBad = false ∧
      (l.readSources []).2 = none ∧ (x.team 0).loadBad = true ∧ (y.cluster 0).lost = true ∧ (s.team 0).loaded = true ∧ cmdBad d [(64, 6)] = false ∧ s.bound 0 = [] ∧ s.attached 0 = [] ∧
      s.jobRuns = false ∧ s.dlr.switching = none ∧ s.fld (Reg.dlrTeamRst 0) 0 1 = 0 ∧ r.bound 0 = [] ∧
      cmdBad (desc [(70, 1)]) [(64, 8)] = false ∧ s.fld Reg.dlrRoleCfg 0 1 = 0) ∧
    ((after (exec (.teamLoadComplete 0 b []) l)).team 0).loaded = true ∧ ((after (exec (.teamLoadComplete 0 b []) x)).team 0).loaded = false ∧
    ((after (exec (.teamLoadComplete 0 b []) x)).cluster 0).team = none ∧ ((after (exec (.teamLoadComplete 0 b []) y)).team 0).loaded = false ∧
    ((after (exec (.teamUnload 0 0 d) r)).team 0).loaded = true ∧ ((after (exec (.teamUnload 0 0 d) s)).team 0).loaded = false ∧
    ((after (exec (.teamUnload 0 0 d) s)).cluster 0).team = none ∧
    ((after (exec (.roleSet 0 0 (desc [(70, 1)])) s)).team 0).nextRole = some 1 := by decide +kernel

/-! ## Requests and the Dealer's cores -/

/-- A team that serves model 7 for tenant 0. -/
def serving : State :=
  { turning {} { model := 7, dMax := 7, ctxMax := 1000, image := { entryRefine := 0 } } with
    dlr := { models := [(7, { off := 0, len := 1, ends := [], tenants := 1, ready := true, deltas := [(5, 0, 0, 1)] })] } }

/-- A request descriptor with fields set: (bit, value). -/
def reqDesc (l : List (Nat × Nat)) : BitVec 1024 := BitVec.ofNat 1024 (l.map (fun p => p.2 * 2 ^ p.1)).sum

/-- RequestsQueueAndCancel: a GENERATE and a REFINE that pass, one that fails, a cancel, a deadline. -/
theorem test_requests :
    let g := reqDesc [(0, 1), (32, 9), (64, 7), (272, 1), (352, 1), (384, 1)]
    let r := reqDesc [(0, 2), (32, 9), (64, 7), (80, 5), (272, 1), (352, 1), (448, gddrBase 0)]
    let s := serving.withRegs [(Reg.gdrRgnState 0, 2)]
    let c : State := { up with dlr := { slots := [(8191, { request with st := .decode })] } }
    let q : State := { up.withRegs [(Reg.ringCfg 0 ringCpl, 0)] with dlr := { slots := [(8191, request)] } }
    let tenant := s.fld (Reg.fnTenant 0) 0 6
    (s.freeSlotNo = some 0 ∧ firstCheck (s.descChecks 1 (reqDescOf (descBytes g)) tenant true) = none ∧
      firstCheck (s.descChecks 2 (reqDescOf (descBytes r)) tenant true) = none ∧
      firstCheck (s.descChecks 2 (reqDescOf (descBytes g)) tenant true) = some .eArg ∧ cmdBad (desc [(64, 9)]) [(64, 32)] = false ∧
      c.tagged 0 9 = [(8191, { request with st := .decode })] ∧ q.slot? 8191 = some request ∧ request.deadline ≤ q.rackTime + 1) ∧
    ((after (exec (.generate 0 3 g) s)).slot? 0).map Slot.st = some .queued ∧ ((after (exec (.refine 0 3 r) s)).slot? 0).map Slot.refine = some true ∧
    (after (exec (.refine 0 3 g) s)).slot? 0 = none ∧
    ((after (exec (.cancel 0 0 (desc [(64, 9)])) c)).slot? 8191).map Slot.cancel = some true ∧
    ((after (exec (.queuedDeadline 8191 157) q)).slot? 8191).map Slot.result = some (some .eLate) ∧
    after (exec (.queuedDeadline 8191 0) q) = q.withRegs [(Reg.uhlRrc, 0)] := by decide +kernel

/-- RequestsEnd: a request that is running ends; one that is ending stays. -/
theorem test_requests_end :
    let s : State := { up with dlr := { slots := [(5, { request with st := .decode, delivered := 3 }), (6, { request with st := .ending })] } }
    ((s.slot? 5).map Slot.discard = some false ∧ (s.slot? 6).map Slot.st = some .ending) ∧
    ((s.endReq 5 .eCancelled).slot? 5).map (fun x => (x.st, x.result, x.delivered)) = some (.ending, some .eCancelled, 3) ∧ s.endReq 6 .eLate = s := by
  decide +kernel

/-- DealerCores: a heartbeat, a takeover of the partner, a firmware switch. -/
theorem test_dealer_cores :
    let s : State := { up with dlr := { beats := [(6, 4)], seen := [(6, 4)], stale := [(6, 9)] } }
    let t : State := { up with dlr := { beats := [(7, 4)], seen := [(7, 4)], stale := [(7, 10)] } }
    let d := desc [(64, 1)]
    let f : State := { turning {} {} with mgt := { slots := [(5, { valid := true })] } }
    (s.dealerSt 7 ≠ 2 ∧ t.dealerSt 7 ≠ 2 ∧ t.dealerSt 6 ≠ 2 ∧ cmdBad d [(64, 1)] = false ∧ f.dlr.switching = none ∧ 1 ≠ f.runSlot 2 ∧
      (find? f.mgt.slots 5).map FlashSlot.valid = some true ∧ (f.team 0).loaded = true ∧ f.teams.any (fun x => x.1 == 0)) ∧
    look 0 (after (exec (.dealerHeartbeat 7) s)).dlr.beats 7 = 1 ∧ look 0 (after (exec (.dealerHeartbeat 7) s)).dlr.stale 6 = 10 ∧
    (after (exec (.dealerTakeover 7) t)).dealerSt 7 = 2 ∧ (after (exec (.dealerTakeover 7) t)).dealerSt 6 = 1 ∧
    ((after (exec (.fwSwitch 0 0 d) f)).dlr.switching).isSome = true := by decide +kernel

/-! ## Plates -/

/-- A device with GDDR in service, pool 0 in the vaults of team 0 (4 slots of 8 lines), pool 1 in GDDR (2 slots), a chain of sequence 9
with one plate, tier `tier`. -/
def plated (p : Plate) (plt : Plates := {}) : State :=
  { (turning {} {}).withRegs [(Reg.gdrRgnState 0, 2), (Reg.pltPoolCfg 0, 1 + 8 * 16), (Reg.pltPoolCount 0, 4),
      (Reg.pltPoolCfg 1, 1 + 2 + 8 * 16), (Reg.pltPoolCount 1, 2), (Reg.pltPoolBase 1, gddrBase 0)] with
    plt := { plt with chains := [(9, { tenant := 0, log2n := 4, kvw := 1, depth := 1, jb := 2, lhb := 2, hpool := 1, lhs := 1, shadow := [p] })] } }

def plate0 : Plate := { key := 0, tier := 1, kvw := 1, tent := false, hpool := 1, spool := 0 }

/-- PoolsAndReservations: a pool in GDDR, one that overlaps; reservations that fit and do not; release, policy, lend. -/
theorem test_pools :
    let s := plated plate0
    let last := BitVec.ofNat 64 (gddrBase 0 + 1920 * 1048576 - 32)
    let st := fun (o : Host.Outcome State Fault Refusal) => (lastStatus (after o), (after o).poolCount 2)
    let meets := fun (base k : Nat) => (s.poolSpans (s.poolTier k) (s.poolTeam k) (s.poolBase k) (s.poolCount k * s.poolLines k * 32)).any
      (fun x => overlaps base 32 x.1 x.2)
    (s.poolOn 1 = true ∧ s.takenSlots 2 = [] ∧ s.poolClash 2 1 1 0 last.toNat 1 = false ∧ s.poolClash 2 1 1 0 (gddrBase 0) 1 = true ∧
      s.poolRsv 1 + 2 ≤ s.poolFree 1 ∧ s.poolFree 1 < s.poolRsv 1 + 3 ∧ meets 4096 0 = false ∧ meets 4096 1 = false ∧ meets 0 0 = true) ∧
    st (exec (.poolSet 2 true 1 1 0 last 1) s) = (0, 1) ∧ st (exec (.poolSet 2 true 1 1 0 (BitVec.ofNat 64 (gddrBase 0)) 1) s) = (2, 0) ∧
    st (exec (.poolSet 2 false 1 1 0 0 7) s) = (0, 7) ∧ look 0 ((after (exec (.reserve 1 9 2) s)).pool 1).rsv 9 = 2 ∧
    lastStatus (after (exec (.reserve 1 9 3) s)) = 6 ∧ look 0 ((after (exec (.release 1 9 1) (after (exec (.reserve 1 9 2) s)))).pool 1).rsv 9 = 1 ∧
    (after (exec (.policy 1 1 63 5 true) s)).fld (Reg.pltPoolWm 1) 8 6 = 63 ∧ (after (exec (.lend 4096 32) s)).plt.lends = [(4096, 32)] ∧
    lastStatus (after (exec (.lend 0 32) s)) = 6 := by
  decide +kernel

/-- ChainsComeAndGo: created, refused, freed, bound. -/
theorem test_chains :
    let s := plated plate0
    (s.poolOn 1 = true ∧ s.chain? 8 = none ∧ (s.chain? 9).isSome = true ∧ 1 = ceilDiv (2 + 4) 6 ∧ s.runningIn 9 = none ∧ s.teamLoaded 0 = true) ∧
    ((after (exec (.chainNew 8 0 12 7 1 4 2 1 4) s)).chain? 8).map Chain.kvw = some 8 ∧ lastStatus (after (exec (.chainNew 9 0 12 7 1 4 2 1 4) s)) = 4 ∧
    (after (exec (.chainFree 9) s)).chain? 9 = none ∧ ((after (exec (.bind 9 0) s)).chain? 9).map Chain.team = some (some 0) := by decide +kernel

/-- PrepareAllocates: a plate that stands in the team's vaults; plates that find the last free slot and none. -/
theorem test_prepare :
    let s := plated { plate0 with tier := 0, hpool := 0 }
    let a := { plated plate0 with plt := { (plated plate0).plt with pools := [(1, { used := [(0, 0, 9)] })] } }
    let z := { a with plt := { a.plt with pools := [(1, { used := [(0, 0, 9), (0, 1, 9)] })] } }
    let c := ((a.chain? 9).getD { tenant := 0, log2n := 0, kvw := 0, depth := 0, jb := 0, lhb := 0, hpool := 0, lhs := 0 })
    (s.teamLoaded 0 = true ∧ s.sweepChain 9 = s ∧ (a.takeSlot 1 0 1 9 1 0).2 = .ok ∧ s.keysOf 0 (s.firstPos 9 c) 15 c = [0] ∧ s.poolTeam 0 = 0 ∧ plateOf c.shadow 1 = none ∧
      a.plateLinesOf c c.kvw 0 ≤ a.poolLines 1 ∧ a.findSlot 1 0 9 = some 1 ∧ z.findSlot 1 0 9 = none) ∧
    ((after (exec (.prepare 0 0 ⟨77, [(9, 15)]⟩) s)).turnPlates 0).prepared = [(9, 15)] ∧ lastStatus (after (exec (.prepare 0 0 ⟨77, [(9, 15)]⟩) s)) = 0 ∧
    (plateAt (a.allocPlate 9 0 1).1 9 1).map Plate.hslot = some 1 ∧ (z.allocPlate 9 0 1).2 = .eNoroom ∧
    ((after (exec (.prepare 0 0 ⟨77, [(9, 15)]⟩) s)).turnPlates 0).turn = 77 := by decide +kernel

/-- CommitAndDiscard: the first COMMIT of a turn, the same again, a DISCARD. -/
theorem test_commit :
    let s := plated { plate0 with tent := true }
    let a := after (exec (.commit 0 4 1 [(9, 15)] []) s)
    ((s.chain? 9).isSome = true ∧ s.sweepChain 9 = s ∧ (s.turnPlates 0).finished ≠ some (4, 1) ∧ s.teamLoaded 0 = true ∧ (a.turnPlates 0).finished = some (4, 1)) ∧
    (a.chain? 9).map (fun c => (c.committed, c.shadow.map Plate.tent)) = some (15, [false]) ∧
    ((after (exec (.commit 0 4 1 [(9, 99)] []) a)).chain? 9).map Chain.committed = some 15 ∧
    ((after (exec (.discard 0 4 1) s)).chain? 9).map Chain.committed = some 0 := by decide +kernel

/-- PlatesMoveAndAreLost. -/
theorem test_plate_moves :
    let s := plated plate0
    let m := plated { plate0 with moving := true }
    let z := plated plate0 { pools := [(0, { used := [(0, 0, 8), (0, 1, 8), (0, 2, 8), (0, 3, 8)] })] }
    (s.poolOn 0 = true ∧ z.findSlot 0 0 9 = none ∧ z.movable 9 plate0 = true ∧ s.poolTier 0 ≠ 3 ∧ s.movable 9 plate0 = true ∧ (∀ c ∈ s.chain? 9, s.plateLinesOf c 1 0 ≤ s.poolLines 0) ∧
      s.findSlot 0 0 9 = some 0 ∧ m.movable 9 { plate0 with moving := true } = false) ∧
    (after (exec (.move 9 0 0) s)).plt.moves = [⟨9, 0, 0, 0, 0⟩] ∧ (plateAt (after (exec (.move 9 0 0) s)) 9 0).map Plate.moving = some true ∧
    lastStatus (after (exec (.move 9 0 0) m)) = 5 ∧ (after (exec (.move 9 0 0) z)).plt.refusal = some (0, .eNoroom) ∧
    (plateAt (after (exec (.markLost 9 0) s)) 9 0).map Plate.lost = some true := by
  decide +kernel

/-- PlateCopiesEnd: a staging, a write-back and a move between slots of this device. -/
theorem test_plate_copies :
    let x : PlateCopy := ⟨9, 0, 0, 0, 3⟩
    let s := plated plate0 { staging := [x] }
    let w := plated { plate0 with staged := true, wbPend := true } { writeBacks := [(9, 0, 0, 16)] }
    let m := plated { plate0 with moving := true } { moves := [x] }
    let b : State := { s with gpoison := [gddrBase 0 / 64] }
    let home := gLoc (s.slotAddr 1 0 0)
    let back := w.writeBackLines (gLoc (w.slotAddr 0 0 0)) home (plateSpan (w.team 0).bytes.plateFmt 1 4 0 16)
    (gDev (s.slotAddr 1 0 0) = s.devId ∧ (s.getLocal .plates home 256).2.1 = .ok ∧ (b.getLocal .plates home 256).2.1 = .eMedia ∧
      s.hasFailed 9 0 .stage = false ∧ (s.writeLocal (gLoc (s.slotAddr 0 0 3)) (zeroBytes 256)).2 = .ok ∧ back.2 = .ok ∧
      s.txOf (.plate 9 0 .zero) = [] ∧ s.plt.staging.find? (fun x => x.seq == 9 && x.key == 0) = some x ∧
      s.localCheck .plates false (gLoc (s.slotAddr 1 0 0)) 256 = none ∧ gDev (s.slotAddr 0 0 3) = s.devId ∧
      w.localCheck .plates true (gLoc (w.slotAddr 1 0 0)) 256 = none ∧
      m.localCheck .plates true (gLoc (m.slotAddr 0 0 3)) 256 = none ∧ m.localCheck .plates false (gLoc (m.slotAddr 1 0 0)) 256 = none) ∧
    (plateAt (after (exec (.stagingCopyDone 9 0) s)) 9 0).map Plate.sslot = some 3 ∧
    (plateAt (after (exec (.stagingCopyDone 9 0) b)) 9 0).map Plate.lost = some true ∧
    (after (exec (.writeBackDone 9 0) w)).plt.writeBacks = [] ∧
    (plateAt (after (exec (.moveComplete 9 0 false) m)) 9 0).map (fun p => (p.tier, p.hslot)) = some (0, 3) := by decide +kernel

/-- PoolsMakeRoom: an eviction, a demotion, a reclaim; above LOW nothing. -/
theorem test_pools_make_room :
    let p : Plate := { plate0 with staged := true }
    let v : Plate := { plate0 with tier := 0, hpool := 0 }
    let full : Plates := { pools := [(0, { used := [(0, 0, 9), (0, 1, 8)] })] }
    let rs := [(Reg.pltPoolCount 0, 2), (Reg.pltPoolWm 0, 0x413F3F)]
    let e := (plated p full).withRegs rs
    let d := (plated v full).withRegs rs
    let r := plated plate0 { full with deferred := [(0, 0, 0, 0, 0)], deferredNodes := [(0, 5, 0)], nodes := [(5, ⟨0, none, []⟩)] }
    (e.lowMark 1 ≤ e.freeAt 1 0 ∧ e.lowMark 1 ≤ e.poolFree 1 ∧ e.poolOn 0 = true ∧ e.poolTier 0 = 0 ∧ e.freeAt 0 0 < e.lowMark 0 ∧
      e.freeAt 0 0 < e.highMark 0 ∧ e.byStamp (evictable e 0 0) = [(9, p)] ∧ d.fld (Reg.pltPoolWm 0) 22 1 = 1 ∧ d.poolFree 0 < d.lowMark 0 ∧
      d.freeSoon 0 < d.highMark 0 ∧ d.byStamp (fun seq x => x.tier == 0 && x.hpool == 0 && d.movable seq x) = [(9, v)] ∧
      (∀ c ∈ d.chain? 9, d.plateLinesOf c 1 0 ≤ d.poolLines 1) ∧ d.findSlot 1 0 9 = some 0) ∧
    after (exec (.eviction 1 0) e) = e ∧ after (exec (.demotion 1) e) = e ∧ (after (exec (.eviction 0 0) e)).reg Reg.pltEvictCnt = 1 ∧
    ((after (exec (.eviction 0 0) e)).pool 0).used = [(0, 1, 8)] ∧ (after (exec (.demotion 0) d)).plt.moves = [⟨9, 0, 1, 0, 0⟩] ∧
    (after (exec (.reclaim 0) r)).plt.deferred = [] ∧ (after (exec (.reclaim 0) r)).plt.nodes = [] ∧ ((after (exec (.reclaim 0) r)).pool 0).used = [(0, 1, 8)] := by decide +kernel

/-! ## Links and ports -/

/-- Port 21 in a state, with its record. -/
def linked (st : Nat) (x : Port) : State := { up.withRegs [(Reg.portStatus 21, st), (Reg.portCtrl 21, 0x3FF), (Reg.clkStatus, 0x10), (Reg.clkPllCfg 4, 1366)] with fab := { ports := [(21, x)] } }

/-- The header of a codeword of `lane` in round `k`. -/
def roundHdr (lane k : Nat) : BitVec 20 := BitVec.ofNat 20 (codewordHeader lane k)

/-- Port 21 on its six lanes 2 to 7. -/
def six (x : Port) : State := (linked 2 x).withRegs [(Reg.portStatus 21, 2 + 0xFC * 8)]

/-- CodewordsAreCounted, RoundsAreOrdered: clean, corrected and uncorrectable codewords; the last round number on six lanes, of which lane 7
is the sixth; a codeword of a lane that is not active and one whose header names another lane. -/
theorem test_codewords :
    let s := six {}
    let r := six { rounds := [2, 3, 4, 5, 6].map (fun l => (8191, l, true, [])) }
    let t := after (exec (.codewordReceive 21 ⟨7, roundHdr 7 8191, .clean, []⟩) r)
    let e := six { rounds := [(5, 2, true, [])] }
    (portWf 21 = true ∧ s.portLanes 21 = [2, 3, 4, 5, 6, 7] ∧ 7 ∈ r.portLanes 21 ∧ 0 ∉ s.portLanes 21 ∧
      (∀ l ∈ r.portLanes 21, l ≠ 7 → (8191, l, true, []) ∈ (r.port 21).rounds) ∧ (∀ x ∈ (r.port 21).rounds, x.1 = 8191 → x.2.2.1 = true) ∧
      (∀ x ∈ (e.port 21).rounds, x.2.2.2 = [])) ∧
    (after (exec (.codewordReceive 21 ⟨7, roundHdr 7 8191, .corrected 3, []⟩) e)).reg (Reg.portFecCe 21) = 1 ∧
    (after (exec (.codewordReceive 21 ⟨7, roundHdr 7 8191, .uncorrectable, []⟩) e)).reg (Reg.portFecUe 21) = 1 ∧
    after (exec (.codewordReceive 21 ⟨0, roundHdr 0 8191, .clean, [7]⟩) s) = s ∧
    (t.port 21).placed.length = 60 ∧ (t.port 21).placed[59]? = some (60 * 8191 + 59, 7, 9) ∧ (t.port 21).placed[6]? = some (60 * 8191 + 6, 2, 1) ∧
    ((after (exec (.codewordReceive 21 ⟨7, roundHdr 6 8191, .clean, []⟩) r)).port 21).placed = [] := by decide +kernel

/-- A flit that comes on port 21: its CRC covers the sequence number `seq`. -/
def flitIn (pay : BitVec 480) (kind cls ack seq : Nat) : Instr :=
  .flitReceive 21 pay (BitVec.ofNat 2 kind) (BitVec.ofNat 2 cls) (BitVec.ofNat 28 (ack + 16 * flitCrc (leBytes 60 pay.toNat) kind cls ack seq))

/-- CRC-24 of nine bytes, from the definition of R427 by hand calculation outside the model. -/
theorem test_crc24 : crc24 ("123456789".toList.map (fun c => BitVec.ofNat 8 c.toNat)) = 0xc3a394 := by decide +kernel

/-- FlitsPass: the first and the second flit of a WRITE of two lines, with the sequence numbers wrapping; link records of the codes 1, 3 and 6,
and an IDLE flit, which acknowledges. -/
theorem test_flits_pass :
    let s := linked 2 { txSeq := 1, acked := 65535, rxSeq := 65535, kept := [⟨1, 0, []⟩, ⟨2, 0, []⟩] }
    let pay : BitVec 480 := 0x12#480 + (1#480 <<< 44)
    let c := linked 2 { arriving := [[], leBytes 60 pay.toNat, [], []] }
    let hd := (linked 2 { arriving := [[], leBytes 60 (2 ^ 44 + 2 ^ 45 + 0x12), [], []] })
    let w := fun (bs : List Byte) => 60 * flitsOf (dataLength (bitsOf (leAt bs 0 16) 0 4) (bitsOf (leAt bs 0 16) 44 8) (bitsOf (leAt bs 0 16) 56 8))
    let t := after (exec (flitIn pay 1 1 15 65535) s)
    (portWf 21 = true ∧ s.portSt 21 = 2 ∧ w (leBytes 60 pay.toNat) = 120 ∧ w (leBytes 60 0x16) = 60 ∧ w (leBytes 60 (2 ^ 44 + 2 ^ 45 + 0x12)) = 180 ∧
      (s.port 21).idle = true ∧ (s.port 21).told = (s.port 21).rxFreed ∧ (s.port 21).rxFreed.length = 4 ∧ (s.port 21).resend = 0) ∧
    (t.port 21).rxSeq = 0 ∧ (t.port 21).acked = 1 ∧ (t.port 21).kept = [] ∧ t.outbox.take 1 = [.link 21 1 (2 ^ 16)] ∧ t.outbox.length = 2 ∧
    nth [] (t.port 21).arriving 1 = leBytes 60 pay.toNat ∧ nth [] ((after (exec (flitIn 0 2 1 0 0) hd)).port 21).arriving 1 ≠ [] ∧
    nth [1] ((after (exec (flitIn 0 2 1 0 0) c)).port 21).arriving 1 = [] ∧
    ((after (exec (flitIn (0x01#480 + (7#480 <<< 64)) 3 0 0 0) s)).port 21).freed = [0, 0, 0, 7] ∧
    (after (exec (flitIn (0x03#480 + (9#480 <<< 64)) 3 0 0 0) s)).reg (Reg.portPeerSerial 21) = 9 ∧
    (after (exec (flitIn 6 3 0 0 0) s)).regs = s.regs ∧ ((after (exec (flitIn 0 0 0 1 0) s)).port 21).acked = 0 := by decide +kernel

/-- FlitsAndReplay: a flit whose CRC is wrong, before and while flits are discarded; the RETRY is repeated. -/
theorem test_link :
    let s := linked 2 { rxSeq := 65535 }
    let d := linked 2 { discarding := true, rxSeq := 7 }
    (portWf 21 = true ∧ s.portSt 21 = 2 ∧ bitsOf 0 4 24 ≠ flitCrc (leBytes 60 0) 1 0 0 65535 ∧ bitsOf 0 4 24 ≠ flitCrc (leBytes 60 0) 1 0 0 7 ∧
      bitsOf 0 4 24 ≠ flitCrc (leBytes 60 0) 0 0 0 65535) ∧
    (after (exec (.flitReceive 21 0 1 0 0) s)).outbox.take 1 = [.link 21 2 65535] ∧
    after (exec (.flitReceive 21 0 1 0 0) d) = d.bump (Reg.portCrcCnt 21) 1 ∧ after (exec (.flitReceive 21 0 0 0 0) s) = s.bump (Reg.portCrcCnt 21) 1 ∧
    (after (exec (.retryRepeat 21) d)).outbox.take 1 = [.link 21 2 7] := by decide +kernel

/-- FlitsAndReplay (Replays): a RETRY for the last flit sent and an expired timer, with the sequence numbers wrapping; a held port does not replay. -/
theorem test_replay :
    let f : Flit := ⟨1, 0, zeroBytes 60⟩
    let s := (linked 2 { txSeq := 1, acked := 65535, kept := [f, f], replayed := 65535, replays := 7 }).withRegs [(Reg.ngvId, 0x1001)]
    let h := s.withRegs [(Reg.slcStatus, 1)]
    let t := after (exec (.retry 21 0) s)
    let u := after (exec (.replayTimeout 21) s)
    ((0 + 2 ^ 16 - 65535) % 2 ^ 16 < (s.port 21).unacked ∧ (s.port 21).txSeq ≠ (s.port 21).acked ∧ s.fld Reg.ngvCfg 8 8 = 16 ∧
      s.portHeld 21 = false ∧ s.portShut 21 = false ∧ h.portHeld 21 = true ∧ (s.port 21).idle = true) ∧
    (t.port 21).replayed = 0 ∧ (t.port 21).replays = 1 ∧ t.outbox = [.flit 21 0 0 (f.bytes 0 0)] ∧ (u.port 21).replays = 8 ∧
    u.outbox = [.flit 21 0 0 (f.bytes 0 65535), .flit 21 0 1 (f.bytes 0 0)] ∧ u.portSt 21 = 2 ∧
    after (exec (.retry 21 0) h) = h ∧ after (exec (.replayTimeout 21) h) = h := by decide +kernel

/-- PortsTrainAndRetrain: eight lanes, seven, and too few; a retrain that passes and one that does not; a DOWN port after 64 ticks. -/
theorem test_port_training :
    let t := linked 1 { peerLanes := 255 }
    let r := linked 3 { replays := 3 }
    let o := t.withRegs [(Reg.clkPllCfg 4, 1358)]
    let d := (linked 4 { downTick := 1 }).withRegs [(Reg.glbTicks, 65), (Reg.portPrbs 21, 0)]
    let both := fun (u : Nat) => (onesOf 8 (Nat.land (Nat.land u (t.fld (Reg.portCtrl 21) 2 8)) (t.port 21).peerLanes)).length
    (t.portSt 21 = 1 ∧ r.portSt 21 = 3 ∧ d.portSt 21 = 4 ∧ both 255 = 8 ∧ both 0xDF = 7 ∧ both 0x1F = 5 ∧ d.fld (Reg.portCtrl 21) 0 1 = 1 ∧
      d.fld (Reg.portPrbs 21) 0 1 = 0 ∧ d.fld Reg.pwrStatus 0 2 = 0 ∧ r.linesTrain = true ∧ t.linesTrain = true ∧ o.linesTrain = false) ∧
    (after (exec (.portTraining 21 true 255) o)).portSt 21 = 4 ∧
    (after (exec (.portRetrain 21 none) (linked 2 {}))).portSt 21 = 3 ∧ (after (exec (.portRetrain 21 (some true)) r)).portSt 21 = 2 ∧
    (after (exec (.portRetrain 21 (some false)) r)).portSt 21 = 1 ∧ ((after (exec (.lanes 21 0x3F) t)).port 21).peerLanes = 0x3F ∧
    (after (exec (.portTraining 21 true 255) t)).fld (Reg.portStatus 21) 3 8 = 255 ∧ Out.link 21 4 255 ∈ (after (exec (.portTraining 21 true 255) t)).outbox ∧
    (after (exec (.portTraining 21 true 0xDF) t)).fld (Reg.portStatus 21) 3 8 = 0x5F ∧ (after (exec (.portTraining 21 true 0xDF) t)).fld (Reg.portStatus 21) 11 1 = 1 ∧
    (after (exec (.portTraining 21 true 0x1F) t)).portSt 21 = 4 ∧ (after (exec (.portTraining 21 false 255) t)).portSt 21 = 4 ∧
    (after (exec (.portDownRetry 21) d)).portSt 21 = 1 := by decide +kernel

/-- PortsTrainAndRetrain: a port that comes back UP sends the flit that has no acknowledgement again. -/
theorem test_retrain_replays :
    let f : Flit := ⟨1, 0, zeroBytes 60⟩
    let s := (linked 3 { txSeq := 9, acked := 8, kept := [f] }).withRegs [(Reg.ngvId, 0x1001)]
    let t := after (exec (.portRetrain 21 (some true)) s)
    (s.portSt 21 = 3 ∧ s.linesTrain = true ∧ (s.port 21).unacked ≠ 0 ∧ s.portShut 21 = false) ∧
    t.outbox = [.flit 21 0 0 (f.bytes 0 8)] ∧ t.reg (Reg.portRetryCnt 21) = 1 ∧ t.portSt 21 = 2 := by decide +kernel

/-- LinkRecordsAndPortRegisters: each record, and each register's accepted and refused value at its limit. -/
theorem test_port_registers :
    let u := linked 2 {}
    let z := (linked 0 {}).withRegs [(Reg.portCtrl 21, 0), (Reg.portPrbs 21, 0)]
    let w := fun (o : Host.Outcome State Fault Refusal) (a : Nat) => ((after o).reg a, (after o).reg Reg.hstRejCnt)
    (Writable u 0#6 (Reg.ngvDest 4095) ∧ Writable u 0#6 Reg.ngvId ∧ Writable z 0#6 (Reg.portCtrl 21) ∧ Writable z 0#6 (Reg.portCred 21) ∧
      Writable z 0#6 (Reg.portPrbs 21) ∧ u.fld Reg.ngvId 12 1 = 0 ∧ z.fld Reg.pwrStatus 0 2 = 0) ∧
    ((after (exec (.credit 21 1 2 3 4) u)).port 21).freed = [1, 2, 3, 4] ∧ (after (exec (.ident 21 9 4095 true 21) u)).fld (Reg.portPeer 21) 13 5 = 21 ∧
    (after (exec (.echo 21 6 none) u)).outbox.take 1 = [.link 21 5 6] ∧ (after (exec (.echo 21 6 (some 8)) u)).reg (Reg.portRtt 21) = 8 ∧
    w (exec (.ngvDest 0 4095 (1#64 <<< 48)) u) (Reg.ngvDest 4095) = (2 ^ 48, 0) ∧ w (exec (.ngvDest 0 4095 (1#64 <<< 49)) u) (Reg.ngvDest 4095) = (0, 1) ∧
    w (exec (.ngvId 0 0x1FFF) u) Reg.ngvId = (0x1FFF, 0) ∧ w (exec (.ngvId 0 0x1001) (u.withRegs [(Reg.ngvId, 0x1FFF)])) Reg.ngvId = (0x1FFF, 1) ∧
    (after (exec (.portCtrl 0 21 0x3FF) z)).portSt 21 = 1 ∧ (after (exec (.portCtrl 0 21 0x3FE) u)).portSt 21 = 0 ∧
    w (exec (.portCred 0 21 0x20202020) z) (Reg.portCred 21) = (0x20202020, 0) ∧ w (exec (.portCred 0 21 0x20202021) z) (Reg.portCred 21) = (0x18082040, 1) ∧
    w (exec (.portCred 0 21 0x20202000) z) (Reg.portCred 21) = (0x18082040, 1) ∧ w (exec (.portCred 0 21 0x01010101) u) (Reg.portCred 21) = (0x18082040, 1) ∧
    (after (exec (.portPrbs 0 21 0x7FF) z)).fld (Reg.portPrbs 21) 0 3 = 7 ∧ (after (exec (.portPrbs 0 21 1) u)).reg Reg.hstRejCnt = 1 := by
  unfold Writable; decide +kernel

/-! ## The fabric -/

/-- A transaction of device 2 for device 1. -/
def hdr1 : Hdr := { hdr0 with tag := 5, src := 2, dst := 1 }

/-- Device 1 in a slice with devices 0, 2 and 3; port 21 is UP and leads to them. -/
def sliced : State :=
  (linked 2 {}).withRegs [(Reg.ngvId, 0x1001), (Reg.slcStatus, 1), (Reg.slcAcc 2, 1), (Reg.slcAcc 3, 1), (Reg.ngvDest 0, 2 ^ 21 + 2 ^ 48), (Reg.ngvDest 2, 2 ^ 21 + 2 ^ 48), (Reg.ngvDest 3, 2 ^ 21 + 2 ^ 48),
    (Reg.slcCfg, 0x01040000), (Reg.slcUplink, 2 ^ 21), (Reg.gdrRgnState 0, 2), (Reg.slcRank 0, 0x1000), (Reg.slcRank 1, 0x9001), (Reg.slcRank 2, 0x11002),
    (Reg.slcRank 3, 0x19003)]

/-- The transactions a command sends: port, opcode, status, hops. -/
def ops (o : Host.Outcome State Fault Refusal) : List (Nat × Nat × Nat × Nat) :=
  (after o).outbox.flatMap (fun q => match q with
    | .tx p op r => [(p, op, r.status, r.hops)]
    | _ => [])

def hdrW : Hdr := { hdr1 with addr := gddrBase 0, data := List.replicate 32 7 }
def hdrBad : Hdr := { hdr1 with addr := gddrBase 1 }
def hdrCopy : Hdr := { hdrW with data := leBytes 8 (2 ^ 52 + gddrBase 0 + 64) }
def hdrOn : Hdr := { hdr1 with dst := 3 }

/-- FabricRequestsExecute and CopiesAndTransit: the hypotheses of each clause, for requests in range, out of range and on their way. -/
theorem test_fabric_hypotheses :
    (Reaches 21 hdrW sliced ∧ inApertures hdrW.addr = false ∧ sliced.localCheck (.remote 2) false hdrW.addr 32 = none ∧
      sliced.localCheck (.remote 2) true hdrW.addr 32 = none ∧ sliced.localCheck (.remote 2) false hdrBad.addr 32 = some .eRange ∧
      sliced.localCheck (.remote 2) true hdrBad.addr 32 = some .eRange ∧ Reaches 21 hdrBad sliced) ∧
    ((sliced.readLocal hdrW.addr 32).2.1 = .ok ∧ sliced.mayReach (.remote 2) true 0 32 = some true ∧ sliced.routeTo 2 0 5 = some 21 ∧
      Reaches 21 hdrCopy sliced ∧ sliced.localCheck (.remote 2) true (gddrBase 0 + 64) 32 = none ∧ hdrOn.wf = true ∧
      sliced.member 3 = true ∧ sliced.member 2 = true ∧ sliced.routeTo 3 0 5 = some 21) := by unfold Reaches; decide +kernel

/-- LocalMemory: the last bytes of the last vault, and of region 0's first sector. -/
theorem test_local_memory :
    let s := sliced
    let a := 4095 * 2 ^ 24 + 2 ^ 24 - 2
    (s.mem.wf = true ∧ inVaults a = true ∧ SoundLine s 4095 524287 ∧ inVaults (gddrBase 0 + 62) = false ∧ SoundGddr s ∧ s.fab.heldReads = []) ∧
    (s.writeLocal a [7, 9]).2 = .ok ∧ ((s.writeLocal a [7, 9]).1.readLocal a 2).2 = (.ok, [7, 9]) ∧
    (((s.writeLocal (gddrBase 0 + 62) [7, 9]).1).readLocal (gddrBase 0 + 62) 2).2 = (.ok, [7, 9]) := by
  unfold SoundLine SoundGddr; decide +kernel

/-- FabricRequestsExecute and CopiesAndTransit: each kind of request, one out of range, one that is forwarded and one without hops. -/
theorem test_fabric :
    let s := sliced
    let w := after (exec (.write 21 hdrW) s)
    ops (exec (.read 21 hdrW) s) = [(21, 8, 0, 15)] ∧ ops (exec (.read 21 hdrBad) s) = [(21, 8, 2, 15)] ∧
    w.mem.read (gddrBase 0) 2 = [7, 7] ∧ ops (exec (.write 21 hdrBad) s) = [(21, 9, 2, 15)] ∧
    (after (exec (.atomicAdd 21 hdrW) w)).mem.read (gddrBase 0) 1 = [14] ∧
    ops (exec (.atomicAdd 21 hdrBad) s) = [(21, 9, 2, 15)] ∧ (after (exec (.signal 21 { hdr1 with addr := 0x4FF }) s)).reg (Reg.ngvSig 255) = 4 ∧
    (after (exec (.copy 21 hdrCopy) w)).mem.read (gddrBase 0 + 64) 1 = [7] ∧
    ops (exec (.transitForward 21 8 hdrOn) s) = [(21, 8, 0, 14)] ∧
    (after (exec (.transitForward 21 8 { hdrOn with hops := 0 }) s)).reg Reg.ngvTtlDropCnt = 1 := by decide +kernel

/-- FabricRequestsExecute, CopiesAndTransit: a SIGNAL of a device outside the slice, and a COPY whose destination is out of range. -/
theorem test_fabric_refused :
    let s := sliced.withRegs [(Reg.ngvDest 5, 2 ^ 21 + 2 ^ 48)]
    let h : Hdr := { hdr1 with src := 5 }
    let c : Hdr := { hdr1 with addr := gddrBase 0, data := leBytes 8 (2 ^ 52 + gddrBase 1) }
    (Reaches 21 h s ∧ s.mayReach (.remote 5) true 0 32 = some false ∧ Reaches 21 c s ∧
      s.localCheck (.remote 2) true (gddrBase 1) 32 = some .eRange ∧ s.localCheck (.remote 2) false (gddrBase 0) 32 = none) ∧
    (after (exec (.signal 21 h) s)).reg Reg.ngvRejectCnt = 1 ∧ (after (exec (.copy 21 c) s)).reg Reg.ngvRejectCnt = 1 := by
  unfold Reaches; decide +kernel

/-- ApertureReads: of a COMPLETE context, of one whose tag is newer, and of one that is still FOLDING. -/
theorem test_aperture_reads :
    let ctx := fun (st : Nat) => 1 + 3 * 2 ^ 3 + gddrBase 0 * 2 ^ 64 + st * 2 ^ 206 + 9 * 2 ^ 192
    let s := fun (st : Nat) => sliced.withRegs [(Reg.ngvRctx 255, ctx st)]
    let h : Hdr := { hdr1 with addr := apertureBase 255, turn := 9 }
    (Reaches 21 h (s 2) ∧ Reaches 21 h (s 1) ∧ inApertures h.addr = true ∧ ctxOf h.addr = 255 ∧ (s 2).mayReach (.remote 2) false h.addr 32 = some true ∧
      (s 2).ctx 255 0 1 = 1 ∧ h.addr % 0x2000 + 32 ≤ 32 * ((s 2).ctx 255 9 8 + 1) ∧ (s 2).ctx 255 206 2 = 2 ∧ (s 2).tagOrder 255 9 0 = .eq ∧
      (s 2).tagOrder 255 8 0 = .lt ∧ (s 1).ctx 255 206 2 = 1 ∧ (s 2).routeTo 2 0 5 = some 21) ∧
    ops (exec (.read 21 h) (s 2)) = [(21, 8, 0, 15)] ∧ ops (exec (.read 21 { h with turn := 8 }) (s 2)) = [(21, 8, 2, 15)] ∧
    (after (exec (.read 21 h) (s 1))).fab.heldReads = [h] := by unfold Reaches; decide +kernel

/-- ReductionContributions: the first of rank 0, one that is parked, a stale one. -/
theorem test_reduce :
    let ctx := fun (st : Nat) => 1 + 3 * 2 ^ 3 + (gddrBase 0) * 2 ^ 64 + (gddrBase 0 + 4096) * 2 ^ 128 + st * 2 ^ 206 + 9 * 2 ^ 192 +
      (if st = 0 then 0 else 2 ^ 208 + 2 ^ 256) + 2 * 2 ^ 512 + 3 * 2 ^ 524 + 4 * 2 ^ 536 + 5 * 2 ^ 548
    let s := fun (st : Nat) => sliced.withRegs [(Reg.ngvRctx 255, ctx st)]
    let h : Hdr := { hdr1 with addr := apertureBase 255, turn := 9, data := List.replicate 32 7 }
    let h2 : Hdr := { h with src := 4 }
    let z := sliced.withRegs [(Reg.ngvRctx 255, ctx 1), (Reg.slcAcc 4, 1)]
    (Reaches 21 h (s 0) ∧ (s 0).mayReach (.remote 2) true h.addr 32 = some true ∧ inApertures h.addr = true ∧ h.addr % 0x2000 = 0 ∧ ctxOf h.addr = 255 ∧
      (s 0).ctx 255 0 1 = 1 ∧ (s 0).ctx 255 9 8 = 0 ∧ (s 0).rankOf 255 2 = some 0 ∧ (s 0).ctx 255 206 2 = 0 ∧ 0 < (s 0).ctx 255 3 6 ∧
      Reaches 21 h2 z ∧ z.rankOf 255 4 = some 2 ∧ z.ctx 255 206 2 = 1 ∧ z.tagOrder 255 9 0 = .eq ∧ z.ctx 255 258 1 = 0 ∧ z.ctx 255 208 7 < 2 ∧
      (s 1).tagOrder 255 8 0 = .lt ∧ (s 1).ctx 255 206 2 ≠ 0) ∧
    (after (exec (.reduce 21 h) (s 0))).mem.read (gddrBase 0) 1 = [7] ∧ (after (exec (.reduce 21 h) (s 0))).ctx 255 206 2 = 1 ∧
    (after (exec (.reduce 21 h2) z)).mem.read (gddrBase 0 + 4096 + 32) 1 = [7] ∧
    (after (exec (.reduce 21 { h with turn := 8 }) (s 1))).reg Reg.ngvRedStaleCnt = 1 := by unfold Reaches; decide +kernel

/-- ResponsesCompleteRequests: an RDRSP, an ACK, late ones, a timeout, the end of a hold. -/
theorem test_responses :
    let d : DmaDesc := { idx := 3, kind := 0, cls := 0, dmAddr := 64, bytes := 64, gaddr := 2 ^ 53, first := 0, blocks := 0, plate := none, done := false }
    let x : FabTx := ⟨1, { hdr1 with src := 1, dst := 2, tag := 4095 }, .dma 0 1 3, 0, true, none, []⟩
    let s := fun (x : FabTx) => ({ sliced with cores := [(0, { cur := { dq := queue1 d } })], fab := { sliced.fab with outs := [x], held := [(true, 7), (false, 7)] } } : State)
    let w : FabTx := { x with op := 2 }
    let h : Hdr := { hdr1 with tag := 4095, data := List.replicate 32 7 }
    let found := fun (s : State) (rd : Bool) (tag : Nat) =>
      s.fab.outs.find? (fun x => x.sent && x.done.isNone && readSpace x.op == rd && x.hdr.tag == tag)
    (Reaches 21 h (s x) ∧ (s x).desc? 0 1 3 = some d ∧ x.owner = .dma 0 1 3 ∧ found (s x) true 4095 = some x ∧ statusOf h.status = .ok ∧ found (s w) false 4095 = some w ∧
      found (s x) true 7 = none ∧ (s x).fab.held.contains (true, 7) = true) ∧
    (after (exec (.rdrsp 21 h) (s x))).dm 0 64 1 = [7] ∧ (after (exec (.ack 21 h) (s w))).fab.outs.map FabTx.done = [some .ok] ∧
    (after (exec (.rdrsp 21 { h with tag := 7 }) (s x))).reg Reg.ngvLateRspCnt = 1 ∧ (after (exec (.ack 21 { h with tag := 7 }) (s x))).reg Reg.ngvLateRspCnt = 1 ∧
    (after (exec (.transactionTimeout true 4095) (s x))).fab.outs.map FabTx.done = [some .eTimeout] ∧
    (after (exec (.tagHoldExpiry true 7) (s x))).fab.held = [(false, 7)] := by unfold Reaches; decide +kernel

/-! ## Slices -/

/-- SliceCommands: RESTORE, DISSOLVE, CUT by command and by message, in a T2 shape and another. -/
theorem test_slice_commands :
    let s := sliced
    let t := sliced.withRegs [(Reg.slcCfg, 0x81040000)]
    let d := sliced.withRegs [(Reg.slcStatus, 2), (Reg.slcCfg, 0x81040000)]
    let a := sliced.withRegs [(Reg.slcStatus, 0)]
    let r := { t with teams := [(0, { running := true })] }
    (Writable s 0#6 Reg.slcCtrl ∧ s.dlr.slots = [] ∧ s.sliceSt ≠ 0 ∧ d.sliceSt = 2 ∧ CanLeave 3 t ∧ 3 ≠ t.slcRankNo ∧ s.t2Shape = false ∧
      s.rankLive 3 = true ∧ r.t2Shape = true ∧ s.slcSize = 4 ∧ firstCheck a.activateChecks = none ∧ firstCheck s.activateChecks = some .eState ∧
      d.unreached d.others (fun _ _ => false) = false ∧ d.leadsOut d.others [false] = false) ∧
    (after (exec (.dissolve 0) s)).sliceSt = 0 ∧ (after (exec (.restore 0) d)).sliceSt = 1 ∧ slcLast (after (exec (.restore 0) s)) = 4 ∧
    (after (exec (.activate 0) a)).sliceSt = 1 ∧ slcLast (after (exec (.activate 0) s)) = 4 ∧ (after (exec (.cut 0 3) t)).sliceSt = 2 ∧ (after (exec (.cut 0 3) t)).rankLive 3 = false ∧
    slcLast (after (exec (.cut 0 4) t)) = 1 ∧ slcLast (after (exec (.cut 0 0) t)) = 1 ∧ (after (exec (.cutMessage 3) t)).sliceSt = 2 ∧
    (after (exec (.cutMessage 3) s)).sliceSt = 3 ∧ (after (exec (.cutMessage 3) r)).dlr.cuts = [3] := by unfold Writable CanLeave; decide +kernel

/-! ## Rings and replay jobs, the Burin's registers -/

/-- RingAndBurinRegisters: each write accepted at its limit and refused beside it. -/
theorem test_ring_registers :
    let rec1 : RingRec := ⟨0, 64, true⟩
    let s := { up.withRegs [(Reg.detRingHead, 128), (Reg.detTlogHead, 64), (Reg.detRingBase, gddrBase 0), (Reg.detRingSize, 1),
      (Reg.detTlogBase, gddrBase 0 + 4096), (Reg.detTlogSize, 1), (Reg.gdrRgnState 0, 2), (Reg.burWinBase 15, gddrBase 0)] with
      det := { proofs := [rec1, { rec1 with start := 64 }], tlogs := [rec1] } }
    let on := s.withRegs [(Reg.burWinCfg 15, 3)]
    let w := fun (o : Host.Outcome State Fault Refusal) (a : Nat) => ((after o).reg a, (after o).reg Reg.hstRejCnt)
    (Writable s 0#6 Reg.detRingTail ∧ Writable s 0#6 Reg.detTlogTail ∧ Writable s 0#6 Reg.detCfg ∧ Writable s 0#6 Reg.burTableSel ∧
      Writable s 0#6 (Reg.burWinCfg 15) ∧ s.badRing (s.detRing false) (s.detRing true) = false ∧ s.badRing (s.detRing true) (s.detRing false) = false ∧
      windowPlaced (gddrBase 0) (winBytes 1 1) = true ∧ (∀ k < 16, s.fld (Reg.burWinCfg k) 0 1 = 0)) ∧
    w (exec (.detRingTail 0 128) s) Reg.detRingTail = (128, 0) ∧ (after (exec (.detRingTail 0 64) s)).det.proofs = [{ rec1 with start := 64 }] ∧
    w (exec (.detRingTail 0 192) s) Reg.detRingTail = (0, 1) ∧ w (exec (.detRingTail 0 63) s) Reg.detRingTail = (0, 1) ∧
    w (exec (.detTlogTail 0 64) s) Reg.detTlogTail = (64, 0) ∧ w (exec (.detCfg 0 3) s) Reg.detCfg = (3, 0) ∧
    (after (exec (.detCfg 0 1) s)).reg Reg.detRingHead = 0 ∧ w (exec (.detCfg 0 2) s) Reg.detCfg = (2, 0) ∧
    w (exec (.burTableSel 0 0x777) s) Reg.burTableSel = (0x777, 0) ∧ w (exec (.burTableSel 0 8) s) Reg.burTableSel = (0x271, 1) ∧
    w (exec (.burWinCfg 0 15 3) s) (Reg.burWinCfg 15) = (3, 0) ∧ w (exec (.burWinCfg 0 15 5) on) (Reg.burWinCfg 15) = (3, 1) := by
  unfold Writable; decide +kernel

/-- A TURN record of no entries. -/
def turnRec : List Byte :=
  let h := leBytes 8 (recMagic + 2 ^ 32) ++ zeroBytes 52
  h ++ leBytes 4 (crc32c (h ++ zeroBytes 4))

/-- ReplayJobs: a job of one turn, one of none, a second START, an ABORT while a turn runs and between turns. -/
theorem test_jobs :
    let s := { (turning {} {}).withRegs [(Reg.detJobSrc, gddrBase 0), (Reg.detJobLen, 1), (Reg.glbDetClass, 0)] with mem := Mem.write [] (gddrBase 0) turnRec }
    let z := s.withRegs [(Reg.detJobLen, 0)]
    let e := { s with gacc := [(gddrBase 0 / 64, true)] }
    let r := s.withRegs [(Reg.detJobStatus, 1)]
    let x := { (turning {} { running := true }).withRegs [(Reg.detJobStatus, 1)] with det := { jobTurns := [turnRec] } }
    let rs := [JobRec.turn turnRec 0]
    (Writable s 0#6 Reg.detJobCtrl ∧ readImage 2 s.jobImage.2.2 = some rs ∧ firstCheck (s.startChecks 1 (some rs)) = none ∧ rs.filterMap turnOf ≠ [] ∧
      readImage 1 z.jobImage.2.2 = some [] ∧ firstCheck (z.startChecks 1 (some [])) = none ∧ r.jobRuns = true ∧ x.jobRuns = true ∧
      s.sectorBad (gddrBase 0) 64 = false ∧ z.sectorBad (gddrBase 0) 0 = false ∧ readImage 2 e.jobImage.2.2 = some rs ∧
      firstCheck (e.startChecks 1 (some rs)) = none ∧ e.sectorBad (gddrBase 0) 64 = true) ∧
    (after (exec (.start 0 1) e)).fld Reg.detJobStatus 0 10 = 2 + 0xB * 4 ∧
    (after (exec (.start 0 1) s)).jobRuns = true ∧ (after (exec (.start 0 1) s)).det.jobTurns = [turnRec] ∧
    (after (exec (.start 0 1) z)).fld Reg.detJobStatus 0 2 = 2 ∧ (after (exec (.start 0 1) r)).reg Reg.hstRejCnt = 1 ∧
    (after (exec (.abort 0) x)).det.abort = true ∧ (after (exec (.abort 0) x)).jobRuns = true ∧
    (after (exec (.abort 0) r)).fld Reg.detJobStatus 2 8 = 0xD := by unfold Writable; decide +kernel

/-- ReplayJobs: the capture point of the last core of a team. -/
theorem test_capture :
    let s := { (turning { exec := .issuing, inTurn := true } { running := true }).withRegs [(Reg.detJobStatus, 1), (Reg.detJobCtrl, 0x10001),
      (Reg.detCapPoint, 63), (Reg.detCapCyc, 5), (Reg.detCapSerial, 0), (Reg.detCapAddr, gddrBase 0), (Reg.gdrRgnState 0, 2)] with
      det := { jobTurns := [turnRec] } }
    let c := s.core 455
    (s.jobRuns = true ∧ s.fld Reg.detJobCtrl 16 1 = 1 ∧ (s.team 0).running = true ∧ c.inTurn = true ∧ s.teamOfCore 455 = some 0 ∧
      (s.team 0).rankOf 455 = s.fld Reg.detCapPoint 0 12 ∧ s.det.jobTurns.head?.any (fun b => turnFld b 320 64 == s.reg Reg.detCapSerial) = true ∧
      c.capturePoint (s.fld Reg.detCapPoint 16 16) (s.fld Reg.detCapCyc 28 4) (s.fld Reg.detCapCyc 0 28) = some (5, false) ∧ c.now ≤ 5) := by
  decide +kernel

/-! ## Host rings -/

/-- Doorbells: inside the range, at its end and past it, on a ring that does not run, of another size, and one that wakes the device. -/
theorem test_doorbells :
    let run : Nat → List (Nat × Nat) := fun r => [(Reg.ringStat 63 r, 1), (Reg.ringCfg 63 r, 0x11), (Reg.ringHead 63 r, 2 ^ 32 - 1), (Reg.ringTail 63 r, 1)]
    let s := (up.withRegs (run ringReq ++ run ringTok)).withRegs [(Reg.pwrCfg, 0)]
    let w := s.withRegs [(Reg.pwrCfg, 1), (Reg.pwrStatus, 2)]
    let bell := fun (v : Word) (s : State) => ((after (exec (.reqTail 63 4 v) s)).reg (Reg.ringTail 63 ringReq), (after (exec (.reqTail 63 4 v) s)).reg Reg.hstRejCnt)
    let head := fun (v : Word) => ((after (exec (.tokHead 63 4 v) s)).reg (Reg.ringHead 63 ringTok), (after (exec (.tokHead 63 4 v) s)).reg Reg.hstRejCnt)
    (LinkOpen s ∧ s.ringSt 63 ringReq = 1 ∧ s.ringHeld 63 ringReq = 2 ∧ s.ringSize 63 ringReq = 16 ∧ s.ringSt 63 ringCmd ≠ 1 ∧ s.ringSt 63 ringCpl ≠ 1 ∧
      w.fld Reg.pwrStatus 0 2 = 2) ∧
    bell 15 s = (15, 0) ∧ bell 1 s = (1, 0) ∧ bell 16 s = (1, 1) ∧ bell 0 s = (1, 1) ∧ (after (exec (.reqTail 63 4 2) w)).fld Reg.pwrStatus 0 2 = 3 ∧
    (after (exec (.cmdTail 63 4 0) s)).reg Reg.hstRejCnt = 1 ∧ (after (exec (.reqTail 63 8 2) s)).reg Reg.hstRejCnt = 1 ∧
    head 1 = (1, 0) ∧ head 2 = (2 ^ 32 - 1, 1) ∧ (after (exec (.cplHead 63 4 0) s)).reg Reg.hstRejCnt = 1 := by unfold LinkOpen; decide +kernel

/-- RingsDescriptorsRecords: rings enabled and restarted, descriptors that come whole and that fail. -/
theorem test_rings :
    let s := { up.withRegs [(Reg.ringStat 0 ringReq, 1), (Reg.ringCfg 0 ringReq, 0x11), (Reg.ringTail 0 ringReq, 1), (Reg.ringStat 0 ringCmd, 1),
      (Reg.ringCfg 0 ringCmd, 0x11), (Reg.ringTail 0 ringCmd, 1)] with hst := { fns := [(0, { busMaster := true })] } }
    let h := s.withRegs [(Reg.ringStat 63 3, 2), (Reg.ringCfg 63 3, 0x11), (Reg.ringHead 63 3, 5)]
    let d := fun (n : Nat) => BitVec.ofNat 1024 n
    (Writable s 0#6 (Reg.ringCfg 63 3) ∧ s.fld (Reg.ringCfg 63 3) 0 1 = 0 ∧ h.ringSt 63 3 = 2 ∧ s.fetches 0 ringReq = true ∧
      s.fetches 0 ringCmd = true ∧ readStatus .poisoned = some .eMedia) ∧
    (after (exec (.ringEnable 0 63 3 0x41) s)).ringSt 63 3 = 1 ∧ (after (exec (.ringEnable 0 63 3 0x11) s)).ringSize 63 3 = 16 ∧
    (after (exec (.restart 0 63 3 0x13) h)).ringSt 63 3 = 1 ∧ (after (exec (.restart 0 63 3 0x13) h)).reg (Reg.ringHead 63 3) = 5 ∧
    (after (exec (.descriptorFetch 0 false .ok (d 2)) s)).reg (Reg.ringHead 0 ringReq) = 1 ∧
    (after (exec (.descriptorFetch 0 true .ok (d 10)) s)).reg (Reg.ringHead 0 ringCmd) = 1 ∧
    (after (exec (.descriptorFetch 0 false .poisoned (d 1)) s)).ringSt 0 ringReq = 2 ∧
    (after (exec (.descriptorReadTimeout 0 true) s)).reg Reg.hstCpltoCnt = 1 := by unfold Writable; decide +kernel

/-- RingsDescriptorsRecords: a prompt, a deferred record with and without room, a vector's delay. -/
theorem test_records :
    let x := { request with st := .prefill, histAddr := gddrBase 0 }
    let rec1 : List Byte := zeroBytes 4
    let s := { up.withRegs [(Reg.detCfg, 0), (Reg.ringStat 0 ringTok, 1), (Reg.ringCfg 0 ringTok, 0x11), (Reg.fnIrq 0, 0x100)] with
      dlr := { slots := [(8191, x)] }, hst := { fns := [(0, { busMaster := true, deferred := [(ringTok, rec1)], irq := [0, 1] })] } }
    let z := s.withRegs [(Reg.ringTail 0 ringTok, 16)]
    (s.slot? 8191 = some x ∧ s.mayRead 0 = true ∧ s.ringReady proofRing 64 = true ∧ s.ringOpen 0 ringTok = true ∧ z.ringOpen 0 ringTok = false ∧
      nth 0 (s.fn 0).irq 1 ≠ 0 ∧ s.fld (Reg.fnIrq 0) 8 16 ≠ 0) ∧
    (after (exec (.promptRead 8191 [1, 2] .ok) s)).mem.read (gddrBase 0 + 68) 1 = [2] ∧
    ((after (exec (.promptRead 8191 [] .timeout) s)).slot? 8191).map Slot.result = some (some .eMedia) ∧
    ((after (exec (.recordPost 0) s)).fn 0).deferred = [] ∧ ((after (exec (.recordPost 0) z)).fn 0).deferred.length = 1 ∧
    (after (exec (.irqDelayExpiry 0 1) s)).outbox = [.msi 0 1] := by decide +kernel

/-! ## Functions, the link, BAR accesses -/

/-- FunctionAndLinkResets. -/
theorem test_resets :
    let s := { up.withRegs [(Reg.shcClaim 31, 5), (Reg.shcClaim 30, 1), (Reg.hstCfg, 1)] with
      dlr := { slots := [(1, { request with fn := 63 }), (2, { request with fn := 63, st := .decode }), (3, { request with st := .decode })] } }
    let p := { s with dlr := {} }
    (s.linkDown = false ∧ (s.dlr.slots.map Prod.fst).Nodup ∧ p.dlr.slots = [] ∧ s.clk.por = false ∧ p.fld (Reg.shcClaim 31) 0 3 = 5) ∧
    (after (exec (.vfFlr 63) s)).slot? 1 = none ∧ ((after (exec (.vfFlr 63) s)).slot? 2).map Slot.discard = some true ∧
    (after (exec (.vfFlr 63) s)).slot? 3 = s.slot? 3 ∧ (after (exec .pfFlr p)).reg (Reg.shcClaim 31) = 0 ∧
    (after (exec .pfFlr p)).reg (Reg.shcClaim 30) = 1 ∧ (after (exec .perst s)).hst.perst = true ∧ (after (exec .perst s)).reg Reg.hstCfg = 0x64 ∧
    (after (exec (.perstRelease 5 16 true) (after (exec .perst s)))).fld Reg.hstLink 3 5 = 16 := by decide +kernel

/-- Bar4Accesses: GDDR, a vault line, a rejected read and write, a VF's reads and writes. -/
theorem test_bar4 :
    let s := { up.withRegs [(Reg.hstBar4Base, gddrBase 0), (Reg.gdrRgnState 0, 2)] with
      clusters := board [(0, { dom := .run })], mem := Mem.write [] (gddrBase 0 + 2 ^ 28 - 1) [9] }
    let v := s.withRegs [(Reg.hstBar4Base, 0)]
    let x := s.withRegs [(Reg.hstBar4Base, gddrBase 1)]
    let last := BitVec.ofNat 36 (2 ^ 28 - 1)
    let w := s.withRegs [(Reg.pwrStatus, 3), (Reg.clkStatus, 31), (Reg.detCfg, 0)]
    (LinkOpen s ∧ s.tlpStatus false (gddrBase 0 + 2 ^ 28 - 1) 1 = none ∧ s.sectorBad (gddrBase 0 + 2 ^ 28 - 1) 1 = false ∧
      v.tlpStatus false 31 1 = none ∧ inVaults 31 = true ∧ x.tlpStatus false (gddrBase 1) 4 = some .eRange ∧ x.tlpStatus true (gddrBase 1) 1 = some .eRange ∧
      s.tlpStatus true (gddrBase 0) 2 = none ∧ s.fld Reg.pwrStatus 0 2 = 0 ∧ w.wakeReady = true) ∧
    (after (exec (.bar4Read 0 last 1) w)).outbox = [] ∧ (after (exec (.bar4Write 0 0 [1] false) w)).mem = s.mem ∧
    (after (exec (.wakeComplete []) (after (exec (.bar4Read 0 last 1) w)))).outbox.length = 1 ∧
    (after (exec (.bar4Read 0 last 1) s)).outbox = [.read 0 .ok [9] false] ∧ (look [] (after (exec (.bar4Read 0 31 1) v)).bgq 0).length = 1 ∧
    (after (exec (.bar4Read 0 0 4) x)).reg Reg.hstRejCnt = 1 ∧ (after (exec (.bar4Read 63 0 1) s)).outbox.length = 1 ∧
    (after (exec (.bar4Write 0 0 [1, 2] false) s)).mem.read (gddrBase 0) 2 = [1, 2] ∧ (after (exec (.bar4Write 0 0 [1] false) x)).reg Reg.hstRejCnt = 1 ∧
    (after (exec (.bar4Write 0 0 [1] true) s)).reg Reg.hstRejCnt = 1 ∧ (after (exec (.bar4Write 63 0 [1] false) s)).reg Reg.hstRejCnt = 1 := by
  unfold LinkOpen; decide +kernel

/-- RegisterAndConfigAccesses: a scratch of a register, its reserved bits, a function that may not, alignment and poison; configuration. -/
theorem test_accesses :
    let s := up.withRegs [(Reg.shcClaim 0x18, 5)]
    let off := BitVec.ofNat 26 (Reg.shcTmrPeriod 7)
    let res := BitVec.ofNat 26 (Reg.shcTmrCfg 7)
    let rej := fun (o : Host.Outcome State Fault Refusal) => (after o).reg Reg.hstRejCnt
    (LinkOpen s ∧ off.toNat % 4 = 0 ∧ off.toNat % 8 ≠ 0 ∧ (findReg off.toNat regMap).map (fun d => (d.1.bytes, d.2)) = some (4, off.toNat) ∧
      firstCheck (s.accessChecks 0 off.toNat) = none ∧ firstCheck (s.accessChecks 1 off.toNat) = some .ePerm ∧
      ownRow off.toNat 0 5 = false ∧ firstCheck (s.regChecks off.toNat 0 5) = none ∧ s.shadowServed off.toNat = false) ∧
    (after (exec (.registerWrite 0 0 off 4 (.write 5 false)) s)).reg (Reg.shcTmrPeriod 7) = 5 ∧ rej (exec (.registerWrite 0 0 res 4 (.write 8 false)) s) = 1 ∧
    rej (exec (.registerWrite 1 0 off 4 (.write 5 false)) s) = 1 ∧ rej (exec (.registerWrite 0 0 off 8 (.write 5 false)) s) = 1 ∧
    rej (exec (.registerWrite 0 0 off 4 (.write 5 true)) s) = 1 ∧ (after (exec (.registerWrite 0 0 off 4 .read) s)).outbox = [.read 0 .ok [0, 0, 0, 0] false] ∧
    (after (exec (.configRequest 63 (.write 4095 7)) s)).configWord 63 4095 = some 7 ∧
    (after (exec (.configRequest 63 (.read 4095)) (after (exec (.configRequest 63 (.write 4095 7)) s)))).outbox = [.read 63 .ok [7, 0, 0, 0] false] ∧
    ((after (exec (.configRequest 63 (.busMaster true)) s)).fn 63).busMaster = true ∧ (after (exec (.configRequest 0 (.vfEnable true 63)) s)).hst.vfEnable = true ∧
    (after (exec (.configRequest 0 (.bar4Size 36)) s)).hst.bar4 = 36 ∧ (after (exec .ideIntegrityFail (s.withRegs [(Reg.hstLink, 0x200)]))).fld Reg.hstLink 9 2 = 2 := by
  unfold LinkOpen; decide +kernel

/-! ## Ticks and the Uhloc chains -/

/-- A member of a chain: role MEMBER, no position. -/
def chained (st : Nat) : State := up.withRegs [(Reg.uhlStatus, st), (Reg.umpStatus, 1)]

/-- A frame on chain A of the device at position 9. -/
def hdrF : FrameHdr := ⟨false, false, false, false, 3, 9, 4⟩

/-- TicksCountAndPublish: with the Umpire running and not. -/
theorem test_tick :
    let x : TickSample := ⟨4095, 4095, 7, [], [], []⟩
    let s : State := { (chained 3).withRegs [(Reg.clkXstart, 0)] with clusters := board [] }
    let z := s.withRegs [(Reg.umpStatus, 2)]
    (s.clk.por = false ∧ s.fld Reg.umpStatus 0 2 = 1 ∧ z.fld Reg.umpStatus 0 2 = 2) ∧
    (after (exec (.tick x) s)).reg Reg.glbTicks = 1 ∧ (after (exec (.tick x) s)).reg Reg.telPower = 7 ∧
    (after (exec (.tick x) z)).reg Reg.telPower = 0 := by decide +kernel

/-- FramesAct: ENUM with room and without, ROSTER of the last position, FAULT, TIME, a frame that fails its CRC. -/
theorem test_frames_act :
    let s := chained 0
    let big := { hdrF with cnt := 127 }
    let a := (chained 6).withRegs [(Reg.ngvSerial, 7)]
    let l : State := { s.withRegs [(Reg.glbTicks, 5)] with mgt := { times := some (8, 4) } }
    (FirstCopy hdrF s ∧ hdrF.cnt.toNat + 1 < 128 ∧ 128 ≤ big.cnt.toNat + 1 ∧ FirstCopy big s ∧ s.acting = false ∧ a.acting = true ∧ a.uhlRole = 2 ∧
      a.hears hdrF = true ∧ l.locked = false ∧ l.seenFrame hdrF = false ∧ s.chainsOn = true) ∧
    (after (exec (.enum hdrF) s)).position = 5 ∧ (after (exec (.enum big) s)).mgt.placed = false ∧ (after (exec (.enum big) s)).fld Reg.uhlStatus 24 1 = 1 ∧
    (after (exec (.roster hdrF 127 4095 true 8) s)).fld (Reg.uhlRoster 127) 0 12 = 4095 ∧
    (after (exec (.fault hdrF 1 false 127 4) s)).fld (Reg.uhlRoster 127) 14 3 = 4 ∧ (after (exec (.time hdrF 9 8) l)).locked = true ∧
    (after (exec (.time hdrF 9 8) a)).acting = false ∧ (after (exec .uhlocFrameCrcFail s)).reg Reg.uhlCrcCnt = 1 := by
  unfold FirstCopy; decide +kernel

/-- Snapshots: sent by the lead, too early, received for a later time and a past one, latched. -/
theorem test_snapshots :
    let lead := up.withRegs [(Reg.uhlStatus, 0x400005)]
    let m := (chained 0).withRegs [(Reg.uhlRrc, 100)]
    let p : State := { m with mgt := { snap := some (6, 200) } }
    let v := BitVec.ofNat 64 tickCycles
    (Writable lead 0#6 Reg.uhlSnapT ∧ lead.acting = true ∧ lead.locked = true ∧ lead.mgt.snap = none ∧ lead.mgt.snapSent = none ∧ lead.mgt.unacked = [] ∧
      FirstCopy hdrF m ∧ m.mgt.snap = none) ∧
    (after (exec (.uhlSnapT 0 v) lead)).mgt.snap = some (1, tickCycles) ∧ (after (exec (.uhlSnapT 0 (v - 1)) lead)).reg Reg.hstRejCnt = 1 ∧
    (after (exec (.snap hdrF 6 101) m)).mgt.snap = some (6, 101) ∧ (after (exec (.snap hdrF 6 100) m)).reg Reg.uhlSnapLateCnt = 1 ∧
    (after (exec .snapLatch p)).reg Reg.telSnapT = 200 ∧ (after (exec .snapLatch p)).reg Reg.uhlRrc = 200 := by
  unfold Writable FirstCopy; decide +kernel

/-- ChainsLeadAndRackTime. -/
theorem test_chains_lead :
    let f : AckFrame := ⟨frmSnap, 65535, 0, 1, 0⟩
    let s : State := { (chained 2).withRegs [(Reg.glbTicks, 7), (Reg.uhlRrc, 99)] with mgt := { unacked := [f], started := true } }
    let z : State := { s with mgt := { s.mgt with unacked := [{ f with resends := 0 }], lost := [(1, 0)] } }
    let st : State := { s with mgt := { s.mgt with stepTime := some (3, true) } }
    let rt : State := { s with mgt := { s.mgt with rtSet := some 3 } }
    let k := s.withRegs [(Reg.uhlStatus, 0x400000)]
    let a := chained 5
    (s.mgt.unacked.find? (fun f => f.seq == 65535) = some f ∧ f.sent + 1 ≤ s.ticks ∧ s.chainsOn = true ∧ s.inputLost 1 = false ∧ z.inputLost 1 = true ∧
      s.acting = false ∧ s.uhlRole = 2 ∧ max s.mgt.heard 1 + 8 ≤ s.ticks + 2 ∧ k.locked = true ∧ s.locked = false ∧ k.mgt.offset ≠ 3 ∧
      Writable a 0#6 Reg.uhlRtSet ∧ a.acting = true ∧ a.nextEdge = 1) ∧
    (after (exec (.frameResendTimeout 65535) s)).mgt.unacked.map AckFrame.resends = [0] ∧
    (after (exec (.frameResendTimeout 65535) z)).fld Reg.uhlSnapAck 9 1 = 1 ∧ (after (exec (.chainInputLost true) s)).inputLost 1 = true ∧
    (after (exec (.chainInputRestored true) z)).inputLost 1 = false ∧ (after (exec .leadTakeover (s.withRegs [(Reg.glbTicks, 8)]))).acting = true ∧
    (after (exec (.racksyncEdge 0) st)).reg Reg.uhlRrc = 3 * tickCycles ∧ (after (exec (.racksyncEdge 0) rt)).reg Reg.uhlRrc = 3 * tickCycles ∧
    (after (exec (.racksyncEdge 2) k)).reg Reg.uhlRrc = tickCycles ∧ (after (exec (.racksyncEdge 3) k)).reg Reg.uhlRrc = 99 ∧
    (after (exec (.racksyncEdge 3) k)).reg Reg.uhlSyncMissCnt = 1 ∧ (after (exec (.uhlRtSet 0 1) a)).mgt.rtSet = some 1 ∧
    (after (exec (.uhlRtSet 0 0) a)).reg Reg.hstRejCnt = 1 := by unfold Writable; decide +kernel

/-! ## Images and the Umpire -/

/-- An image of no bytes for the Umpire. -/
def image0 : List Byte := leBytes 8 (0x4D495848 + 1 * 2 ^ 32) ++ zeroBytes 344

def ckOk : ImgCheck := ⟨true, true⟩

/-- ImagesAreStaged: by the host, with a scope and without, and what a member does. -/
theorem test_images :
    let s : State := { (chained 0).withRegs [(Reg.umpBoot, 6), (Reg.umpStageSrc, gddrBase 0), (Reg.gdrRgnState 0, 2)] with
      mem := Mem.write [] (gddrBase 0) image0 }
    let lead := s.withRegs [(Reg.uhlStatus, 5)]
    let two := lead.withRegs [(Reg.uhlRoster 1, 0x2000)]
    let g : Stage := { lead := false, header := [1], pass := 1, data := (List.range 18).map (fun k => (20 * k, (image0.drop (20 * k)).take 20)) }
    let m : State := { s with mgt := { stage := some g } }
    let r : State := { two with mgt := { stage := some { lead := true, pass := 1 } } }
    (s.bootStep ≠ 0xF ∧ Writable s 0#6 Reg.umpStageCmd ∧ s.staging = false ∧ (s.stageSource.2.1, s.stageSource.2.2) = (image0, .ok) ∧ imgComp image0 = 1 ∧
      s.imgStatus image0 ckOk = .ok ∧ s.imgStatus image0 ⟨true, false⟩ = .ePerm ∧ lead.acting = true ∧ lead.otherPositions = [] ∧
      two.otherPositions = [1] ∧ FirstCopy hdrF s ∧ memberStage s.mgt.stage [1] = false ∧ FirstCopy hdrF m ∧ g.image 352 = some image0 ∧
      g.image 400 = none ∧ FirstCopy { hdrF with orig := 1 } r) ∧
    staged (after (exec (.stageLocal 0 1 ckOk) s)) = (2, 0, 0) ∧ staged (after (exec (.stageLocal 0 1 ⟨true, false⟩) s)) = (2, 8, 0) ∧
    staged (after (exec (.stageRack 0 5 ckOk) lead)) = (2, 0, 1) ∧ staged (after (exec (.stageRack 0 5 ckOk) two)) = (1, 0, 1) ∧
    staged (after (exec (.stageOpen hdrF [1]) s)) = (1, 0, 1) ∧ ((after (exec (.stageData hdrF 360 [4]) m)).mgt.stage.map (fun g => g.data.length)) = some 19 ∧
    staged (after (exec (.stageClose hdrF 352 ckOk) m)) = (2, 0, 1) ∧ staged (after (exec (.stageClose hdrF 400 ckOk) m)) = (2, 0xB, 1) ∧
    staged (after (exec (.result { hdrF with orig := 1 } 0 1) r)) = (2, 0, 1) := by unfold Writable FirstCopy; decide +kernel

/-- UmpireAndKeys. -/
theorem test_umpire :
    let s : State := { (chained 0).withRegs [(Reg.glbTicks, 1200)] with mgt := { slots := [(2, ⟨image0, true⟩), (3, ⟨image0, true⟩)], placed := true } }
    let n : State := { s with mgt := { s.mgt with slots := [(2, ⟨image0, true⟩)] } }
    let w := { s.withRegs [(Reg.umpStatus, 2)] with mgt := { s.mgt with prevSlot := some (1, 1000) } }
    let again : State := { s with mgt := { s.mgt with lastWatchdog := some 200 } }
    let rej := fun (o : Host.Outcome State Fault Refusal) => (after o).reg Reg.hstRejCnt
    (Writable s 0#6 Reg.umpSwitch ∧ Writable s 0#6 Reg.umpSvcOut ∧ Writable s 0#6 Reg.secCmd ∧ s.altValid 1 = true ∧ n.altValid 1 = false ∧
      1000 + 200 ≤ w.ticks ∧ w.image? 1 (w.runSlot 1) = some ⟨image0, true⟩ ∧ s.runningImage 1 = some image0 ∧ s.runningImage 2 = none ∧
      s.keyUsed 0 = true ∧ s.keyUsed 3 = false ∧ s.chainsOn = true) ∧
    (after (exec (.umpSwitch 0 0x96000000) s)).mgt.switchDue = true ∧ rej (exec (.umpSwitch 0 0x95000000) s) = 1 ∧ rej (exec (.umpSwitch 0 0x96000000) n) = 1 ∧
    (after (exec .umpireSwitchTimeout w)).runSlot 1 = 1 ∧ (after (exec .umpireWatchdog s)).runSlot 1 = 0 ∧ (after (exec .umpireWatchdog again)).runSlot 1 = 1 ∧
    (after (exec .umpireReportsRunning w)).fld Reg.umpStatus 0 2 = 1 ∧ (after (exec (.umpSvcOut 0 1) s)).mgt.bcasts.length = 1 ∧
    (after (exec (.umpSvcOut 0 0) s)) = s ∧ look 9 (after (exec (.commitSvn 0 0x3C000005) s)).mgt.otpSvn 1 = 0 ∧ rej (exec (.commitSvn 0 0x3C000009) s) = 1 ∧
    (after (exec (.revoke 0 0x3C00000E) s)).mgt.revoked = [3] ∧ rej (exec (.revoke 0 0x3C000002) s) = 1 := by unfold Writable; decide +kernel

/-- ClaimsTimersProtocols: the last resource claimed, claimed again, released by its owner and by another; a timer; each protocol. -/
theorem test_claims :
    let s := up.withRegs [(Reg.shcTmrCfg 7, 5), (Reg.shcTmrCnt 7, 3), (Reg.shcTmrPeriod 7, 9)]
    let o := s.withRegs [(Reg.shcClaim 0x19, 5)]
    let c := fun (o : Host.Outcome State Fault Refusal) => (after o).ownerOf 0x19
    let k : State := { s with mgt := { sessions := [65535] } }
    (Writable s 0#6 Reg.shcCmd ∧ s.ownerOf 0x19 = 0 ∧ s.ownerOf resClkout = 0 ∧ s.ownerOf resGpio15 = 0 ∧ o.ownerOf 0x19 = 5 ∧
      s.fld (Reg.shcTmrCfg 7) 0 2 = 1 ∧ s.reg (Reg.shcTmrCnt 7) ≠ 0 ∧ s.mgt.sessions.length < 2 ∧ k.mgt.sessions.contains 65535 = true) ∧
    c (exec (.claim 5 0 0x19 7) s) = 5 ∧ c (exec (.claim 4 0 0x19 7) s) = 4 ∧ c (exec (.claim 4 0 0x19 7) o) = 5 ∧ c (exec (.releaseClaim 5 0 0x19) o) = 0 ∧
    c (exec (.releaseClaim 1 0 0x19) o) = 5 ∧ (after (exec (.timerExpiry 7) s)).reg (Reg.shcTmrCnt 7) = 9 ∧
    (after (exec (.timerExpiry 7) s)).fld Reg.shcTmrStatus 7 1 = 1 ∧ (after (exec (.mctpControl (some 255)) s)).mgt.mctpEid = 255 ∧
    (after (exec (.pldmRequest .other) s)).outbox = [.mgmt 1 0xE] ∧ (after (exec (.spdmMessage (.keyExchange 65535)) s)).mgt.sessions = [65535] ∧
    (after (exec (.spdmMessage (.ideKeyed 65535)) k)).fld Reg.hstLink 9 2 = 1 ∧ (after (exec (.spdmMessage .other) s)).outbox = [.mgmt 5 0xE] := by
  unfold Writable; decide +kernel

/-! ## Clocks, power, resets -/

/-- ClockSourcesAndPlls. -/
theorem test_clocks :
    let s := up.withRegs [(Reg.umpBoot, 6), (Reg.clkStatus, 0)]
    let t3 : State := { s with clk := { s.clk with tries := [(1, 2)] } }
    let on := s.withRegs [(Reg.clkStatus, 0x1BF)]
    let l := s.withRegs [(Reg.clkStatus, 0x380), (Reg.clkPllCfg 5, 0xB5)]
    let p3 : State := { s with clk := { s.clk with pll3Lost := true } }
    let sw : State := { s with clk := { s.clk with switching := [(3, 0)] } }
    let st := fun (o : Host.Outcome State Fault Refusal) (n : Nat) => (after o).fld Reg.clkStatus n 1
    (Booted s ∧ s.fld Reg.clkXctrl 1 1 = 1 ∧ look 0 t3.clk.tries 1 = 2 ∧ on.fld Reg.clkStatus 8 1 = 1 ∧ l.fld (Reg.clkPllCfg 5) 2 1 = 1 ∧
      l.refOk (l.fld (Reg.clkPllCfg 5) 0 2) = true ∧ on.fld Reg.clkStatus 4 1 = 1 ∧ Writable s 0#6 (Reg.clkDomSel 3) ∧ s.sourceUp 3 1 = true ∧
      s.sourceUp 3 0 = false ∧ s.fld (Reg.clkDomSel 3) 0 3 = 2 ∧ listed s.clk.switching 3 = false ∧ listed sw.clk.switching 3 = true) ∧
    st (exec (.crystalStart true 1520) s) 8 = 1 ∧ st (exec (.crystalStart true 1519) t3) 11 = 1 ∧ st (exec (.clockInputStop true) on) 8 = 0 ∧
    st (exec .rackclkStop (s.withRegs [(Reg.clkStatus, 0x200)])) 9 = 0 ∧ st (exec (.pllLock 5 true []) l) 5 = 1 ∧ st (exec (.lossOfLock 0) on) 0 = 0 ∧
    (after (exec (.lossOfLock 0) on)).clk.outOfService = true ∧ (after (exec (.lossOfLock 3) on)).clk.pll3Lost = true ∧ st (exec (.lossOfLock 4) on) 16 = 1 ∧
    (after (exec .pll3RelockTimeout p3)).clk.pll3Lost = false ∧ listed (after (exec (.clkDomSel 0 3 1) s)).clk.switching 3 = true ∧
    (after (exec (.clkDomSel 0 3 0) s)).reg Reg.hstRejCnt = 1 ∧ listed (after (exec (.domainRestart 3) sw)).clk.switching 3 = false := by
  unfold Booted Writable; decide +kernel

/-- ClockRegisters. -/
theorem test_clock_registers :
    let s := up.withRegs [(Reg.umpBoot, 6), (Reg.clkStatus, 0x3BF), (Reg.shcClaim resClkout, 5), (Reg.clkXctrl, 0)]
    let u := s.withRegs [(Reg.clkDomSel 3, 0), (Reg.shcClaim resClkout, 0)]
    let w := fun (o : Host.Outcome State Fault Refusal) (a : Nat) => ((after o).reg a, (after o).reg Reg.hstRejCnt)
    (Writable s 0#6 Reg.clkXctrl ∧ Writable s 0#6 (Reg.clkPllCfg 5) ∧ Writable u 0#6 Reg.clkClkout ∧ s.pllInUse 5 = false ∧ u.pllInUse 5 = true ∧
      s.refOk 1 = true ∧ s.ownerOf resClkout = 5 ∧ s.clkoutRate 0 ≤ 200000 * (bitsOf 0x7FF0 4 10 + 1)) ∧
    (after (exec (.clkXctrl 0 3) s)).fld Reg.clkXctrl 0 2 = 3 ∧ w (exec (.clkPllnCfg 0 5 0x45) s) (Reg.clkPllCfg 5) = (0x45, 0) ∧
    (after (exec (.clkPllnCfg 0 5 0x45) u)).reg Reg.hstRejCnt = 1 ∧ w (exec (.clkClkout 0 0x7FF0) s) Reg.clkClkout = (0x7FF0, 0) ∧
    w (exec (.clkClkout 0 0x7FF0) u) Reg.clkClkout = (0, 1) := by unfold Writable; decide +kernel

/-- RestWakeTrip. -/
theorem test_rest :
    let s : State := { up.withRegs [(Reg.umpBoot, 6), (Reg.glbStatus, 0), (Reg.clkStatus, 0x3BF)] with clusters := board [(0, { dom := .run })] }
    let e := { s.withRegs [(Reg.pwrStatus, 1)] with clusters := board [] }
    let r := s.withRegs [(Reg.pwrStatus, 2)]
    let w := s.withRegs ([(Reg.pwrStatus, 3)] ++ (List.range 22).map (fun p => (Reg.portPrbs p, 0)))
    let a : State := { s with clk := { s.clk with aon := true } }
    let ps := fun (o : Host.Outcome State Fault Refusal) => (after o).fld Reg.pwrStatus 0 2
    (Writable s 0#6 Reg.pwrCmd ∧ firstCheck s.restChecks = none ∧ firstCheck r.restChecks = some .eState ∧ Writable r 0#6 Reg.pwrCmd ∧ w.wakeReady = true ∧
      (∀ c ∈ e.clusters, c.2.dom = .off) ∧ a.fld Reg.pwrStatus 20 1 = 0) ∧
    ps (exec (.rest 0 1) s) = 1 ∧ ((after (exec (.rest 0 1) s)).cluster 0).stopReq = true ∧ (after (exec (.rest 0 1) r)).reg Reg.hstRejCnt = 1 ∧
    ps (exec (.wake 0 2) r) = 3 ∧ (after (exec (.wake 0 2) e)).clk.wakePending = true ∧ ps (exec .restEntered e) = 2 ∧ ps (exec (.wakeComplete []) w) = 0 ∧
    (after (exec (.wakeComplete []) w)).portSt 21 = 1 ∧ (after (exec (.thermalTrip true 520) a)).fld Reg.pwrTrip 0 2 = 2 ∧
    (after (exec (.thermalTrip false 500) a)).fld Reg.pwrTrip 2 12 = 500 := by unfold Writable; decide +kernel

/-- PowerOnReset: the governing image starts, the other one does, none is valid. -/
theorem test_por :
    let s : State := { (up.withRegs [(Reg.clkStatus, 0), (Reg.glbDetClass, 0)]) with clk := {} }
    let b := fun (cks : List ImgCheck) => exec (.porRelease [(2, image0), (3, image0)] cks [] false) s
    let bad : ImgCheck := ⟨true, false⟩
    (s.clk.por = true ∧ s.bootRecord.2.1 = 0 ∧ s.bootStopped = false ∧ s.slotCheck (s.flashImage [(2, image0)] 2) 2 ckOk = .ok ∧
      s.slotCheck (s.flashImage [(2, image0)] 2) 2 bad ≠ .ok) ∧
    (after (exec .porAssert up)).clk.por = true ∧ (after (b [ckOk, bad, bad, bad])).runSlot 1 = 0 ∧ (after (b [bad, ckOk, bad, bad])).runSlot 1 = 1 ∧
    (after (b [bad, bad, bad, bad])).bootStep = 0xF ∧ (after (exec .vddAonInTolerance s)).clk.aon = true := by decide +kernel

/-- TeamResets: the reset of a running team, a wrong key, a second reset, the end of the drain. -/
theorem test_team_reset :
    let s := turning { exec := .issuing, inTurn := true } { running := true, resTop := 65528 }
    let b := s.withRegs [(Reg.dlrTeamRst 0, 1)]
    let d := b.updTeam 0 (fun t => { t with resetReq := true })
    (Writable s 0#6 (Reg.dlrTeamRst 0) ∧ (s.team 0).loaded = true ∧ s.resetRuns 0 = false ∧ s.fieldPause 0 = false ∧ b.resetRuns 0 = true ∧ d.drained (d.team 0) = true ∧
      s.sliceSt = 0 ∧ ReadClean 0 d) ∧
    (after (exec (.teamReset 0 0 0xE1000001) s)).resetRuns 0 = true ∧ ((after (exec (.teamReset 0 0 0xE1000001) s)).core 455).exec = .halted ∧
    (after (exec (.teamReset 0 0 0xE0000001) s)).reg Reg.hstRejCnt = 1 ∧ (after (exec (.teamReset 0 0 0xE1000001) b)).reg Reg.hstRejCnt = 1 := by
  unfold Writable ReadClean; decide +kernel

/-- JtagInstructions: with a team loaded and with none. -/
theorem test_jtag :
    let s : State := { up with clusters := board [(0, { dom := .run })] }
    let b := turning {} {}
    let k := fun (o : Host.Outcome State Fault Refusal) => (after o).clk.tap
    (s.anyTeam = false ∧ b.anyTeam = true ∧ (findReg (Reg.shcTmrPeriod 7) regMap).map Prod.snd = some (Reg.shcTmrPeriod 7) ∧ s.testable 0 = true ∧
      (s.site 0).testing = none) ∧
    k (exec .trst s) = tapIdcode ∧ k (exec (.extest 5) s) = 0 ∧ k (exec (.extestPulse 5) s) = 5 ∧ k (exec (.extestTrain 5) s) = 6 ∧ k (exec .clamp s) = 3 ∧
    k (exec (.sample 1 5) s) = 1 ∧ k (exec .idcode s) = 2 ∧ k (exec .highz s) = 4 ∧ k (exec .bypass s) = 0xFF ∧ k (exec (.linktest (some 3)) b) = 0xFF ∧
    k (exec (.linktest (some 3)) s) = 0x12 ∧ k (exec (.dbg false (BitVec.ofNat 26 (Reg.shcTmrPeriod 7)) 0) s) = 0x10 ∧
    k (exec (.mbist 0 0 3) s) = 0x11 ∧ k (exec (.mbist 0 0 3) b) = 0xFF := by decide +kernel

/-- VfsAreRefused: commands and registers of the PF, from the last function. -/
theorem test_vfs :
    let s := up
    let rej := fun (c : Instr) => ((after (exec c s)).fld (Reg.fnAccErr 63) 0 8, (after (exec c s)).reg Reg.hstRejCnt)
    (LinkOpen s ∧ s.fld (Reg.fnAccErr 63) 11 1 = 0) ∧ rej (.burTableSel 63 0) = (8, 1) ∧ rej (.activate 63) = (8, 1) ∧ rej (.rest 63 1) = (8, 1) ∧
    rej (.claim 5 63 0 0) = (8, 1) ∧ rej (.teamReset 63 0 0) = (8, 1) ∧ after (exec (.modelLoad 63 0 0) s) = completed 63 0 0 .ePerm 0 s := by
  unfold LinkOpen; decide +kernel

/-- Every family of statements is about commands that go through the queue: the front command runs. -/
theorem test_step_front : after (step { up with pending := [.bypass, .highz] }) = { after (exec .bypass up) with pending := [.highz] } := by
  decide +kernel
end Sys2Proof.Tests
end

section
/-! SUPPORT. Words that are laid out by their fields: what a field read from such a word gives. -/

namespace Sys2Proof

open Claims

/-- The `len` bits from bit `lo` of a word of any width: `wbits` without the width of 32. -/
def fieldAt {n : Nat} (w : BitVec n) (lo len : Nat) : BitVec len := w.extractLsb' lo len

/-- Bit `k` of a word of any width: `wbit` without the width of 32. -/
def bitAt {n : Nat} (w : BitVec n) (k : Nat) : Bool := w.getLsbD k

@[simp] theorem wbits_eq_fieldAt (w : Word) (lo len : Nat) : wbits w lo len = fieldAt w lo len := rfl

@[simp] theorem wbit_eq_bitAt (w : Word) (k : Nat) : wbit w k = bitAt w k := rfl

@[simp] theorem reservedZero_eq_unless0 (w : Word) (lo len : Nat) (c : Instr) :
    reservedZero w lo len c = unless0 (fieldAt w lo len) c := rfl

/-! `simp` adds up the widths of a concatenation, so the rules below are indexed without it. -/

section

variable {m n lo len k : Nat}

@[simp] theorem fieldAt_self (x : BitVec n) : fieldAt x 0 n = x := BitVec.extractLsb'_eq_self

@[simp] theorem fieldAt_append_low (x : BitVec m) (y : BitVec n) (h : lo + len ≤ n) :
    fieldAt (no_index (x ++ y)) lo len = fieldAt y lo len := BitVec.extractLsb'_append_eq_of_add_le h

@[simp] theorem fieldAt_append_high (x : BitVec m) (y : BitVec n) (h : n ≤ lo) :
    fieldAt (no_index (x ++ y)) lo len = fieldAt x (lo - n) len := BitVec.extractLsb'_append_eq_of_le h

@[simp] theorem bitAt_append_low (x : BitVec m) (y : BitVec n) (h : k < n) : bitAt (no_index (x ++ y)) k = bitAt y k := by
  simp [bitAt, BitVec.getLsbD_append, h]

@[simp] theorem bitAt_append_high (x : BitVec m) (y : BitVec n) (h : n ≤ k) : bitAt (no_index (x ++ y)) k = bitAt x (k - n) := by
  simp [bitAt, BitVec.getLsbD_append, Nat.not_lt.mpr h]

@[simp] theorem bitAt_b1 (b : Bool) : bitAt (b1 b) 0 = b := by cases b <;> rfl

theorem append_eq_zero_iff (x : BitVec m) (y : BitVec n) : x ++ y = 0#(m + n) ↔ x = 0#m ∧ y = 0#n := by
  simp [← BitVec.toNat_inj, Nat.or_eq_zero_iff, Nat.shiftLeft_eq]

/-- Reserved bits in two parts are zero where both parts are. -/
theorem unless0_append (x : BitVec m) (y : BitVec n) (c : Instr) :
    unless0 (no_index (x ++ y)) c = if x = 0 then unless0 y c else .illegal := by
  simp [unless0, append_eq_zero_iff, ite_and]

end

theorem fieldAt_opcode_toNat (w : Word) : (fieldAt w 26 6).toNat = opOf w := by
  have := w.isLt
  simp only [fieldAt, BitVec.extractLsb'_toNat, opOf, Nat.shiftRight_eq_div_pow]
  omega

theorem rformOf_fields (code : BitVec 6) (r : RForm) : rformOf (code ++ r.vd ++ r.va ++ r.vb ++ r.vc ++ r.t ++ r.f) = r := by
  simp [rformOf]

theorem epiOf_fields (code : BitVec 6) (e : EpiWord) :
    epiOf (code ++ e.reserved ++ b1 e.qstip ++ e.store ++ b1 e.side ++ b1 e.bias ++ e.act ++ e.zfmt ++ e.op ++
      b1 e.order ++ b1 e.close ++ e.sd ++ e.g) = e := by
  simp [epiOf]

end Sys2Proof
end

section
/-! The words of each class: `simp` reads the opcode, which picks the decoder's case, and then that case's fields. Where no case has the
opcode, every case but the last contradicts it. -/

namespace Sys2Proof

open Claims

/-- Table ISA-15. -/
theorem planeWords : Claims.PlaneWords := by
  intro i
  refine ⟨?mode, ?tld, ?tldm, ?tsw, ?pln, ?xld_cld, ?gopn, ?gspl_gres, ?gcls, ?sld, ?draw, ?undefined⟩
  case mode =>
    intro r xb k w
    simp [decodeP]
  case tld =>
    intro r tpos src a
    simp [decodeP]
  case tldm =>
    intro r layout a
    simp [decodeP]
  case tsw =>
    intro r
    simp [decodeP]
  case pln =>
    intro cb sw triple rowOff m sX aN g
    simp [decodeP]
  case xld_cld =>
    intro r a
    simp [decodeP]
  case gopn =>
    intro r a g
    simp [decodeP]
  case gspl_gres =>
    intro r f g
    simp [decodeP]
  case gcls =>
    intro r g
    simp [decodeP]
  case sld =>
    intro r a e
    simp [decodeP]
  case draw =>
    intro vd vb a idx seq e r
    simp [decodeP]
  case undefined =>
    intro w h
    simp only [decodeP, wbits_eq_fieldAt, fieldAt_opcode_toNat]
    split
    case h_14 => rfl
    all_goals omega

/-- Tables ISA-17, ISA-19. -/
theorem vectorWords : Claims.VectorWords := by
  intro i
  refine ⟨?ldv_stv, ?vbcs, ?vext, ?rform, ?vdec, ?epi, ?undefined⟩
  case ldv_stv =>
    intro v a p r
    simp [decodeV]
  case vbcs =>
    intro v a r
    simp [decodeV]
  case vext =>
    intro d lane v r
    simp [decodeV]
  case rform =>
    intro r
    simp [decodeV, rformOf_fields, rformCodes]
  case vdec =>
    intro v a w ol cp r
    simp [decodeV]
  case epi =>
    intro e
    simp [decodeV, epiOf_fields]
  case undefined =>
    intro w h
    simp only [List.mem_cons, List.not_mem_nil, or_false] at h
    simp only [decodeV, wbits_eq_fieldAt, fieldAt_opcode_toNat]
    split
    case h_29 => rfl
    all_goals omega

/-- Table ISA-21. -/
theorem scalarWords : Claims.ScalarWords := by
  intro i
  refine ⟨?rform, ?iform, ?aset, ?rds, ?b, ?bc, ?br, ?loop, ?sect, ?endTurn, ?undefined⟩
  case rform =>
    intro d a b r
    simp [decodeS, scalarCodes]
  case iform =>
    intro d a v
    simp [decodeS]
  case aset =>
    intro h n a r
    simp [decodeS, unless0_append]
  case rds =>
    intro d r code
    simp [decodeS]
  case b =>
    intro r t
    simp [decodeS]
  case bc =>
    intro cond a b r t
    simp [decodeS]
  case br =>
    intro h a r
    simp [decodeS, unless0_append]
  case loop =>
    intro a r lend
    simp [decodeS]
  case sect =>
    intro r id f
    simp [decodeS, unless0, ite_and]
  case endTurn =>
    intro r
    simp [decodeS]
  case undefined =>
    intro w h
    simp only [decodeS, wbits_eq_fieldAt, fieldAt_opcode_toNat]
    split
    case h_25 => rfl
    all_goals omega

/-- Table ISA-22. -/
theorem movementWords : Claims.MovementWords := by
  intro i kind
  refine ⟨?vld_vst_msnd_ovld, ?dqp, ?wait, ?mbc, ?mred, ?ovb, ?pwk, ?undefined⟩
  case vld_vst_msnd_ovld =>
    intro r a
    simp [decodeM]
  case dqp =>
    intro r a q
    simp [decodeM, unless0]
  case wait =>
    intro r id a loose q
    simp [decodeM]
  case mbc =>
    intro r axis a
    simp [decodeM]
  case mred =>
    intro r fmt axis a
    simp [decodeM]
  case ovb =>
    intro r t
    simp [decodeM]
  case pwk =>
    intro r a write stream q
    simp [decodeM]
  case undefined =>
    intro w h
    simp only [decodeM, wbits_eq_fieldAt, fieldAt_opcode_toNat]
    split
    case h_11 => rfl
    all_goals omega

/-- The words that chapters 07 and 08 write out, each evaluated. -/
theorem exampleWords : Claims.ExampleWords := by
  intro i
  exact ⟨rfl, rfl, rfl, rfl, rfl, rfl, rfl, rfl, rfl, rfl, rfl, rfl, rfl, rfl, rfl, rfl, rfl⟩

theorem decodeSlot_zero (i : Issue) (kind : Nat) : decodeSlot i kind 0#32 = .instr (.nop i) := rfl

theorem decodeSlot_ne_zero (i : Issue) (kind : Nat) {w : Word} (hw : w ≠ 0#32) : decodeSlot i kind w =
    (if i.slot = 0#2 then decodeP i w else if i.slot = 1#2 then decodeV i w else if i.slot = 2#2 then decodeS i w
      else decodeM i kind w) := by
  have slots : ∀ b : BitVec 2, b = 0#2 ∨ b = 1#2 ∨ b = 2#2 ∨ b = 3#2 := by decide
  rcases slots i.slot with h | h | h | h <;> simp [decodeSlot, hw, h]

end Sys2Proof
end

section
/-! Words of a bundle that spell no instruction: the faults they raise, and the bundle's suppression. -/

namespace Sys2Proof.Machine

open Claims

/-- The fault that slot `k` raises where its word spells no instruction. -/
def faultsAt (k : Nat) : Decoded → List (Nat × CoreFault × Nat)
  | .instr _ => []
  | .illegal => [(k, .illegalOp, 0)]
  | .badForm => [(k, .badOperand, 3)]

/-- What the word in slot `k` of a bundle spells. -/
def State.spelled (s : State) (n pc k : Nat) : Decoded :=
  decodeSlot ⟨BitVec.ofNat 12 n, BitVec.ofNat 2 k, false, false⟩ 0 (s.slotWord n pc k)

theorem wordFaults_eq (s : State) (n pc : Nat) :
    s.wordFaults n pc = (List.range 4).flatMap (fun k => faultsAt k (s.spelled n pc k)) := rfl

theorem illegalOp_mem_faultsAt {j k : Nat} {d : Decoded} : (k, CoreFault.illegalOp, 0) ∈ faultsAt j d ↔ k = j ∧ d = .illegal := by
  cases d <;> simp [faultsAt]

theorem slot_of_mem_faultsAt {k : Nat} {d : Decoded} {x : Nat × CoreFault × Nat} (h : x ∈ faultsAt k d) : x.1 = k := by
  cases d <;> simp_all [faultsAt]

theorem illegalOp_mem_wordFaults (s : State) (n pc : Nat) (k : Fin 4) :
    (k.val, CoreFault.illegalOp, 0) ∈ s.wordFaults n pc ↔ s.spelled n pc k.val = .illegal := by
  simp [wordFaults_eq, illegalOp_mem_faultsAt, k.isLt]

/-- The faults of a bundle's words stand in the order of their slots, one for each slot. -/
theorem wordFaults_pairwise (s : State) (n pc : Nat) : (s.wordFaults n pc).Pairwise (fun x y => x.1 < y.1) := by
  rw [wordFaults_eq, List.pairwise_flatMap]
  constructor
  · intro k _
    cases s.spelled n pc k <;> simp [faultsAt]
  · refine List.pairwise_lt_range.imp ?_
    intro j k hjk x hx y hy
    rwa [slot_of_mem_faultsAt hx, slot_of_mem_faultsAt hy]

theorem placeFault_last {x : Nat × CoreFault × Nat} :
    ∀ {l : List (Nat × CoreFault × Nat)}, (∀ y ∈ l, y.1 < x.1) → placeFault x l = l ++ [x]
  | [], _ => rfl
  | y :: t, h => by
    have hy : y.1 < x.1 := h y (by simp)
    have ht : placeFault x t = t ++ [x] := placeFault_last (fun z hz => h z (by simp [hz]))
    simp [placeFault, ht, Nat.not_lt.mpr hy.le, hy.ne']

/-- Faults that come in the order of their slots are placed as they come. -/
theorem foldl_placeFault_append : ∀ (l acc : List (Nat × CoreFault × Nat)), (acc ++ l).Pairwise (fun x y => x.1 < y.1) →
    l.foldl (fun fs x => placeFault x fs) acc = acc ++ l
  | [], acc, _ => by simp
  | x :: l, acc, h => by
    have ⟨_, _, hbefore⟩ := List.pairwise_append.mp h
    have hx : ∀ y ∈ acc, y.1 < x.1 := fun y hy => hbefore y hy x (by simp)
    rw [List.foldl_cons, placeFault_last hx, foldl_placeFault_append l (acc ++ [x]) (by simpa using h)]
    simp

theorem foldl_placeFault_wordFaults (s : State) (n pc : Nat) :
    (s.wordFaults n pc).foldl (fun fs x => placeFault x fs) [] = s.wordFaults n pc :=
  foldl_placeFault_append _ [] (wordFaults_pairwise s n pc)

theorem takesSlot_of_opens {i : Issue} {s : State} (h : Opens i s) : TakesSlot i s (opened i s) := by
  obtain ⟨hplace, -, -⟩ := h
  refine ⟨rfl, fun hf => ?_, fun hf => ?_⟩
  · rwa [if_pos hf] at hplace
  · rwa [if_neg (by simp [hf])] at hplace

theorem exec_nop (i : Issue) (s : State) : exec (.nop i) s = .next (issueOp i i.slot.toNat (fun s _ => { eff := s }) s) := rfl

/-- A bundle that stays in its bank shows the faults of its words at its end, and no others. -/
theorem bundleEndFaults_of_stays {n : Nat} {s : State} (h : (s.core n).runsOut = false) :
    bundleEndFaults n s = s.wordFaults n (s.core n).pc := by
  simp [bundleEndFaults, h]

/-- A NOP that completes a bundle which has met nothing suppresses it where a word of it spells no instruction (R154, R202). -/
theorem nop_suppresses {i : Issue} {s : State} (h : Opens i s) (hcl : closesBundle i = true) (hr : (issuer i s).runsOut = false)
    (hw : (opened i s).wordFaults i.core.toNat (issuer i s).pc ≠ []) :
    exec (.nop i) s =
      .next (suppress i.core.toNat ((opened i s).wordFaults i.core.toNat (issuer i s).pc) (opened i s)) := by
  have ⟨_, hstall, hfaults⟩ := h
  have hst : ((opened i s).core i.core.toNat).stallsWith i i.slot.toNat { eff := opened i s } = [] :=
    stallsWith_nil hstall (by simp)
  have hfs : ((opened i s).core i.core.toNat).faultsWith i i.slot.toNat { eff := opened i s } = [] :=
    faultsWith_nil hfaults rfl rfl
  have hend : bundleEndFaults i.core.toNat (opened i s) = (opened i s).wordFaults i.core.toNat (issuer i s).pc :=
    bundleEndFaults_of_stays hr
  rw [exec_nop, issueOp_takesSlot (takesSlot_of_opens h)]
  simp [issueIn, hst, hfs, endSlot, hcl, hend, foldl_placeFault_wordFaults, hw]

theorem CoreFault.code_ne_zero (f : CoreFault) : f.code ≠ 0 := by
  cases f <;> decide

theorem recordAll_fault_kept (pc cyc : Nat) : ∀ (l : List (Nat × CoreFault × Nat)) (c : Core), c.fault.code ≠ 0 →
    (c.recordAll pc cyc l).fault = c.fault
  | [], _, _ => rfl
  | (k, f, o) :: t, c, h => by
    have hrec : (c.record f k pc cyc o true).fault = c.fault := by simp [Core.record, h]
    rw [Core.recordAll, recordAll_fault_kept pc cyc t _ (by rwa [hrec]), hrec]

/-- The first of a bundle's faults is the one recorded where none was (R156). -/
theorem recordAll_fault_first {c : Core} {pc cyc k o : Nat} {f : CoreFault} {t : List (Nat × CoreFault × Nat)} (h : c.fault.code = 0) :
    (c.recordAll pc cyc ((k, f, o) :: t)).fault = ⟨f.code, f.cls, k, true, pc, c.ovlOf pc, c.turn, cyc, o⟩ := by
  have hrec : (c.record f k pc cyc o true).fault = ⟨f.code, f.cls, k, true, pc, c.ovlOf pc, c.turn, cyc, o⟩ := by
    simp [Core.record, h]
  rw [Core.recordAll, recordAll_fault_kept _ _ _ _ (by simp [hrec, f.code_ne_zero]), hrec]

theorem moveWaiting_noneDue {s : State} {n : Nat} (h : NoneDue (s.core n)) : moveWaiting n s = s := by
  have hnone : (s.core n).tiles.filter (fun t => t.due) = [] := by simpa [List.filter_eq_nil_iff, NoneDue] using h
  unfold moveWaiting
  cases (s.core n).tiles.length with
  | zero => rfl
  | succ k => simp [moveTiles, hnone, firstReady]

@[simp] theorem core_rollback (n : Nat) (s : State) : (rollback n s).core n = (s.cell n).before := by
  simp [rollback, State.core, State.cell]

@[simp] theorem rollback_mem (n : Nat) (s : State) : (rollback n s).mem = s.mem := rfl

/-- A suppressed bundle with no tile due leaves the core as it was before, but for its stop and its record (R154). -/
theorem suppress_noneDue {n : Nat} {s : State} (fs : List (Nat × CoreFault × Nat)) (h : NoneDue (s.cell n).before) :
    suppress n fs s = (rollback n s).updCore n (fun b =>
      { b.recordAll (s.core n).pc (s.core n).now fs with
        exec := .halted, pc := (s.core n).pc, now := (s.core n).now, turnCyc := (s.core n).now }) := by
  have hmove : moveWaiting n (rollback n s) = rollback n s := moveWaiting_noneDue (by rwa [core_rollback])
  simp only [suppress, hmove]

end Sys2Proof.Machine
end

section
/-! O60: the words of a bundle spell their instructions. -/

namespace Sys2Proof

open Claims Machine

/-- R131, R162, R202, with R154 and R156 for the bundle that stops. -/
theorem slotWords : Claims.SlotWords := by
  refine ⟨fun i kind w => ⟨decodeSlot_zero i kind, decodeSlot_ne_zero i kind⟩, ?_, ?_⟩
  · intro n pc k s
    exact illegalOp_mem_wordFaults s n pc k
  · intro i s hopen hcl n c k o f rest _ hr hw hcode hdue
    have hne : (opened i s).wordFaults n c.pc ≠ [] := by simp [hw]
    refine ⟨_, nop_suppresses hopen hcl hr hne, ?_⟩
    rw [suppress_noneDue _ hdue, hw]
    have hpc : ((opened i s).core n).pc = c.pc := rfl
    simp [recordAll_fault_first hcode, hpc]

/-- Settles O60, class by class: the word of each field layout, the words of a bundle that spell nothing, and the chapters' examples. -/
theorem wordsSpellInstructions : Obligations.WordsSpellInstructions :=
  ⟨planeWords, vectorWords, scalarWords, movementWords, slotWords, exampleWords⟩

end Sys2Proof
end

section
/-! Instructions that issue, raise no fault, and replace their own core: the outcome that `Claims.CoreBecomes` names. -/

namespace Sys2Proof.Machine

open Claims

variable {i : Issue} {cls : Nat} {spec : State → Core → OpSpec} {s : State}

/-- An instruction that sits in its slot, is not held and raises no fault has its effect, where its bundle shows no fault at its end. -/
theorem issueOp_of_sits (h : Sits i cls s) (hstall : (spec (opened i s) (issuer i s)).stall = [])
    (hfree : Free (issuer i s) (spec (opened i s) (issuer i s)).reads)
    (hfault : firstFault (spec (opened i s) (issuer i s)).faults = none)
    (hend : closesBundle i = true → bundleEndFaults i.core.toNat (spec (opened i s) (issuer i s)).eff = []) :
    issueOp i cls spec s = slotEnds i (spec (opened i s) (issuer i s)).eff := by
  obtain ⟨hopen, hslot, -⟩ := h
  have ⟨_, hnostall, hnofault⟩ := hopen
  exact issueOp_issues (takesSlot_of_opens hopen) rfl hnostall hnofault hslot (fun hl => ⟨hstall, hfree hl⟩) hfault hend

/-- An instruction whose effect is the core `d`, which goes on in sequence where the issuing core does, makes its core `d`. -/
theorem issueOp_coreBecomes {d : Core} (h : Issues i cls s)
    (heff : (spec (opened i s) (issuer i s)).eff = (opened i s).setCore i.core.toNat d)
    (hstall : (spec (opened i s) (issuer i s)).stall = [])
    (hfree : Free (issuer i s) (spec (opened i s) (issuer i s)).reads)
    (hfault : firstFault (spec (opened i s) (issuer i s)).faults = none)
    (hpc : d.pc = (issuer i s).pc) (hrun : d.runsOut = (issuer i s).runsOut) :
    .next (issueOp i cls spec s) = CoreBecomes i s d := by
  obtain ⟨hsits, hstays⟩ := h
  have ⟨_, _, hwords⟩ := hsits
  rw [issueOp_of_sits hsits hstall hfree hfault, heff, CoreBecomes]
  intro hcl
  rw [heff]
  exact bundleEndFaults_setCore (hpc ▸ hwords hcl) (hrun.trans (hstays hcl))

theorem free_nil (c : Core) : Free c [] := fun _ => awaits_nil c

/-! ## Results and stores leave the place of issue -/

@[simp] theorem Core.retS_pc (c : Core) (r : BitVec 5) (x : Word) (lat : Nat) : (c.retS r x lat).pc = c.pc := rfl

@[simp] theorem Core.retS_runsOut (c : Core) (r : BitVec 5) (x : Word) (lat : Nat) : (c.retS r x lat).runsOut = c.runsOut := rfl

@[simp] theorem Core.store_pc (c : Core) (slot a : Nat) (bs : List Byte) : (c.store slot a bs).pc = c.pc := rfl

@[simp] theorem Core.store_runsOut (c : Core) (slot a : Nat) (bs : List Byte) : (c.store slot a bs).runsOut = c.runsOut := rfl

@[simp] theorem Core.writeA_pc (c : Core) (r : BitVec 3) (x : Dword) : (c.writeA r x).pc = c.pc := rfl

@[simp] theorem Core.writeA_runsOut (c : Core) (r : BitVec 3) (x : Dword) : (c.writeA r x).runsOut = c.runsOut := rfl

/-! ## Operands that raise no fault -/

theorem rangeFault_of_span {a len al : Nat} (h : Span a len al) : (rangeFault a len).1 = false := by
  simp [rangeFault, pastDm, h.1]

theorem alignFault_of_span {a len al : Nat} (h : Span a len al) : (alignFault a al).1 = false := by
  simp [alignFault, h.2]

theorem writeRangeFault_of_storeSpan {c : Core} {a len al : Nat} (h : StoreSpan c a len al) :
    (writeRangeFault c a len).1 = false := by
  obtain ⟨⟨hlen, _⟩, hres⟩ := h
  simp [writeRangeFault, pastDm, inResident]
  omega

end Sys2Proof.Machine
end

section
/-! The scalar unit's operations (R131, R205 to R209), each by its own rule. -/

namespace Sys2Proof.Machine

open Claims

variable {i : Issue} {s : State}

/-- R205, R206: an R-form or I-form instruction whose result meets no other write puts it on the timeline. -/
theorem scalarOp_coreBecomes {sd : BitVec 5} {lat : Nat} (h : Issues i 2 s)
    (hclash : (issuer i s).clashS sd ((issuer i s).now + lat) = false) (f : Core → Word) :
    .next (scalarOp i sd lat f s) = CoreBecomes i s ((issuer i s).retS sd (f (issuer i s)) lat) := by
  refine issueOp_coreBecomes h rfl rfl (free_nil _) ?fault (Core.retS_pc ..) (Core.retS_runsOut ..)
  simp [firstFault_eq_none, clashSFault, hclash]

/-- R207: LDW of an aligned word inside data memory that awaits no vault line. -/
theorem ldw_coreBecomes {sd sa : BitVec 5} {off : BitVec 16} (h : Issues i 2 s) (hspan : Span (wordAddr (issuer i s) sa off) 4 4)
    (hfree : Free (issuer i s) [(wordAddr (issuer i s) sa off, 4)])
    (hclash : (issuer i s).clashS sd ((issuer i s).now + 3) = false) :
    exec (.ldw i sd sa off) s = CoreBecomes i s ((issuer i s).retS sd
      (BitVec.ofNat 32 ((opened i s).dmNat i.core.toNat (wordAddr (issuer i s) sa off) 4)) 3) := by
  refine issueOp_coreBecomes h rfl rfl hfree ?fault (Core.retS_pc ..) (Core.retS_runsOut ..)
  simp [firstFault_eq_none, rangeFault_of_span hspan, alignFault_of_span hspan, clashSFault, hclash]

/-- R207: STW of an aligned word outside the resident area. -/
theorem stw_coreBecomes {ss sa : BitVec 5} {off : BitVec 16} (h : Issues i 2 s)
    (hspan : StoreSpan (issuer i s) (wordAddr (issuer i s) sa off) 4 4) :
    exec (.stw i ss sa off) s = CoreBecomes i s
      ((issuer i s).store 2 (wordAddr (issuer i s) sa off) (leBytes 4 ((issuer i s).rs ss).toNat)) := by
  refine issueOp_coreBecomes h rfl rfl (free_nil _) ?fault (Core.store_pc ..) (Core.store_runsOut ..)
  simp [firstFault_eq_none, writeRangeFault_of_storeSpan hspan, alignFault_of_span hspan.1]

/-- R208: ASET from an even register, with an index inside its count, of an address register that the bundle has not used. -/
theorem aset_coreBecomes {aN : BitVec 3} {sA : BitVec 5} (h : Issues i 2 s) (heven : sA.toNat % 2 = 0)
    (hunused : (issuer i s).bundleAddr.contains aN.toNat = false) {cnt ix : Nat}
    (hcnt : cnt = bitsOf ((issuer i s).rs1 sA 1).toNat 0 16) (hix : ix = bitsOf ((issuer i s).rs1 sA 1).toNat 16 16)
    (hinside : cnt = 0 ∨ ix < cnt) :
    exec (.aset i aN sA) s = CoreBecomes i s
      ((issuer i s).writeA aN (BitVec.ofNat 64 (((issuer i s).rs sA).toNat + cnt * 2 ^ 32 + ix * 2 ^ 48))) := by
  subst hcnt hix
  refine issueOp_coreBecomes h rfl rfl (free_nil _) ?fault (Core.writeA_pc ..) (Core.writeA_runsOut ..)
  have hused : (clashAFault (issuer i s) aN).1 = false := hunused
  simp [firstFault_eq_none, regAligned, heven, hused]
  omega

/-- R209: RDS of a code that Table ISA-24 names. -/
theorem rds_coreBecomes {sd : BitVec 5} {code : BitVec 8} {x : Word} (h : Issues i 2 s)
    (hvalue : rdsValue (opened i s) i.core.toNat (issuer i s) code.toNat = some x)
    (hclash : (issuer i s).clashS sd ((issuer i s).now + 1) = false) :
    exec (.rds i sd code) s = CoreBecomes i s ((issuer i s).retS sd x 1) := by
  refine issueOp_coreBecomes h ?eff rfl (free_nil _) ?fault (Core.retS_pc ..) (Core.retS_runsOut ..)
  case eff => simp [hvalue]
  case fault => simp [firstFault_eq_none, hvalue, clashSFault, hclash]

/-- R131: a NOP in any slot changes nothing but its bundle's progress. -/
theorem nop_slotEnds (h : Issues i i.slot.toNat s) : exec (.nop i) s = .next (slotEnds i (opened i s)) := by
  obtain ⟨hsits, hstays⟩ := h
  have ⟨_, _, hwords⟩ := hsits
  rw [exec_nop, issueOp_of_sits hsits rfl (free_nil _) firstFault_nil]
  intro hcl
  exact (bundleEndFaults_of_stays (hstays hcl)).trans (hwords hcl)

end Sys2Proof.Machine
end

section
/-! O3: the scalar unit. -/

namespace Sys2Proof

open Claims Machine

/-- R205, R206. -/
theorem scalarResults : ScalarResults := by
  intro i sd sa sb imm s h
  refine ⟨fun hclash => ⟨?add, ?sub, ?and, ?or, ?xor, ?shl, ?shr, ?sra, ?slt, ?sltu, ?addi, ?ori, ?lui⟩, fun hclash => ?mul⟩
  all_goals exact scalarOp_coreBecomes h hclash _

/-- R207 to R209, R131. -/
theorem scalarMemoryAndMoves : ScalarMemoryAndMoves := by
  intro i s h
  refine ⟨?ldw, ?stw, ?aset, ?rds, nop_slotEnds h⟩
  case ldw => exact fun sd sa off hslot hspan hfree hclash => ldw_coreBecomes (hslot ▸ h) hspan hfree hclash
  case stw => exact fun ss sa off hslot hspan => stw_coreBecomes (hslot ▸ h) hspan
  case aset => exact fun aN sA hslot heven hunused hinside => aset_coreBecomes (hslot ▸ h) heven hunused rfl rfl hinside
  case rds => exact fun sd code x hslot hvalue hclash => rds_coreBecomes (hslot ▸ h) hvalue hclash

/-- Settles O3: each operation by its own rule, and each rule by `issueOp_of_sits`. -/
theorem scalarUnit : Obligations.ScalarUnit := ⟨scalarResults, scalarMemoryAndMoves⟩

end Sys2Proof
end

section
/-! What a write to GDDR and an answer leave alone, and a COPY that this device executes for itself as its destination (R292, R434, R441,
R448). -/

namespace Sys2Proof.Machine

open Claims

/-! ## A write to GDDR -/

theorem foldl_regs {α : Type} {f : State → α → State} (hf : ∀ s x, (f s x).regs = s.regs) :
    ∀ (l : List α) (s : State), (l.foldl f s).regs = s.regs
  | [], _ => rfl
  | x :: l, s => (foldl_regs hf l (f s x)).trans (hf s x)

theorem rewriteWord_regs (s : State) (g : Nat) (flips : Word) : (s.rewriteWord g flips).regs = s.regs := by
  unfold State.rewriteWord
  split
  · rfl
  · refine foldl_regs (fun s x => ?_) _ _
    split_ifs <;> rfl

theorem poisonSector_regs (s : State) (k : Nat) : (s.poisonSector k).regs = s.regs := by
  unfold State.poisonSector
  split <;> rfl

/-- The sectors that a write of `len` bytes covers in part (R292). -/
def partSectors (a len : Nat) : List Nat :=
  [a / 64, (a + len - 1) / 64].dedup.filter (fun k => !(decide (a ≤ 64 * k) && decide (64 * k + 64 ≤ a + len)))

/-- A sector is read to be merged with the bytes of a write, and stored as its decoder gives it (R292). -/
def State.mergeSector (s : State) (k : Nat) : State :=
  { s.takeSector k with mem := s.mem.write (64 * k) (s.gddrBytes (64 * k) 64) }

/-- Of a write to GDDR, the reads of the sectors it covers in part are all that registers show. -/
theorem writeGddr_regs (s : State) (a : Nat) {bs : List Byte} (hbs : bs ≠ []) :
    (s.writeGddr a bs).regs = ((partSectors a bs.length).foldl State.mergeSector s).regs := by
  unfold State.writeGddr
  rw [if_neg (by simpa using hbs)]
  extract_lets lo hi inSpan merged failed s1 s2 s3
  have hfree : ∀ (s : State) (k : Nat),
      State.regs { s with mem := s.mem.write (64 * k) (freeBytes s.freeCount 64), freeCount := s.freeCount + 64 } = s.regs :=
    fun _ _ => rfl
  have hword : ∀ (s : State) (g : Nat × Word), (s.rewriteWord g.1 g.2).regs = s.regs := fun s g => rewriteWord_regs s g.1 g.2
  refine (foldl_regs hfree _ _).trans ((foldl_regs poisonSector_regs failed s3).trans ?_)
  exact foldl_regs hword _ s1

theorem writeLocal_of_inGddr {s : State} {a : Nat} (hvaults : inVaults a = false) (hgddr : inGddr a = true) (bs : List Byte) :
    (s.writeLocal a bs).1 = s.writeGddr a bs := by
  simp [State.writeLocal, hvaults, hgddr]

/-! ## An answer -/

theorem reg_of_regs {s t : State} (h : t.regs = s.regs) (a : Nat) : t.reg a = s.reg a := by
  simp only [State.reg, h]

/-- The route of a transaction is read from registers alone. -/
theorem routeTo_of_regs {s t : State} (h : t.regs = s.regs) (d c sel : Nat) : t.routeTo d c sel = s.routeTo d c sel := by
  have hregs : ∀ u : State, u.routeTo d c sel = State.routeTo { regs := u.regs } d c sel := fun _ => rfl
  rw [hregs t, hregs s, h]

theorem devId_of_regs {s t : State} (h : t.regs = s.regs) : t.devId = s.devId := by
  simp only [State.devId, State.fld, reg_of_regs h]

theorem takeData_outbox (s : State) (t : FabTx) : (s.takeData t).outbox = s.outbox := by
  unfold State.takeData
  repeat' split
  all_goals rfl

theorem lateRsp_outbox (s : State) (rd : Bool) (tag : Nat) : (s.lateRsp rd tag).outbox = s.outbox := by
  unfold State.lateRsp
  split <;> rfl

theorem answered_outbox {s s1 : State} {rd : Bool} {tag : Nat} {st : Status} {data : List Byte} {t : FabTx}
    (h : s.answered rd tag st data = some (s1, t)) : s1.outbox = s.outbox := by
  obtain ⟨u, -, heq⟩ := Option.map_eq_some_iff.mp h
  exact (congrArg (·.1.outbox) heq).symm

/-- R448: an answer to the device itself leaves on no port. -/
theorem respond_own_outbox {s : State} {h : Hdr} (hown : h.src = s.devId) (op : Nat) (st : Status) (data : List Byte) :
    (s.respond op h st data).outbox = s.outbox := by
  unfold State.respond
  rw [if_pos hown]
  split
  · exact lateRsp_outbox ..
  · next hans => exact (takeData_outbox ..).trans (answered_outbox hans)

/-! ## A COPY -/

theorem onPort_of_reaches {port : BitVec 5} {h : Hdr} {s : State} (hr : Reaches port h s) (f : State → State) :
    s.onPort port.toNat h f = f s := by
  obtain ⟨-, -, hid, hup, hdst, hsrc, hheld⟩ := hr
  simp [State.onPort, State.arrives, hid, hup, hdst, hsrc, hheld]

/-- R441: a COPY onto this device whose checks pass and whose lines can be read writes them and answers. -/
theorem exec_copy_onto_self {port : BitVec 5} {h : Hdr} {s : State} {g : Nat} {r : State × Status × List Byte} {w : State × Status}
    (hr : Reaches port h s) (hg : g = leNat (h.data.take 8)) (hread : r = s.readLocal h.addr (32 * (h.lines + 1)))
    (hwrite : w = r.1.writeLocal (bitsOf g 0 48) r.2.2) (hdev : bitsOf g 52 12 = s.devId)
    (hchecks : s.copyChecks h.src h.addr (32 * (h.lines + 1)) g = none) (hok : r.2.1 = .ok) :
    exec (.copy port h) s = .next (w.1.respond 4 h w.2 []) := by
  subst hg hread hwrite
  change Host.Outcome.next (s.takeCopy port.toNat h) = _
  rw [State.takeCopy, onPort_of_reaches hr]
  simp [hchecks, hok, hdev]

end Sys2Proof.Machine
end

section
/-! O38 fails. A command's read of a vault answers with every result that stands under commands in `bgDone` (`State.bgRun`), those of an
earlier transfer among them, and no clause excludes that one is left there. A COPY onto this device writes these bytes as well, past the span
that its checks looked at: with enough of them its last sector lies where a region 0x7FF8 would, whose GDR_RGN_STATE has the offset of NGV_ID.
That sector cannot be read, so that region is retired, and NGV_ID names the requester: the ACK of R434 leaves on no port (R448). -/

namespace Sys2Proof

open Claims Machine

/-- From region 0 to where a region 0x7FF8 would begin. -/
def straySpan : Nat := 0x7FF8 * 2 ^ 32

/-- The sector in which a write of `straySpan` bytes and one line from the start of region 0 ends. -/
def straySector : Nat := (gddrBase 0 + straySpan) / 64

/-- Device 1 in a slice with device 12, to which port 0 leads. Bytes of an earlier command's transfer are left, and three symbols of
`straySector` have failed. -/
def stateWithLeft (left : List Byte) : State :=
  { clusters := [(0, {})]
    regs := [(Reg.gdrCfg, 0), (Reg.gdrPolicy, 1), (Reg.gdrRgnState 0, 2), (Reg.ngvId, 2 ^ 12 + 1), (Reg.portCtrl 0, 2),
      (Reg.portStatus 0, 2), (Reg.slcUplink, 1), (Reg.slcStatus, 1), (Reg.ngvDest 12, 2 ^ 48 + 1), (Reg.slcAcc 12, 1)]
    gerr := [(straySector, [1, 1, 1] ++ List.replicate 65 0)]
    bgDone := [⟨.command, 0, .ok, left⟩] }

def strayState : State := stateWithLeft (zeroBytes straySpan)

/-- Device 12 asks device 1 to copy the first line of vault 0 to the start of region 0. -/
def strayCopy : Hdr :=
  { cls := 0, fence := false, tag := 5, src := 12, dst := 1, lines := 0, att := 0, asub := 0, status := 0, addr := 0, turn := 0, hops := 15
    data := leBytes 8 (2 ^ 52 + gddrBase 0) }

/-- The read of the COPY, and its write. -/
def strayRead : State × Status × List Byte := strayState.readLocal 0 32
def strayWrite : State × Status := strayRead.1.writeLocal (gddrBase 0) strayRead.2.2

theorem strayCopy_reaches : Reaches 0#5 strayCopy strayState := by
  unfold Reaches
  decide +kernel

theorem strayCopy_onto_self : bitsOf (leNat (strayCopy.data.take 8)) 52 12 = strayState.devId := by decide +kernel

theorem strayCopy_destination : bitsOf (leNat (strayCopy.data.take 8)) 0 48 = gddrBase 0 := by decide +kernel

theorem strayCopy_checks : strayState.copyChecks 12 0 32 (leNat (strayCopy.data.take 8)) = none := by decide +kernel

theorem strayRead_ok : strayRead.2.1 = .ok := by decide +kernel

/-- The bytes that were left come before those of the line. -/
theorem readLocal_stateWithLeft (left : List Byte) : ((stateWithLeft left).readLocal 0 32).2.2 = left ++ zeroBytes 32 := by
  with_unfolding_all rfl

theorem strayRead_bytes : strayRead.2.2 = zeroBytes straySpan ++ zeroBytes 32 := readLocal_stateWithLeft _

theorem strayWrite_parts : partSectors (gddrBase 0) (straySpan + 32) = [straySector] := by decide +kernel

theorem strayWrite_regs : strayWrite.1.regs = (strayRead.1.mergeSector straySector).regs := by
  have hgddr : strayWrite.1 = strayRead.1.writeGddr (gddrBase 0) strayRead.2.2 := writeLocal_of_inGddr (by decide) (by decide) _
  have hlen : strayRead.2.2.length = straySpan + 32 := by simp [strayRead_bytes, zeroBytes]
  have hne : strayRead.2.2 ≠ [] := List.ne_nil_of_length_pos (by omega)
  rw [hgddr, writeGddr_regs _ _ hne, hlen, strayWrite_parts]
  rfl

/-- The retirement of a region 0x7FF8 makes NGV_ID name device 12. -/
theorem mergeSector_devId : (strayRead.1.mergeSector straySector).devId = 12 := by decide +kernel

theorem strayWrite_devId : strayWrite.1.devId = 12 := (devId_of_regs strayWrite_regs).trans mergeSector_devId

theorem strayWrite_routeTo : strayWrite.1.routeTo 12 0 5 = some 0 := by
  rw [routeTo_of_regs strayWrite_regs]
  decide +kernel

/-- The COPY is carried out, and its ACK is not sent. -/
theorem exec_strayCopy : ∃ t, exec (.copy 0#5 strayCopy) strayState = .next t ∧ t.outbox = strayWrite.1.outbox :=
  ⟨_, exec_copy_onto_self strayCopy_reaches rfl rfl rfl strayCopy_onto_self strayCopy_checks strayRead_ok,
    respond_own_outbox strayWrite_devId.symm ..⟩

/-- Refutes O38: of `CopiesAndTransit`, the clause that a COPY onto this device is answered, by `strayCopy` on `strayState`. -/
theorem not_fabricTransactions : ¬ Obligations.FabricTransactions := by
  rintro ⟨-, -, hcopies, -⟩
  obtain ⟨hmoves, -, -⟩ := hcopies 0#5 strayCopy strayState strayCopy_reaches
  obtain ⟨t, hexec, -, hanswers, -⟩ := hmoves strayCopy_onto_self strayCopy_checks strayRead_ok
  obtain ⟨u, hexec', houtbox⟩ := exec_strayCopy
  obtain rfl : t = u := Host.Outcome.next.inj (hexec.symm.trans hexec')
  obtain ⟨ack, flits, hsent, -⟩ := hanswers 0 strayWrite_routeTo
  have hnone : strayWrite.1.outbox = strayWrite.1.outbox ++ .tx 0 9 ack :: flits := houtbox.symm.trans hsent
  simp at hnone

end Sys2Proof
end
